-- ==== Sys2Proof/Word.lean ====
section
/-! DEFINITION. The word types of the KY9 and the plainest arithmetic over them. -/

set_option Elab.async false

namespace Sys2Proof

/-- A 32-bit word: a sample word, a stove register (R10, R276). -/
abbrev Word := BitVec 32

/-- One byte of an addressed memory. -/
abbrev Byte := BitVec 8

/-- A 72-bit stove accumulator (R276). -/
abbrev Acc := BitVec 72

end Sys2Proof
end

