-- ==== Sys2Proof/Syntax.lean ====
section
/-! DEFINITION. The commands of the KY9 block: one constructor per row of spec/opcode_table.json, with
the operands a command carries. A host command carries the 64 B entry as fetched (R388) and what
host memory answers to the reads it makes (log 6, log 7). -/

set_option Elab.async false

namespace Sys2Proof

/-- Where a command came from: a command ring of this node's host, or a CMD frame of the manager
with its source TAG and the role the manager resolved (R432, R467). -/
inductive Origin where
  | ring
  | frame (tag role : Nat)
  deriving DecidableEq, Repr

/-- A request: the function (0 PF, k + 1 VFk) and the command queue it was fetched from, the 64 B entry,
and host memory's bytes by bus address; a byte not listed is a read that fails. -/
structure Req where
  fn : Nat
  qid : Nat
  entry : BitVec 512
  host : List Host.Cell := []
  origin : Origin := .ring
  deriving DecidableEq, Repr

/-- One conversion of a calibration pass (R243, R244): the unclamped result before any negation, and whether its word would carry OVR, DIS
or STL. -/
structure CalSample where
  r : Int
  out : Bool := false
  deriving DecidableEq, Repr

/-- The forced decisions of one conversion on a tile: of its own core, and of the reserve core where that converts for it (R90, R262). -/
structure Forced where
  tile : Nat := 0
  reserve : Nat := 0
  deriving DecidableEq, Repr

/-- What a coarse search did: the trims of the force buffer, its conversions, of which there are at most 40,960 in 2 ms, and their forced
decisions (R90, R113, R251). -/
structure CoarseEnd where
  forceOffset : Int
  forceGain : Int
  conversions : Nat
  forced : Nat
  deriving DecidableEq, Repr

/-- The conversions of a calibration pass by segment (R243), its forced decisions (R90), and what it measures of the force buffer: offset in
uV and gain in ppm, both in parts of 2^32 (R141). -/
structure CalPass where
  triadA : List CalSample
  triadB : List CalSample
  triadC : List CalSample
  weights : List CalSample
  gains : List (List CalSample)
  forced : Nat := 0
  forceOffset : Int := 0
  forceGain : Int := 0
  deriving DecidableEq, Repr

/-- The overvoltage detector of a pin acts `sub` sixty-fourths of a nanosecond after the present draught edge (R70). -/
structure PinMoment where
  pin : Nat
  sub : Nat
  deriving DecidableEq, Repr

/-- Lane job `lane` of a die's filter engine ends (R199); `bad` says that the parity of its word fails at the metering pairs (R104). -/
structure LaneEnd where
  die : Nat
  lane : Nat
  bad : Bool
  deriving DecidableEq, Repr

/-- The 256 conversions of a loopback level (R146): the sum of their codes, and their forced decisions (R90). -/
structure LevelSum where
  sum : Int
  forced : Nat
  deriving DecidableEq, Repr

/-- The size of a write of the host in bytes, and whether it arrives poisoned (R359). -/
structure WriteLen where
  bytes : Nat
  poisoned : Bool := false
  deriving DecidableEq, Repr

/-- A frame whose CRC fails, as it reads: its SRC, class and type, its DST (none: BCAST), HOPS, AUX, FSEQ and body (R422, R426). -/
structure FailedFrame where
  src : Nat := 0
  cls : Nat := 4
  type : Nat := 0
  dst : Option Nat
  hops : Nat
  aux : Nat := 0
  fseq : Nat := 0
  body : Nat := 0
  deriving DecidableEq, Repr

/-- A frame of no known type at a port; with `fails`, one whose CRC fails (R424, R426). -/
structure StrangeFrame where
  east : Bool
  fails : Option FailedFrame
  deriving DecidableEq, Repr

/-- A detector's report (R513): the detector, the source, the 16 B of detail; `holds` false says that the condition of a level
detector has ended. -/
structure Detection where
  det : Nat
  inst : Nat
  detail : Nat := 0
  holds : Bool := true
  deriving DecidableEq, Repr

/-- What the checks at the kindling of a die find: its flue bridge up, and on die 0 a valid copy of the trust record, of the counter
record and of the plan record (R460, R582). -/
structure KindleChecks where
  bridge : Bool := true
  trust : Bool := true
  counters : Bool := true
  plan : Bool := true
  deriving DecidableEq, Repr

/-- A segment of a PROMPT, PACKED or CAPTURE frame (R428): the source node, the stream, its words. -/
structure Segment where
  src : Nat
  tile : Nat
  slot : Nat
  kind : Nat
  span : Nat
  seq : Nat
  time : Nat
  words : List Word
  deriving DecidableEq, Repr

/-- What a CAPTURE frame carries (R424, log 39): a 64 B record for a queue, or a block of a capture stream with its STEP. -/
inductive CaptureBody where
  | record (val : Nat)
  | block (g : Segment) (step : Nat)
  deriving DecidableEq, Repr

/-- The content of a TIME frame (R438). -/
structure TimeFrame where
  origin : Nat
  frac : Nat
  corr : Int
  hopsDone : Nat
  last : Nat
  form : Bool := false
  planSeq : Nat := 0
  joinTime : Nat := 0
  joinA : Nat := 0
  joinB : Nat := 0
  deriving DecidableEq, Repr

/-- A CMD frame (R432) with the model's own content (log 31, log 51): kind 0 a command, 1 the hearths live on the manager, 2 a stove of
the source reads a stream of this node, 3 a command that names a capture queue, 4 a lane rate of a port, 5 a damper step of a stream,
6 the spacing of a stream, 7 entries lost at a queue, 8 what a queue created afresh sets for its streams. -/
structure CmdFrame where
  kind : Nat := 0
  fn : Nat := 0
  right : Nat := 0
  arg : Nat := 0
  queue : Nat := 0
  entry : BitVec 512 := 0
  host : List Host.Cell := []
  deriving DecidableEq, Repr

/-- A worker as the manager finds it (R446, log 55): its serial number, the number it claims, its boot count, its place in ring-A order,
and the device time it reports with the link delays to it (R441). -/
structure RingWorker where
  serial : Nat
  claim : Option Nat
  boot : Nat
  position : Nat
  time : Option Nat := none
  deriving DecidableEq, Repr

/-- The commands: a row each, in the order of the table. -/
inductive Instr where
  | powerOn -- POWER_ON
  | supplyBrownOut (rail : Nat) (sent : List Nat) -- SUPPLY_BROWN_OUT
  | supplyRange (die rail : Nat) (inRange : Bool) -- SUPPLY_RANGE
  | va5PowerFail -- VA5_POWER_FAIL
  | powerFailProgramDone -- POWER_FAIL_PROGRAM_DONE
  | powerFailReadbackDone -- POWER_FAIL_READBACK_DONE
  | rstNAssert -- RST_N_ASSERT
  | resetRelease (role : Nat) -- RESET_RELEASE
  | kindleDie (die : Nat) -- KINDLE_DIE
  | kindleUnit (die : Nat) (chk : KindleChecks) -- KINDLE_UNIT
  | kindleLane (ring : Bool) -- KINDLE_LANE
  | flueBridgeTimeout (die : Nat) -- FLUE_BRIDGE_TIMEOUT
  | kindleQueueSlot (die : Nat) -- KINDLE_QUEUE_SLOT
  | triadSettled (die : Nat) -- TRIAD_SETTLED
  | coarseSearchDone (c : Nat) (offset gain : Int) (weights pga : List Int) (done : CoarseEnd) -- COARSE_SEARCH_DONE
  | calPassDone (c : Nat) (p : CalPass) -- CAL_PASS_DONE
  | dclkLoss -- DCLK_LOSS
  | dclkAbsentTimeout -- DCLK_ABSENT_TIMEOUT
  | draughtSourceReturn (east : Bool) -- DRAUGHT_SOURCE_RETURN
  | recoveredClockLoss (east : Bool) -- RECOVERED_CLOCK_LOSS
  | oscillatorTrim -- OSCILLATOR_TRIM
  | tempCompensation (die : Nat) (temp : Int) -- TEMP_COMPENSATION
  | ovpOpen (m : PinMoment) (high : Bool) -- OVP_OPEN
  | ovpClose (m : PinMoment) -- OVP_CLOSE
  | cmxEntry (p : Nat) (above : Bool) -- CMX_ENTRY
  | conversion (n : Nat) (r q : Int) (forced : Forced) (bad : Nat) -- CONVERSION
  | flushExpiry (q : Nat) -- FLUSH_EXPIRY
  | engineJob (e : LaneEnd) -- ENGINE_JOB
  | flueTransfer (die : Nat) (bad : Bool) -- FLUE_TRANSFER
  | dieKeepaliveTimeout (die : Nat) -- DIE_KEEPALIVE_TIMEOUT
  | seqCommitEffective (n : Nat) -- SEQ_COMMIT_EFFECTIVE
  | triggerArrival -- TRIGGER_ARRIVAL
  | runStart (n : Nat) -- RUN_START
  | runEnd (n : Nat) -- RUN_END
  | limitEpisodeStart (n : Nat) -- LIMIT_EPISODE_START
  | limitEpisodeEnd (n : Nat) -- LIMIT_EPISODE_END
  | foldBack (n : Nat) -- FOLD_BACK
  | hizStep (n : Nat) -- HIZ_STEP
  | forceRetry (n : Nat) -- FORCE_RETRY
  | retryOk (n : Nat) -- RETRY_OK
  | retryCountReset (n : Nat) -- RETRY_COUNT_RESET
  | contention (n : Nat) (iOut : Int) -- CONTENTION
  | rampDownDone (n : Nat) -- RAMP_DOWN_DONE
  | loopbackLevelDone (n : Nat) (l : LevelSum) -- LOOPBACK_LEVEL_DONE
  | swapInstant (n c : Nat) -- SWAP_INSTANT
  | swapComplete (n c : Nat) -- SWAP_COMPLETE
  | syncPinEdge (sub : Nat) -- SYNC_PIN_EDGE
  | syncAct -- SYNC_ACT
  | syncDone (mask : Nat) -- SYNC_DONE
  | trackingDone (g : Nat) -- TRACKING_DONE
  | handBackDone (g : Nat) -- HAND_BACK_DONE
  | handoverTimeout (g : Nat) -- HANDOVER_TIMEOUT
  | rollingStep (g : Nat) -- ROLLING_STEP
  | faultSubstitution (g : Nat) -- FAULT_SUBSTITUTION
  | rowBurnDone (die : Nat) (ok : Bool) -- ROW_BURN_DONE
  | portWordArrival (sv p : Nat) (bad : Bool) -- PORT_WORD_ARRIVAL
  | alignWaitTimeout (sv i : Nat) -- ALIGN_WAIT_TIMEOUT
  | lawRunStart (sv : Nat) -- LAW_RUN_START
  | trapCycles (sv stall : Nat) -- TRAP_CYCLES
  | cacheFillDone (sv cycles : Nat) -- CACHE_FILL_DONE
  | svNop (sv : Nat) -- NOP
  | svAdd (sv a b c : Nat) -- ADD
  | svSub (sv a b c : Nat) -- SUB
  | svAdds (sv a b c : Nat) -- ADDS
  | svSubs (sv a b c : Nat) -- SUBS
  | svAnd (sv a b c : Nat) -- AND
  | svOr (sv a b c : Nat) -- OR
  | svXor (sv a b c : Nat) -- XOR
  | svShl (sv a b c : Nat) -- SHL
  | svShr (sv a b c : Nat) -- SHR
  | svSra (sv a b c : Nat) -- SRA
  | svMul (sv a b c : Nat) -- MUL
  | svMulh (sv a b c : Nat) -- MULH
  | svSin (sv a imm : Nat) -- SIN
  | svSseq (sv a imm : Nat) -- SSEQ
  | svStim (sv a imm : Nat) -- STIM
  | svAddi (sv a b imm : Nat) -- ADDI
  | svAndi (sv a b imm : Nat) -- ANDI
  | svOri (sv a b imm : Nat) -- ORI
  | svLui (sv a imm : Nat) -- LUI
  | svShli (sv a b imm : Nat) -- SHLI
  | svShri (sv a b imm : Nat) -- SHRI
  | svSrai (sv a b imm : Nat) -- SRAI
  | svSrr (sv a imm : Nat) -- SRR
  | svSrw (sv a imm : Nat) -- SRW
  | svLoopStep (sv a imm : Nat) -- LOOP_STEP
  | svLctlHold (sv a imm : Nat) -- LCTL_HOLD
  | svLctlResume (sv a imm : Nat) -- LCTL_RESUME
  | svLw (sv a b imm : Nat) -- LW
  | svSw (sv a b imm : Nat) -- SW
  | svBeq (sv a b imm : Nat) -- BEQ
  | svBne (sv a b imm : Nat) -- BNE
  | svBlt (sv a b imm : Nat) -- BLT
  | svBge (sv a b imm : Nat) -- BGE
  | svJal (sv a imm : Nat) -- JAL
  | svJr (sv a : Nat) -- JR
  | svClamp (sv a b c : Nat) -- CLAMP
  | svRlim (sv a b c : Nat) -- RLIM
  | svTint (sv a b c : Nat) -- TINT
  | svCrc (sv a b imm : Nat) -- CRC
  | svMacc (sv a b c : Nat) -- MACC
  | svMsub (sv a b c : Nat) -- MSUB
  | svAclr (sv a : Nat) -- ACLR
  | svAld (sv a b c : Nat) -- ALD
  | svArd (sv a b imm : Nat) -- ARD
  | svFout (sv a imm : Nat) -- FOUT
  | svMsg (sv a imm : Nat) -- MSG
  | svQrec (sv a imm : Nat) -- QREC
  | svTripr (sv a : Nat) -- TRIPR
  | svTrg (sv : Nat) -- TRG
  | svEvt (sv a : Nat) -- EVT
  | svFadd (sv a b c : Nat) -- FADD
  | svFsub (sv a b c : Nat) -- FSUB
  | svFmul (sv a b c : Nat) -- FMUL
  | svFma (sv a b c : Nat) -- FMA
  | svFmin (sv a b c : Nat) -- FMIN
  | svFmax (sv a b c : Nat) -- FMAX
  | svFabs (sv a b : Nat) -- FABS
  | svFneg (sv a b : Nat) -- FNEG
  | svFcmp (sv a b c x : Nat) -- FCMP
  | svPsreq (sv a : Nat) -- PSREQ
  | svFdiv (sv a b c : Nat) -- FDIV
  | svFsqrt (sv a b : Nat) -- FSQRT
  | svFcvtsw (sv a b imm : Nat) -- FCVTSW
  | svFcvtws (sv a b imm : Nat) -- FCVTWS
  | svEnd (sv : Nat) -- END
  | svIllegal (sv op : Nat) -- ILLEGAL
  | loopCommandAct (sv : Nat) -- LOOP_COMMAND_ACT
  | psOpStart (k : Nat) -- PS_OP_START
  | xipHoldTimeout (k : Nat) -- XIP_HOLD_TIMEOUT
  | psOpDone (k : Nat) (ok : Bool) -- PS_OP_DONE
  | pairInstant (n : Nat) -- PAIR_INSTANT
  | pairStart (n : Nat) -- PAIR_START
  | periodicRecord -- PERIODIC_RECORD
  | meterRecordDone (ok : Bool) -- METER_RECORD_DONE
  | meterRestoreDone -- METER_RESTORE_DONE
  | pcieLinkUp (width rate : Nat) -- PCIE_LINK_UP
  | dlDown -- DL_DOWN
  | hotReset -- HOT_RESET
  | pciePerstNAssert -- PCIE_PERST_N_ASSERT
  | pciePerstNRelease -- PCIE_PERST_N_RELEASE
  | flr (fn : Nat) -- FLR
  | flrDone (fn : Nat) -- FLR_DONE
  | vfEnable (num : Nat) (enable : Bool) (badImages : List Nat) -- VF_ENABLE
  | linkRetrainDone (width rate : Nat) -- LINK_RETRAIN_DONE
  | hostReadCompletion (qid : Nat) (entry : BitVec 512) -- HOST_READ_COMPLETION
  | completionTimeout (qid : Nat) -- COMPLETION_TIMEOUT
  | doorbell (fn qid index : Nat) (phase full : Bool) (host : List Host.Cell) -- DOORBELL
  | commandFetch (qid : Nat) (host : List Host.Cell) -- COMMAND_FETCH
  | entryWrite (qid : Nat) (host : List Host.Cell) -- ENTRY_WRITE
  | damperTick -- DAMPER_TICK
  | invalidationEnd -- INVALIDATION_END
  | msixModTimer (fn v : Nat) -- MSIX_MOD_TIMER
  | msixUnmask (fn v : Nat) -- MSIX_UNMASK
  | admqEnSet (fn v : Nat) -- ADMQ_EN_SET
  | admqEnClear (fn : Nat) -- ADMQ_EN_CLEAR
  | fnCtrlEn (fn : Nat) (en : Bool) -- FN_CTRL_EN
  | tlbInv (fn : Nat) -- TLB_INV
  | devTimeLoRead (fn : Nat) -- DEV_TIME_LO_READ
  | faultTimeLoRead -- FAULT_TIME_LO_READ
  | clrBarErr -- CLR_BAR_ERR
  | clrRetrain -- CLR_RETRAIN
  | clrDbPf -- CLR_DB_PF
  | clrDbVf (k : Nat) -- CLR_DB_VF
  | retrain -- RETRAIN
  | resetArm (value : Nat) -- RESET_ARM
  | resetArmExpiry -- RESET_ARM_EXPIRY
  | resetGo -- RESET_GO
  | registerWrite (fn bar off : Nat) (len : WriteLen) (value : Nat) -- REGISTER_WRITE
  | linkUp (port a b : Nat) (d : List Int) -- LINK_UP
  | linkDown (east : Bool) (a b cause : Nat) -- LINK_DOWN
  | rxTirwin (src : Nat) (pdu : List (BitVec 8)) (carry : Option (Nat × Nat)) -- TIRWIN
  | rxLinkFault (src fseq a b : Nat) -- LINK_FAULT
  | rxTime (east : Bool) (sub res : Nat) (f : TimeFrame) -- TIME
  | rxDelayReq (east : Bool) (sub res : Nat) -- DELAY_REQ
  | rxDelayResp (east : Bool) (t2 t3 sub : Nat) -- DELAY_RESP
  | rxSync (fseq ref act : Nat) -- SYNC
  | rxTrigger (src fseq channel time : Nat) -- TRIGGER
  | rxPlan (fseq seq switchAt : Nat) (order : List Nat) (avoid : List (Nat × Nat)) -- PLAN
  | rxPrompt (newRoute : Bool) (segs : List Segment) -- PROMPT
  | rxMessage (src fseq channel mseq : Nat) -- MESSAGE
  | rxPacked (newRoute : Bool) (segs : List Segment) -- PACKED
  | rxCmd (src tag : Nat) (c : CmdFrame) -- CMD
  | rxCpl (src tag cmd status result addr len val : Nat) -- CPL
  | rxEvent (src tag time code hearth subject held detail : Nat) -- EVENT
  | rxAck (src tag : Nat) -- ACK
  | rxNumber (tag num : Nat) (w : RingWorker) -- NUMBER
  | rxCapture (src qid : Nat) (c : CaptureBody) -- CAPTURE
  | rxLog (src : Nat) (change : Bool) (body : Nat) -- LOG
  | timeSend -- TIME_SEND
  | delayReqSend (east : Bool) -- DELAY_REQ_SEND
  | packedSendTimeout -- PACKED_SEND_TIMEOUT
  | timeLossTimeout -- TIME_LOSS_TIMEOUT
  | resendTimeout -- RESEND_TIMEOUT
  | commandWaitTimeout -- COMMAND_WAIT_TIMEOUT
  | formationEnd (closed : Bool) -- FORMATION_END
  | insertionTimeout -- INSERTION_TIMEOUT
  | joinOffer -- JOIN_OFFER
  | joinTime -- JOIN_TIME
  | joinTimeout -- JOIN_TIMEOUT
  | planSwitch -- PLAN_SWITCH
  | routeHoldEnd -- ROUTE_HOLD_END
  | sessionTimeout -- SESSION_TIMEOUT
  | lockoutEnd -- LOCKOUT_END
  | lockoutRecordWrite -- LOCKOUT_RECORD_WRITE
  | changeLogEntryDone (ok : Bool) -- CHANGE_LOG_ENTRY_DONE
  | heartbeatTimer (c : Nat) -- HEARTBEAT_TIMER
  | pduHoldRelease (c : Nat) -- PDU_HOLD_RELEASE
  | tirwinExpiry (c : Nat) -- TIRWIN_EXPIRY
  | tripLoopChange (range : Nat) -- TRIP_LOOP_CHANGE
  | tripLoopDebounce -- TRIP_LOOP_DEBOUNCE
  | minPulseEnd -- MIN_PULSE_END
  | faultDetection (d : Option Detection) -- FAULT_DETECTION
  | reactionDone (rid : Nat) -- REACTION_DONE
  | shadowEnd (rid : Nat) -- SHADOW_END
  | tripLineSelfTest (die : Nat) (ok : Bool) -- TRIP_LINE_SELF_TEST
  | injectTimeout -- INJECT_TIMEOUT
  | ramLogWrite -- RAM_LOG_WRITE
  | tokenRefill -- TOKEN_REFILL
  | gaugeRead (die i : Nat) (value : Int) -- GAUGE_READ
  | hourlyMean -- HOURLY_MEAN
  | scheduledReplan -- SCHEDULED_REPLAN
  | replanDone -- REPLAN_DONE
  | devIdentify (r : Req) -- DEV_IDENTIFY
  | feConfig (r : Req) -- FE_CONFIG
  | feGroupConfig (r : Req) -- FE_GROUP_CONFIG
  | feStatus (r : Req) -- FE_STATUS
  | feClearCounts (r : Req) -- FE_CLEAR_COUNTS
  | coreStatus (r : Req) -- CORE_STATUS
  | coreClearCounts (r : Req) -- CORE_CLEAR_COUNTS
  | tileMode (r : Req) -- TILE_MODE
  | seqSlots (r : Req) -- SEQ_SLOTS
  | seqCommit (r : Req) -- SEQ_COMMIT
  | seqArm (r : Req) -- SEQ_ARM
  | seqTrigger (r : Req) -- SEQ_TRIGGER
  | seqStatus (r : Req) -- SEQ_STATUS
  | tcConfig (r : Req) -- TC_CONFIG
  | tcReset (r : Req) -- TC_RESET
  | tcStatus (r : Req) -- TC_STATUS
  | filtConfig (r : Req) -- FILT_CONFIG
  | filtCoef (r : Req) -- FILT_COEF
  | filtAdmit (r : Req) -- FILT_ADMIT
  | filtStatus (r : Req) -- FILT_STATUS
  | filtSwap (r : Req) -- FILT_SWAP
  | filtPreset (r : Req) -- FILT_PRESET
  | filtDcb (r : Req) -- FILT_DCB
  | filtDcbRead (r : Req) -- FILT_DCB_READ
  | filtSync (r : Req) -- FILT_SYNC
  | calConfig (r : Req) -- CAL_CONFIG
  | calRun (r : Req) -- CAL_RUN
  | calStatus (r : Req) -- CAL_STATUS
  | calRowBurn (r : Req) -- CAL_ROW_BURN
  | calRowRead (r : Req) -- CAL_ROW_READ
  | calSubst (r : Req) -- CAL_SUBST
  | forceConfig (r : Req) -- FORCE_CONFIG
  | forceTarget (r : Req) -- FORCE_TARGET
  | forceRestart (r : Req) -- FORCE_RESTART
  | forceStatus (r : Req) -- FORCE_STATUS
  | forceLoopback (r : Req) -- FORCE_LOOPBACK
  | stoveLoad (r : Req) -- STOVE_LOAD
  | lawConfig (r : Req) -- LAW_CONFIG
  | stoveBind (r : Req) -- STOVE_BIND
  | stoveConfig (r : Req) -- STOVE_CONFIG
  | stoveCtrl (r : Req) -- STOVE_CTRL
  | stoveStatus (r : Req) -- STOVE_STATUS
  | loopConfig (r : Req) -- LOOP_CONFIG
  | loopMode (r : Req) -- LOOP_MODE
  | loopSet (r : Req) -- LOOP_SET
  | loopStatus (r : Req) -- LOOP_STATUS
  | meterPair (r : Req) -- METER_PAIR
  | meterCtrl (r : Req) -- METER_CTRL
  | meterRead (r : Req) -- METER_READ
  | queueCreate (r : Req) -- QUEUE_CREATE
  | queueDestroy (r : Req) -- QUEUE_DESTROY
  | queueBind (r : Req) -- QUEUE_BIND
  | queueStatus (r : Req) -- QUEUE_STATUS
  | lmapInval (r : Req) -- LMAP_INVAL
  | ringConfig (r : Req) -- RING_CONFIG
  | ringStatus (r : Req) -- RING_STATUS
  | ringBypass (r : Req) -- RING_BYPASS
  | ringTrigger (r : Req) -- RING_TRIGGER
  | sessionOpen (r : Req) -- SESSION_OPEN
  | sessionClose (r : Req) -- SESSION_CLOSE
  | rolePassword (r : Req) -- ROLE_PASSWORD
  | makerChallenge (r : Req) -- MAKER_CHALLENGE
  | hearthAssign (r : Req) -- HEARTH_ASSIGN
  | hearthShares (r : Req) -- HEARTH_SHARES
  | chainGrant (r : Req) -- CHAIN_GRANT
  | hearthSeal (r : Req) -- HEARTH_SEAL
  | hearthStatus (r : Req) -- HEARTH_STATUS
  | clogRead (r : Req) -- CLOG_READ
  | clogArchive (r : Req) -- CLOG_ARCHIVE
  | safeConfig (r : Req) -- SAFE_CONFIG
  | safeConn (r : Req) -- SAFE_CONN
  | safeArm (r : Req) -- SAFE_ARM
  | safeStatus (r : Req) -- SAFE_STATUS
  | tirwinPut (r : Req) -- TIRWIN_PUT
  | faultConfig (r : Req) -- FAULT_CONFIG
  | faultRead (r : Req) -- FAULT_READ
  | faultClear (r : Req) -- FAULT_CLEAR
  | faultInject (r : Req) -- FAULT_INJECT
  | evlogRead (r : Req) -- EVLOG_READ
  | devReset (r : Req) -- DEV_RESET
  | ageReplan (r : Req) -- AGE_REPLAN
  | ageStatus (r : Req) -- AGE_STATUS
  | agePlanRead (r : Req) -- AGE_PLAN_READ
  | ageApply (r : Req) -- AGE_APPLY
  | psRead (r : Req) -- PS_READ
  | psProgram (r : Req) -- PS_PROGRAM
  | psErase (r : Req) -- PS_ERASE
  | psStatus (r : Req) -- PS_STATUS
  | forceUpdate (n : Nat) -- FORCE_UPDATE
  | linkRetrainStart -- LINK_RETRAIN_START
  | unknownFrameType (f : StrangeFrame) -- UNKNOWN_FRAME_TYPE
  | malformedBarRead (fn : Nat) -- MALFORMED_BAR_READ
  | faultManagerSelfTest (ok : Bool) -- FAULT_MANAGER_SELF_TEST
  | flashLogRecordDone (ok : Bool) -- FLASH_LOG_RECORD_DONE
  | powerFailRegionErased -- POWER_FAIL_REGION_ERASED
  | fallbackMoveTimeout -- FALLBACK_MOVE_TIMEOUT
  deriving DecidableEq, Repr

end Sys2Proof
end

