-- ==== Sys2Proof/Decode.lean ====
section
/-! DEFINITION. Commands by the bits of spec/opcode_table.json: the table gives no row a bit (each row's `fields` list is empty), so no
word spells a command (log 26). And the stove's own instruction words, by the formats of R280 and the opcodes of R281. -/

set_option Elab.async false

namespace Sys2Proof

/-- The command that a word spells by the table's bits: none, since no row has bits. -/
def decodeTableWord (_nbits _w : Nat) : Option Instr := none

/-! ### Words of a stove (R280, R281) -/

/-- Format R: opcode [31:26], a [25:21], b [20:16], c [15:11], x [10:0]. -/
def wordR (op a b c x : Nat) : Nat := op * 2 ^ 26 + a * 2 ^ 21 + b * 2 ^ 16 + c * 2 ^ 11 + x

/-- Format I: opcode [31:26], a [25:21], b [20:16], imm [15:0]. -/
def wordI (op a b imm : Nat) : Nat := op * 2 ^ 26 + a * 2 ^ 21 + b * 2 ^ 16 + imm

/-- The word of a stove instruction, fields without a use zero; none for other commands. LOOP_STEP, LCTL_HOLD and LCTL_RESUME are SRW
with their register, and share its word. -/
def stoveWord (i : Instr) : Option Nat :=
  match i with
  | .svNop _ => some (wordR 0x00 0 0 0 0)
  | .svAdd _ a b c => some (wordR 0x01 a b c 0)
  | .svSub _ a b c => some (wordR 0x02 a b c 0)
  | .svAdds _ a b c => some (wordR 0x03 a b c 0)
  | .svSubs _ a b c => some (wordR 0x04 a b c 0)
  | .svAnd _ a b c => some (wordR 0x05 a b c 0)
  | .svOr _ a b c => some (wordR 0x06 a b c 0)
  | .svXor _ a b c => some (wordR 0x07 a b c 0)
  | .svShl _ a b c => some (wordR 0x08 a b c 0)
  | .svShr _ a b c => some (wordR 0x09 a b c 0)
  | .svSra _ a b c => some (wordR 0x0A a b c 0)
  | .svMul _ a b c => some (wordR 0x0B a b c 0)
  | .svMulh _ a b c => some (wordR 0x0C a b c 0)
  | .svSin _ a imm => some (wordI 0x0D a 0 imm)
  | .svSseq _ a imm => some (wordI 0x0E a 0 imm)
  | .svStim _ a imm => some (wordI 0x0F a 0 imm)
  | .svAddi _ a b imm => some (wordI 0x10 a b imm)
  | .svAndi _ a b imm => some (wordI 0x11 a b imm)
  | .svOri _ a b imm => some (wordI 0x12 a b imm)
  | .svLui _ a imm => some (wordI 0x13 a 0 imm)
  | .svShli _ a b imm => some (wordI 0x14 a b imm)
  | .svShri _ a b imm => some (wordI 0x15 a b imm)
  | .svSrai _ a b imm => some (wordI 0x16 a b imm)
  | .svSrr _ a imm => some (wordI 0x17 a 0 imm)
  | .svLw _ a b imm => some (wordI 0x18 a b imm)
  | .svSw _ a b imm => some (wordI 0x19 a b imm)
  | .svBeq _ a b imm => some (wordI 0x1A a b imm)
  | .svBne _ a b imm => some (wordI 0x1B a b imm)
  | .svBlt _ a b imm => some (wordI 0x1C a b imm)
  | .svBge _ a b imm => some (wordI 0x1D a b imm)
  | .svJal _ a imm => some (wordI 0x1E a 0 imm)
  | .svJr _ a => some (wordR 0x1F a 0 0 0)
  | .svClamp _ a b c => some (wordR 0x20 a b c 0)
  | .svRlim _ a b c => some (wordR 0x21 a b c 0)
  | .svTint _ a b c => some (wordR 0x22 a b c 0)
  | .svCrc _ a b imm => some (wordI 0x23 a b imm)
  | .svMacc _ a b c => some (wordR 0x24 a b c 0)
  | .svMsub _ a b c => some (wordR 0x25 a b c 0)
  | .svAclr _ a => some (wordR 0x26 a 0 0 0)
  | .svAld _ a b c => some (wordR 0x27 a b c 0)
  | .svArd _ a b imm => some (wordI 0x28 a b imm)
  | .svSrw _ a imm => some (wordI 0x29 a 0 imm)
  | .svFout _ a imm => some (wordI 0x2A a 0 imm)
  | .svMsg _ a imm => some (wordI 0x2B a 0 imm)
  | .svQrec _ a imm => some (wordI 0x2C a 0 imm)
  | .svTripr _ a => some (wordR 0x2D a 0 0 0)
  | .svTrg _ => some (wordR 0x2E 0 0 0 0)
  | .svEvt _ a => some (wordR 0x2F a 0 0 0)
  | .svFadd _ a b c => some (wordR 0x30 a b c 0)
  | .svFsub _ a b c => some (wordR 0x31 a b c 0)
  | .svFmul _ a b c => some (wordR 0x32 a b c 0)
  | .svFma _ a b c => some (wordR 0x33 a b c 0)
  | .svFmin _ a b c => some (wordR 0x34 a b c 0)
  | .svFmax _ a b c => some (wordR 0x35 a b c 0)
  | .svFabs _ a b => some (wordR 0x36 a b 0 0)
  | .svFneg _ a b => some (wordR 0x37 a b 0 0)
  | .svFcmp _ a b c x => some (wordR 0x38 a b c (512 * x))
  | .svPsreq _ a => some (wordR 0x39 a 0 0 0)
  | .svFdiv _ a b c => some (wordR 0x3A a b c 0)
  | .svFsqrt _ a b => some (wordR 0x3B a b 0 0)
  | .svFcvtsw _ a b imm => some (wordI 0x3C a b imm)
  | .svFcvtws _ a b imm => some (wordI 0x3D a b imm)
  | .svIllegal _ op => some (wordR op 0 0 0 0)
  | .svEnd _ => some (wordR 0x3F 0 0 0 0)
  | .svLoopStep _ a _ => some (wordI 0x29 a 0 11)
  | .svLctlHold _ a _ => some (wordI 0x29 a 0 14)
  | .svLctlResume _ a _ => some (wordI 0x29 a 0 14)
  | _ => none

/-- The instruction of a word by its opcode; the one R281 does not list is illegal. -/
def stoveDecode (sv w : Nat) : Instr :=
  let a := w / 2 ^ 21 % 32
  let b := w / 2 ^ 16 % 32
  let c := w / 2 ^ 11 % 32
  let imm := w % 2 ^ 16
  match w / 2 ^ 26 % 64 with
  | 0x00 => .svNop sv
  | 0x01 => .svAdd sv a b c
  | 0x02 => .svSub sv a b c
  | 0x03 => .svAdds sv a b c
  | 0x04 => .svSubs sv a b c
  | 0x05 => .svAnd sv a b c
  | 0x06 => .svOr sv a b c
  | 0x07 => .svXor sv a b c
  | 0x08 => .svShl sv a b c
  | 0x09 => .svShr sv a b c
  | 0x0A => .svSra sv a b c
  | 0x0B => .svMul sv a b c
  | 0x0C => .svMulh sv a b c
  | 0x0D => .svSin sv a imm
  | 0x0E => .svSseq sv a imm
  | 0x0F => .svStim sv a imm
  | 0x10 => .svAddi sv a b imm
  | 0x11 => .svAndi sv a b imm
  | 0x12 => .svOri sv a b imm
  | 0x13 => .svLui sv a imm
  | 0x14 => .svShli sv a b imm
  | 0x15 => .svShri sv a b imm
  | 0x16 => .svSrai sv a b imm
  | 0x17 => .svSrr sv a imm
  | 0x18 => .svLw sv a b imm
  | 0x19 => .svSw sv a b imm
  | 0x1A => .svBeq sv a b imm
  | 0x1B => .svBne sv a b imm
  | 0x1C => .svBlt sv a b imm
  | 0x1D => .svBge sv a b imm
  | 0x1E => .svJal sv a imm
  | 0x1F => .svJr sv a
  | 0x20 => .svClamp sv a b c
  | 0x21 => .svRlim sv a b c
  | 0x22 => .svTint sv a b c
  | 0x23 => .svCrc sv a b imm
  | 0x24 => .svMacc sv a b c
  | 0x25 => .svMsub sv a b c
  | 0x26 => .svAclr sv a
  | 0x27 => .svAld sv a b c
  | 0x28 => .svArd sv a b imm
  | 0x29 => .svSrw sv a imm
  | 0x2A => .svFout sv a imm
  | 0x2B => .svMsg sv a imm
  | 0x2C => .svQrec sv a imm
  | 0x2D => .svTripr sv a
  | 0x2E => .svTrg sv
  | 0x2F => .svEvt sv a
  | 0x30 => .svFadd sv a b c
  | 0x31 => .svFsub sv a b c
  | 0x32 => .svFmul sv a b c
  | 0x33 => .svFma sv a b c
  | 0x34 => .svFmin sv a b c
  | 0x35 => .svFmax sv a b c
  | 0x36 => .svFabs sv a b
  | 0x37 => .svFneg sv a b
  | 0x38 => .svFcmp sv a b c (w / 512 % 4)
  | 0x39 => .svPsreq sv a
  | 0x3A => .svFdiv sv a b c
  | 0x3B => .svFsqrt sv a b
  | 0x3C => .svFcvtsw sv a b imm
  | 0x3D => .svFcvtws sv a b imm
  | 0x3F => .svEnd sv
  | op => .svIllegal sv op

end Sys2Proof
end

