-- ==== Sys2Proof/Config.lean ====
section
/-! DEFINITION. What an implementation or a single part fixes, and the free values: constants with no
body, so that no proof can lean on a value of theirs. -/

set_option Elab.async false

namespace Sys2Proof

/-- The source of every free value: the n-th value that the spec leaves open in a run, drawn with
the counter `State.fresh` (log 4). -/
opaque Config.freeVal : Nat → Nat

/-- ID_SERIAL of R610, burnt in fuses. -/
opaque Config.serial : Nat

/-- ID_STEP of R610, the silicon stepping. -/
opaque Config.stepping : Nat

/-- FUSE_MAP of R610. -/
opaque Config.fuseMap : Nat

/-- The 256-bit maker key of R472, burnt in fuses that no command reads. -/
opaque Config.makerKey : Nat

/-- The coefficients of the quadrature filter of R334 for odd distances, which the spec does not list (log 11). -/
opaque Config.hilbert : Nat → Int

/-- The coefficients of the stock banks of R219: preset, then tap; the spec does not list them (log 12). -/
opaque Config.stockCoef : Nat → Nat → Int

/-- The last unit of a non-native stage-A ratio (R188): input to a result within one unit (log 10). -/
opaque Config.stageALast : Nat → Int → Int

/-- The calibration row 0 that the factory burnt on a die: die, which of the three fuses of a bit, byte (R255, log 14). -/
opaque Config.factoryFuse : Nat → Nat → Nat → Nat

/-- The sequence of the 31-bit PRBS generator of a core: the seed of a pass and the place in the sequence; true is a negative sign. The
spec gives neither its polynomial nor how a sign is drawn (R243, log 42). -/
opaque Config.prbs : Nat → Nat → Bool

/-- What the mismatch of the two histograms of R247 says of the slope of the transfer at a bin boundary, with the weight results of the
pass applied, in parts of 2^32 of an LSB18: the counts for positive and for negative dither, the weights, the boundary. The spec gives no
formula (log 42). -/
opaque Config.densitySlope : List Nat → List Nat → List Int → Nat → Int

/-- The nominal result of MSB capacitor j in a weights segment (R245), in parts of 2^32 of an LSB18; the spec names it and
gives no value (log 42). -/
opaque Config.nominalWeight : Nat → Int

/-- What the loop filter of a core makes of a residue when it adds it, shaped, to the next conversion (R87), in LSB18; the residue that a
conversion leaves, by the residue it loaded and its input; the bound of a residue register (R95). The spec gives none of them (log 78). -/
opaque Config.shaped : Int → Int
opaque Config.residueAfter : Int → Int → Int
opaque Config.residueBound : Nat

/-- The sector of lead-die bank 1 that holds sector i of the flash-log ring; the spec gives the bank no layout (R597, log 79). -/
opaque Config.logSector : Nat → BitVec 6

end Sys2Proof
end

