-- ==== Sys2Proof/Machine/State.lean ====
section
/-! DEFINITION. The state of a KY9 node: every piece of state the spec names, as plain data, each field
with its value at reset as its default (log 2 names those the spec does not give), and State.reset. -/

set_option Elab.async false

namespace Sys2Proof.Machine


/-! ### Counters and tables -/

/-- A saturating count with its SAT bit (R590). -/
structure Cnt where
  n : Nat := 0
  sat : Bool := false
  deriving DecidableEq, Repr

/-- A sparse table by index: rising keys; an absent key reads as the default its reader gives. -/
abbrev Tab (α : Type) := List (Nat × α)

/-- The limiter of an event that is raised at most once in 10 ms (R395). -/
structure Limit where
  last : Option Nat := none
  deriving DecidableEq, Repr

/-- The completion statuses of R627. -/
inductive Status where
  | ok | rights | badParam | busy | notBlank | bankXip | loopClosed | budget | sealed | logFull
  | fenced | calDisagree | rowExhausted | notProven | timeout | combination
  deriving DecidableEq, Repr

/-! ### Host interface: functions, vectors, queues, streams (12, 13, 22) -/

/-- An event on its way to a queue (R395). -/
structure EventRec where
  time : Nat
  code : Nat
  node : Nat
  hearth : Nat
  subject : Nat
  held : Nat
  detail : Nat
  /-- The event queue of a Tirwin connection, in place of the default one (R502). -/
  dest : Option Nat := none
  deriving DecidableEq, Repr

/-- A log-queue copy waiting for its entry (R398): SOURCE, PART and the 48 B body. -/
structure LogCopy where
  time : Nat
  lseq : Nat
  source : Nat
  part : Nat
  body : Nat
  deriving DecidableEq, Repr

/-- One MSI-X vector with its moderation entry (R373). -/
structure Vec where
  addr : Nat := 0
  data : Nat := 0
  masked : Bool := true
  pendingBit : Bool := false
  causes : Nat := 0
  first : Nat := 0
  modTime : Nat := 0
  modCount : Nat := 0
  sent : Nat := 0
  deriving DecidableEq, Repr

/-- The admin block of a function (R366). -/
structure AdminBlock where
  cmdBase : Nat := 0
  cplBase : Nat := 0
  cmdLog2 : Nat := 6
  cplLog2 : Nat := 6
  en : Bool := false
  vec : Nat := 0
  run : Bool := false
  stopping : Bool := false
  err : Nat := 0
  deriving DecidableEq, Repr

/-- The root block of a function (R369). -/
structure Root where
  ctxBase : Nat := 0
  lmapRoot : Nat := 0
  en : Bool := false
  active : Bool := false
  flrBusy : Bool := false
  invCnt : Nat := 0
  deriving DecidableEq, Repr

/-- What the host sets in the configuration space of a function (R357, R359, R363, R373, R374): Memory Space and Bus Master; the BARs by
their offset, those of the VFs with the PF; MSI-X Enable and Function Mask; D3hot; Relaxed Ordering, 10-bit tags and the codes of payload,
read request and completion timeout; the status bits of AER. The defaults are those of the PCI Express specification (log 80). -/
structure CfgSpace where
  memory : Bool := false
  master : Bool := false
  bars : Tab Nat := []
  msixEn : Bool := false
  msixMask : Bool := false
  d3hot : Bool := false
  relax : Bool := true
  tag10 : Bool := false
  payload : Nat := 0
  readReq : Nat := 2
  timeout : Nat := 5
  aer : Nat := 0
  deriving DecidableEq, Repr

/-- A function: 0 is the PF, k + 1 is VFk (R361). -/
structure Fn where
  cfg : CfgSpace := {}
  admin : AdminBlock := {}
  root : Root := {}
  dbRej : Cnt := {}
  barErr : Cnt := {}
  timeLatch : Nat := 0
  faultLatch : Nat := 0
  evQid : Option Nat := none
  logQid : Option Nat := none
  evStage : List EventRec := []
  logStage : List LogCopy := []
  deriving DecidableEq, Repr

/-- A queue context (R379) with the device's own marks of it. -/
structure Queue where
  kind : Nat := 0
  int : Bool := false
  policy : Bool := false
  relax : Bool := false
  log2 : Nat := 6
  vec : Nat := 0
  prio : Nat := 0
  cplQid : Nat := 0
  ringBase : Nat := 0
  flush : Nat := 0
  pond : Nat := 0
  devIdx : Nat := 0
  devPhase : Bool := false
  live : Bool := false
  loss : Cnt := {}
  damp : Nat := 0
  err : Nat := 0
  hostIdx : Nat := 0
  hostPhase : Bool := false
  entryCnt : Nat := 0
  lastLoss : Nat := 0
  inHand : Nat := 0
  reserved : Nat := 0
  pinned : Bool := false
  cached : Bool := false
  dirty : Bool := false
  stopping : Bool := false
  keptKind : Option Nat := none
  deriving DecidableEq, Repr

/-- A sample or capture block (R108, R394). -/
structure Block where
  time : Nat
  seq : Nat
  /-- When it was completed in its pond. -/
  done : Nat
  step : Nat
  words : List Word
  deriving DecidableEq, Repr

/-- One stream of one queue kind: its binding, its open block and its pond share (R110, R405). -/
structure Share where
  qid : Option Nat := none
  openBlock : Option Block := none
  openAt : Nat := 0
  pond : List Block := []
  gapNext : Bool := false
  step : Nat := 0
  nextStep : Nat := 0
  deriving DecidableEq, Repr

/-- A block in a pond whose binding has ended: the queue it is for, the key of its stream, which share it was in (R110, R204, R415). -/
structure LeftBlock where
  qid : Nat
  key : Nat
  cap : Bool
  block : Block
  deriving DecidableEq, Repr

/-- A stream (tile, slot, kind, span): R109, R415. -/
structure Stream where
  seq : Nat := 0
  gapDue : Bool := false
  epochDue : Bool := false
  sample : Share := {}
  capture : Share := {}
  deriving DecidableEq, Repr

/-- A leaf translation of the lake-map TLB, most recent first (R402). -/
structure TlbEntry where
  fn : Nat
  base : Nat
  bits : Nat
  addr : Nat
  rd : Bool
  wr : Bool
  deriving DecidableEq, Repr

/-- A completion of a command (R391); qid is the command queue, `to` the completion queue. -/
structure Cpl where
  cid : Nat
  opcode : Nat
  status : Status
  node : Nat
  qid : Nat
  dest : Nat
  time : Nat
  result : Nat
  /-- SQ_HEAD of a command queue that has ended since. -/
  head : Option Nat := none
  deriving DecidableEq, Repr

/-- A device read of host memory that is outstanding: the queue that needs it and the ring index (R389, R401). -/
structure HostRead where
  qid : Nat
  idx : Nat
  deriving DecidableEq, Repr

/-- What the device has written to the link: the model's own record of its outputs (log 8). -/
inductive HostWrite where
  | data (fn addr len val : Nat)
  /-- `relaxed`: with the Relaxed Ordering attribute (R357, R379). -/
  | entry (qid idx addr len val : Nat) (relaxed : Bool)
  | context (qid val : Nat)
  | message (fn vec : Nat)
  deriving DecidableEq, Repr

/-- A command that has started and not ended: its opcode, the unit it runs on and its request. -/
structure LongOp where
  opcode : Nat
  key : Nat
  req : Req
  names : List (Nat × Nat) := []
  deadline : Nat := 0
  note : Nat := 0
  deriving DecidableEq, Repr

/-- An invalidation that has started (R403). -/
structure Inval where
  fn : Nat
  lo : Nat
  hi : Nat
  viaRoot : Bool
  deriving DecidableEq, Repr

/-- Who a command acts as: the rights (0 operator, 1 installer, 2 maker), the session's role and its serial number (R466). -/
structure Who where
  right : Nat
  sess : Nat
  serial : Nat
  deriving DecidableEq, Repr

/-- The host interface of the node. -/
structure HostIf where
  linkUp : Bool := false
  retraining : Bool := false
  width : Nat := 0
  rate : Nat := 0
  targetRate : Nat := 5
  retrain : Cnt := {}
  perst : Bool := true
  numVfs : Nat := 0
  vfEnable : Bool := false
  fns : Tab Fn := []
  vecs : Tab Vec := []
  queues : Tab Queue := []
  ctxOrder : List Nat := []
  tlb : List TlbEntry := []
  reads : List HostRead := []
  fetched : List (Nat × BitVec 512) := []
  /-- The rights that fetched commands that have not ended held when they were fetched: queue and entry (R467). -/
  rights : List ((Nat × BitVec 512) × Option Who) := []
  cplWait : List Cpl := []
  ended : List Cpl := []
  /-- Commands that wait for an earlier one that names the same resource (R390), with what they name. -/
  waiting : List (Req × List (Nat × Nat)) := []
  ops : List LongOp := []
  invals : List Inval := []
  streams : Tab Stream := []
  /-- Consecutive ticks without a backed-up capture stream, by path: die d for its flue bridge, 8 for PCIe (R411). -/
  quiet : Tab Nat := []
  lastDamp : Nat := 0
  limits : Tab Limit := []
  /-- Events counted but not raised, by code and subject, since the last one raised (R395). -/
  helds : Tab Nat := []
  /-- Records of laws that wait for an entry: queue and the 64 B (R291). -/
  recWait : List (Nat × Nat) := []
  leftover : List LeftBlock := []
  /-- Bytes served to each function in the present round of the shares of PCIe (R464). -/
  served : Tab Nat := []
  out : List HostWrite := []
  deriving DecidableEq, Repr

/-! ### Hearths, roles and the change log (15) -/

/-- The seal state of a hearth (R473). -/
inductive Seal where
  | never | intact | broken
  deriving DecidableEq, Repr

/-- A session (R466, R467). -/
structure Session where
  handle : Nat
  fn : Nat
  lastUse : Nat
  serial : Nat
  noPassword : Bool
  deriving DecidableEq, Repr

/-- The failure count and lockout of a role (R471, R472). -/
structure Lockout where
  fails : Nat := 0
  leftAtWrite : Nat := 0
  until_ : Option Nat := none
  deriving DecidableEq, Repr

/-- The challenge outstanding (R472, R487). -/
structure Challenge where
  record : Nat
  id : Nat
  expires : Nat
  deriving DecidableEq, Repr

/-- The trust record of the node (R458, R460). -/
structure Trust where
  tileOwner : Tab Nat := []
  forcePorts : List Nat := []
  grants : Tab Nat := []
  stoveOwner : Tab Nat := []
  qids : Tab (Nat × Nat) := [(0, (18, 1006)), (1, (1024, 261120))]
  pcieW : Tab Nat := []
  ringW : Tab Nat := []
  seals : Tab Seal := []
  lastBreak : Tab Nat := []
  protHearth : Option Nat := none
  password : Option (Nat × Nat) := none
  legalCnt : Nat := 0
  unlogged : Nat := 0
  archiveCnt : Nat := 0
  live : List Nat := []
  /-- Live hearths whose seal image failed its CRC: their resources stay dormant (R476). -/
  dormant : List Nat := []
  deriving DecidableEq, Repr

/-- The sessions and what guards their opening (R466 to R472). -/
structure Roles where
  installer : Option Session := none
  maker : Option Session := none
  sessionSeq : Nat := 0
  challengeId : Nat := 0
  challenge : Option Challenge := none
  instLock : Lockout := {}
  makerLock : Lockout := {}
  deriving DecidableEq, Repr

/-- What a staged change-log entry is for (R479). -/
inductive ClogFor where
  | command (r : Req)
  | ended (r : Req) (status : Status) (result : Nat)
  | device
  | resetGo
  | archive (r : Req)
  deriving DecidableEq, Repr

/-- A change-log entry in staging: everything of R478 but LSEQ and PREV. -/
structure ClogStaged where
  action : Nat
  status : Status
  role : Nat
  time : Nat
  node : Nat
  func : Nat
  serial : Nat
  detail : Nat
  names : List (Nat × Nat) := []
  why : ClogFor
  deriving DecidableEq, Repr

/-- The change log (R477 to R482): the entries in use, oldest first, each the 64 B of R478. -/
structure Clog where
  entries : List (BitVec 512) := []
  nextLseq : Nat := 0
  head : Nat := 0
  area : Nat := 0
  erases : Tab Nat := []
  staging : List ClogStaged := []
  deriving DecidableEq, Repr

/-! ### Faults and event logs (17, 20) -/

/-- A fault record (R526); `handling` until its reaction is in effect, `shadowEnd` while the shadow runs. -/
structure FaultRec where
  det : Nat := 0
  reaction : Nat := 0
  cls : Nat := 0
  injected : Bool := false
  escalated : Bool := false
  isOpen : Bool := false
  scheme : Bool := false
  overflow : Bool := false
  merges : Cnt := {}
  inst : Nat := 0
  time : Nat := 0
  reactTime : Nat := 0
  secDet : Nat := 0
  secInst : Nat := 0
  hearth : Option Nat := none
  events : Nat := 0
  lseq : Nat := 0
  clearTime : Nat := 0
  detail : Nat := 0
  handling : Bool := false
  shadowEnd : Option Nat := none
  merged : List (Nat × Nat) := []
  used : Bool := false
  deriving DecidableEq, Repr

/-- A source that has had an event within the last W (R520). -/
structure Source where
  det : Nat
  inst : Nat
  times : List Nat
  deriving DecidableEq, Repr

/-- An armed injection (R536, R537). -/
structure Injection where
  det : Nat
  inst : Nat
  left : Nat
  react : Bool
  deadline : Nat
  deriving DecidableEq, Repr

/-- The fault manager (R513 to R547). -/
structure FaultMgr where
  scheme : Bool := true
  n : Nat := 8
  w : Nat := 1000
  reactions : Tab Nat := []
  sources : List Source := []
  /-- Sources of CORRECTED detections entered in the event log, with the time of the last entry (R520). -/
  entered : List ((Nat × Nat) × Nat) := []
  recs : Tab FaultRec := []
  order : List Nat := []
  levels : List (Nat × Nat) := []
  fencedCores : List Nat := []
  fencedTiles : List Nat := []
  fencedGroups : List Nat := []
  fencedStoves : List Nat := []
  fencedDies : List Nat := []
  fencedHearths : List Nat := []
  fatal : Bool := false
  fatalDies : List Nat := []
  fatalDet : Nat := 0
  fatalDie : Nat := 0
  changeCnt : Nat := 0
  opened : Nat := 0
  secondaries : Nat := 0
  lastRid : Nat := 0
  lastDet : Nat := 0
  lastReaction : Nat := 0
  lastTime : Nat := 0
  detCnt : Tab Cnt := []
  injection : Option Injection := none
  selfTest : Bool := false
  /-- Reports on their way to the fault manager: detector, instance, detail (R516). -/
  reports : List (Nat × Nat × Nat) := []
  deriving DecidableEq, Repr

/-- An event-log record (R538). -/
structure LogRec where
  time : Nat
  kind : Nat
  node : Nat
  hearth : Nat
  subject : Nat
  detail : Nat
  lseq : Nat := 0
  noFlash : Bool := false
  anyToken : Bool := false
  rid : Option Nat := none
  deriving DecidableEq, Repr

/-- The event logs (R539, R540, R595 to R597). -/
structure Logs where
  queue : List LogRec := []
  ram : List LogRec := []
  lseq : Nat := 0
  ramSkip : Cnt := {}
  flash : List LogRec := []
  flashPending : List LogRec := []
  flashNext : Nat := 0
  flashWritten : Nat := 0
  tokens : Nat := 64
  lastRefill : Nat := 0
  skip : Cnt := {}
  overwrites : Cnt := {}
  erases : Tab Nat := []
  /-- The operations of lead-die bank 1 that wait, in order of arrival (R299): 0 a flash-log record, 1 a change-log entry, 2 a metering
  record, 3 the erase of a power-fail region. -/
  bank1 : List Nat := []
  deriving DecidableEq, Repr

/-! ### Node: supplies, reset, kindling, draught (00, 01, 18) -/

/-- The kindling of one die (R559, R561, R562): its start, the next unit of its schedule, its queue. -/
structure KindleDie where
  start : Option Nat := none
  nextUnit : Nat := 0
  kindled : Bool := false
  bridgeUp : Bool := false
  resend : Bool := false
  lastTransfer : Nat := 0
  triadSettled : Bool := false
  queue : List Nat := []
  lastSlot : Option Nat := none
  deriving DecidableEq, Repr

/-- The stage of the power-fail sequence (R347, R556). -/
inductive PfStage where
  | none | programming (afterReset : Option Nat) | readBack (afterReset : Option Nat)
  deriving DecidableEq, Repr

/-- The node as a whole (R549 to R568, R33 to R40). -/
structure Node where
  dies : Nat := 8
  role : Nat := 0
  inReset : Bool := true
  cause : Nat := 1
  rail : Nat := 0
  bootCnt : Nat := 1
  badRails : List Nat := []
  /-- The rails out of their operating range at each die, as (die, rail) (R551). -/
  badAt : List (Nat × Nat) := []
  rstLow : Bool := false
  pfStage : PfStage := .none
  va5Off : Bool := false
  /-- Device time in sixty-fourths of a nanosecond (R39). -/
  clock : Nat := 0
  /-- Sixty-fourths of a nanosecond since reset was left (R573): unlike device time it never steps. -/
  up : Nat := 0
  draughtLocked : Bool := false
  holdover : Bool := false
  dclkPresent : Bool := false
  everLocked : Bool := false
  kindle : Tab KindleDie := []
  pcieLanes : Nat := 0
  ringLanes : Nat := 0
  trustLoaded : Bool := false
  meterRestored : Bool := false
  ready : Bool := false
  resetArm : Option Nat := none
  /-- Dies whose tiles are derated (R577) and the frequency steps in force by die of the filter engine (R27, R202). -/
  derated : List Nat := []
  engineStep : Tab Nat := []
  stoveStep : Tab Nat := []
  /-- Island trim: frequency above the step frequency, in parts per million (R29, log 18). -/
  trim : Tab Nat := []
  /-- The last die temperature taken, in 0.01 K (log 16). -/
  temp : Tab Int := []
  /-- When the fine values of a die were last adjusted, and when the oscillators were last trimmed (R242, R29). -/
  compAt : Tab Nat := []
  trimAt : Nat := 0
  deriving DecidableEq, Repr

/-! ### Oblyn frames (14): shared part -/

/-- The frame types of R424. -/
inductive FrameType where
  | tirwin | linkFault | time | delayReq | delayResp | sync | trigger | plan
  | prompt | message | packed | cmd | cpl | event | ack | number | capture | log
  /-- A frame of no known type whose CRC failed, on its way through this node (R426). -/
  | damaged
  deriving DecidableEq, Repr

/-- A frame this node has handed to its ring ports: the model's own record of its outputs (log 8).
`dst` none is BCAST; body is the content after the header, little-endian; `ring` is 0 for ring A, 1 for ring B, 2 for both (R422, R425).
`at_` is the instant it was handed over, `passing` says that this node forwards it (R427), `inverted` that it leaves with its CRC
inverted (R426). -/
structure FrameOut where
  type : FrameType
  dst : Option Nat
  aux : Nat
  body : Nat
  ring : Nat := 0
  hops : Nat := 0
  fseq : Nat := 0
  at_ : Nat := 0
  passing : Bool := false
  inverted : Bool := false
  /-- SRC of a frame of another node that passes. -/
  from_ : Option Nat := none
  deriving DecidableEq, Repr

/-- A COMMAND-class frame sent and not acknowledged (R433). -/
structure Unacked where
  frame : FrameOut
  sentAt : Nat
  deriving DecidableEq, Repr

/-- A command forwarded to a worker and not completed (R432, R433). -/
structure Forwarded where
  tag : Nat
  node : Nat
  req : Req
  deadline : Nat
  /-- Of a RING_CONFIG: the lane rates it has changed, EAST in bit 0, WEST in bit 1 (R15). -/
  note : Nat := 0
  /-- The queues it names, and for a QUEUE_BIND the admission (R390). -/
  names : List (Nat × Nat) := []
  deriving DecidableEq, Repr


/-- The ring state of a worker (R445, R455). -/
inductive RingState where
  | listening | inserted | numbered | locked | unlocked
  deriving DecidableEq, Repr

/-- Block lock of a receive lane: 64 valid sync headers lock it, 16 invalid ones among 64 lose it (R420). -/
structure LaneLock where
  locked : Bool := false
  seen : Nat := 0
  bad : Nat := 0
  deriving DecidableEq, Repr

/-- One Oblyn port (R421, R437, R455): link 0 down, 1 training, 2 up; times in sixty-fourths of a nanosecond. -/
structure RingPort where
  link : Nat := 0
  rate : Bool := false
  asym : Int := 0
  crc : Cnt := {}
  /-- When frames failed their CRC within the last 1 ms, newest first, and the four receive lanes (R420, R421). -/
  crcTimes : List Nat := []
  lanes : List LaneLock := []
  samples : List Int := []
  delay : Int := 0
  lastTime : Option Nat := none
  hopsDone : Nat := 0
  reqSent : Option Nat := none
  clockLost : Bool := false
  deriving DecidableEq, Repr

/-- An entry of the manager's node table (R455, R446). -/
structure RingNode where
  serial : Nat := 0
  position : Nat := 0
  state : Nat := 0
  present : Bool := false
  bootCnt : Nat := 0
  takenOut : Bool := false
  /-- The lane rate of its ports, true 10 Gbit/s, as the manager set them (R419, R454). -/
  rateE : Bool := false
  rateW : Bool := false
  deriving DecidableEq, Repr

/-- What a plan is issued for: a fault, a link that heals, a link left for a join offer and the return to it (R447), a node taken out
(R456), a change of lane rate of a node's ports (R454, R579). -/
inductive PlanWhy where
  | reroute | heal | leave | back
  | takeOut (node : Nat)
  | rate (node : Nat) (east west : Option Bool) (fallback : Bool)
  deriving DecidableEq, Repr

/-- A PLAN with its switch time (R448, R450): the nodes in ring-A order, the links not to be used, and the link it is about. -/
structure RingPlan where
  seq : Nat
  switchAt : Nat
  order : List Nat
  avoid : List (Nat × Nat)
  link : Nat × Nat
  why : PlanWhy
  holdEnd : Option Nat := none
  deriving DecidableEq, Repr

/-- A join offer (R447). -/
structure JoinOffer where
  a : Nat
  b : Nat
  joinAt : Nat
  begun : Bool
  deriving DecidableEq, Repr

/-- The ring state of the node (R445, R455). -/
structure Ring where
  nodeNo : Nat := 0
  state : RingState := .listening
  bypassClosed : Bool := true
  activeEast : Bool := false
  lockRun : Nat := 0
  unlockRun : Nat := 0
  /-- Device time was loaded at the first lock (R41), and it was stepped since the last loss of lock (R441). -/
  timeLoaded : Bool := false
  stepped : Bool := false
  east : RingPort := {}
  west : RingPort := {}
  timeErr : Int := 0
  downCnt : Cnt := {}
  rerouteCnt : Cnt := {}
  resendCnt : Cnt := {}
  lastDown : Nat := 0
  view : Nat := 0
  planSeq : Nat := 0
  plan : Option RingPlan := none
  /-- The plan in force: ring-A order and links not used; and the links known to be down. -/
  order : List Nat := [0]
  avoid : List (Nat × Nat) := []
  downLinks : List (Nat × Nat) := []
  /-- Moves that wait for the one in progress. -/
  movesDue : List ((Nat × Nat) × PlanWhy) := []
  joinScan : Bool := false
  joinPeriod : Nat := 60
  commandWait : Nat := 10
  join : Option JoinOffer := none
  lastOffer : Nat := 0
  lastScan : Nat := 0
  scanNext : Nat := 0
  /-- What a LISTENING worker hears of the link it sits on (R447). -/
  lastA : Option Nat := none
  lastB : Option Nat := none
  offersDue : List Nat := []
  table : Tab RingNode := []
  fseq : Tab Nat := []
  tag : Nat := 0
  unacked : List Unacked := []
  forwarded : List Forwarded := []
  seen : Tab (List Nat) := []
  answered : List (Nat × Nat × FrameOut) := []
  seenBcast : List (Nat × Nat) := []
  /-- Streams that travel PROMPT, with the node whose stove reads them (R429, log 31). -/
  prompts : List (Nat × Nat) := []
  /-- Draught edges between two words of a stream of another node: on a worker as the manager has told it; on the manager what it has
  told which node (log 19). -/
  spacings : Tab Nat := []
  told : List ((Nat × Nat) × Nat) := []
  /-- The LSEQ expected next of the log copies of each source, at 2 x node, or 2 x node + 1 for its change log (R434). -/
  logNext : Tab Nat := []
  packing : List Segment := []
  packingSince : Option Nat := none
  expect : Tab Nat := []
  held : List (Bool × Segment) := []
  reported : List Nat := []
  timeSent : Option Nat := none
  insertedAt : Option Nat := none
  out : List FrameOut := []
  deriving DecidableEq, Repr

/-! ### Front end, core, sequencer and comparators, filters (02, 03, 05, 06, 07) -/

/-- One pin with an OVP switch (R70 to R78): an event runs from the crossing to the switch's closing; `ord` is its place in the order
in which the pins of its group opened (R75). -/
structure Pin where
  inEvent : Bool := false
  high : Bool := false
  ord : Nat := 0
  openAt : Nat := 0
  closeAt : Nat := 0
  cmx : Bool := false
  cnt : Cnt := {}
  cmxCnt : Cnt := {}
  deriving DecidableEq, Repr

/-- The front end of a tile (R81, R84). -/
structure FrontEnd where
  chop : Nat := 0
  refsel : Nat := 0
  cmxEv : Bool := false
  ovpEv : Bool := true
  cmxCnt : Cnt := {}
  lastOpen : Nat := 0
  lastClose : Nat := 0
  deriving DecidableEq, Repr

/-- An aux position of a group (R82). -/
structure AuxPos where
  owner : Nat := 0
  valid : Bool := true
  ovpEv : Bool := true
  cmxEv : Bool := false
  deriving DecidableEq, Repr

/-- The front end of a group: pairing, positions, the pins now in an event in order of opening, and the window of DIS
in sixty-fourths of a nanosecond (R76). -/
structure GroupFe where
  auxPair : Nat := 0
  aux : Tab AuxPos := []
  openPins : List Nat := []
  ovpSeq : Nat := 0
  disFrom : Nat := 0
  disUntil : Nat := 0
  deriving DecidableEq, Repr

/-- What a core keeps for a slot (R87, R88, R96, R99, R105): the residue register of its bank of 32; recovery 0 is clean, 1 to 23 the
recovery sample reached. -/
structure SlotState where
  residue : Int := 0
  recov : Nat := 0
  starting : Bool := false
  inOvr : Bool := false
  /-- The last word delivered carried OVR (R99). -/
  outOvr : Bool := false
  swapped : Bool := false
  lastCode : Int := 0
  lost : Bool := false
  deriving DecidableEq, Repr

/-- The core of a tile (R113). -/
structure Core where
  slots : Tab SlotState := []
  ovr : Cnt := {}
  late : Cnt := {}
  lateTimes : List Nat := []
  lastOvr : Nat := 0
  lastClean : Nat := 0
  convCnt : Nat := 0
  /-- Until when a core that gave its calibration up delivers no word (R266). -/
  resumeAt : Nat := 0
  deriving DecidableEq, Repr

/-- The modes of the sequencer (R158). -/
inductive SeqMode where
  | static | scan | burst | triggered
  deriving DecidableEq, Repr

/-- A commit that awaits its effective edge (R167). -/
structure SeqCommit where
  list : List Nat
  mode : SeqMode
  passes : Nat
  trigSrc : Nat
  trigArg : Nat
  sinceEdge : Nat
  deriving DecidableEq, Repr

/-- The sequencer of a tile (R154 to R168): descriptors as R154 lays them out; `next` is the edge of the next
conversion while it runs. -/
structure Seq where
  active : List Nat := [0x00110010]
  shadow : List Nat := 0x00110010 :: List.replicate 31 0
  mode : SeqMode := .static
  passes : Nat := 1
  trigSrc : Nat := 0
  trigArg : Nat := 0
  commit : Option SeqCommit := none
  slot : Nat := 0
  rep : Nat := 0
  pass : Nat := 0
  next : Option Nat := none
  ended : Bool := false
  /-- Sequencer edges to the next conversion where a change of mode stopped the sequencer (R169); the first edge after a run (R167). -/
  rest : Option Nat := none
  idleFrom : Nat := 0
  armed : Bool := false
  armEdge : Nat := 0
  trigger : Option Nat := none
  /-- What the pending trigger fires at the first sequencer edge at or after, in sixty-fourths, and whether that is a device time that the
  trigger named (R163). -/
  trigAt : Nat := 0
  trigTimed : Bool := false
  trigCnt : Cnt := {}
  trigMiss : Cnt := {}
  lateTrig : Cnt := {}
  lastTrig : Nat := 0
  deriving DecidableEq, Repr

/-- The states of a trip comparator (R171). -/
inductive TcState where
  | disabled | watching | counting | asserted
  deriving DecidableEq, Repr

/-- A trip comparator (R171 to R183). -/
structure Tc where
  state : TcState := .disabled
  latch : Bool := false
  disHold : Bool := false
  slot : Nat := 0
  hi : Int := 131071
  lo : Int := -131072
  hyst : Nat := 0
  persist : Nat := 1
  release : Nat := 1
  actions : Nat := 0
  stove : Nat := 0
  count : Nat := 0
  releaseRun : Nat := 0
  resetPending : Bool := false
  hits : Cnt := {}
  last : Nat := 0
  word : Word := 0
  /-- A word failed its parity here: the next accepted one carries GAP (R104, R172). -/
  gapDue : Bool := false
  deriving DecidableEq, Repr

/-- A coefficient bank: the stored half (R191) and its UNNORMED mark (R210). -/
structure Bank where
  coefs : List Int := [4194304]
  unnormed : Bool := false
  deriving DecidableEq, Repr

/-- A chain context of one slot (R184, R222 to R229): conversions since the fresh start, the grid count of a
burst, the stage-A registers, the delay line (newest first), for each of OVR, UNS, STL, DIS and SPR the
conversion that last carried it, the DC estimate in 2^-24 LSB24. -/
structure Ctx where
  n : Nat := 0
  i1 : Int := 0
  i2 : Int := 0
  i3 : Int := 0
  i4 : Int := 0
  z1 : Int := 0
  z2 : Int := 0
  z3 : Int := 0
  z4 : Int := 0
  delay : List Int := []
  lastOvr : Option Nat := none
  lastUns : Option Nat := none
  lastStl : Option Nat := none
  lastDis : Option Nat := none
  lastSpr : Option Nat := none
  started : Bool := false
  gapOut : Bool := false
  clamped : Bool := false
  est : Int := 0
  settle : Nat := 0
  /-- Outputs of the active bank, and of the bank of a pending swap, still to carry UNS (R223). -/
  swapUns : Nat := 0
  swapNext : Nat := 0
  lastCode : Int := 0
  deriving DecidableEq, Repr

/-- A chain of a tile (R207, R211, R226, R237). -/
structure Chain where
  da : Nat := 1
  rbLog2 : Nat := 0
  bypassB : Bool := true
  ntaps : Nat := 1
  fclampEv : Bool := false
  govfEv : Bool := true
  active : Bank := {}
  shadow : Bank := {}
  shadowAdmitted : Bool := true
  swap : Option Nat := none
  swapGo : Bool := false
  fclamp : Cnt := {}
  govf : Cnt := {}
  lastGovf : Nat := 0
  dcbEnable : Bool := false
  dcbFreeze : Bool := false
  dcbUns : Bool := true
  dcbK : Nat := 16
  ctx : Tab Ctx := []
  deriving DecidableEq, Repr

/-- A stage-B job released and not complete (R199), with what its output needs: its sequence number and GAP are those of its place in
the stream (R109, R224); `ends`: the block closes after it (R110). -/
structure Job where
  tile : Nat
  chain : Nat
  slot : Nat
  edge : Nat
  time : Nat
  n : Nat
  xs : List Int
  flags : Nat
  seq : Nat := 0
  gap : Bool := false
  ends : Bool := false
  deriving DecidableEq, Repr

/-- A sequencer trigger on its way to a tile (R163): its source, and the time it counts from in sixty-fourths. -/
structure TrigMsg where
  tile : Nat
  src : Nat
  at64 : Nat
  deriving DecidableEq, Repr

/-- A SYNC that is scheduled (R231, R233): reference edge, act edge and act time, scope, the function to tell. -/
structure PendingSync where
  refEdge : Nat
  actEdge : Nat
  actTime : Nat
  ring : Bool
  fn : Option Nat
  deriving DecidableEq, Repr

/-- The SYNC state of the node (R239, R214). -/
structure SyncState where
  eRef : Nat := 0
  armed : Bool := false
  scope : Bool := false
  oneShot : Bool := false
  lead : Nat := 100
  pending : Option PendingSync := none
  miss : Cnt := {}
  lastRef : Nat := 0
  lastAct : Nat := 0
  /-- SYNC_DONE events due: when, the function to tell, the nodes the SYNC was for (R234). -/
  dones : List (Nat × Option Nat × Nat) := []
  deriving DecidableEq, Repr

/-- A word on its way to an input port of a stove (R30, R104, R287): the stream it comes from, and since when it asks the fabric of the
stove's die for service (R32). -/
structure FabricWord where
  stove : Nat
  port : Nat
  src : Nat
  since : Nat
  word : Word
  seq : Nat
  time : Nat
  deriving DecidableEq, Repr

/-! ### Force (04) -/

/-- The tile modes of R117. -/
inductive TileMode where
  | off | acq | force | forceSense
  deriving DecidableEq, Repr

/-- Where the force output stands: R134, R143, R144. -/
inductive ForcePhase where
  | none | measuring | normal | limit | foldback | hiz | latched | safe | fenceLost
  deriving DecidableEq, Repr

/-- The force side of a tile (R116 to R153). Position in 1/(2^15 x 10^8) V, rate in 1/(64 x 10^5) V/us (log 9). -/
structure Force where
  mode : TileMode := .off
  range : Nat := 0
  slew : Bool := false
  init : Nat := 0
  safeAction : Nat := 0
  writerStove : Bool := false
  stove : Nat := 0
  vmax : Nat := 1000
  acc : Nat := 1000
  initTarget : Word := 0
  safeTarget : Word := 0
  limitEv : Bool := true
  foldEv : Bool := true
  contEv : Bool := true
  pos : Int := 0
  v : Int := 0
  /-- The latest target taken, and those received and not taken yet, oldest first, with their arrival (R126, R152). -/
  target : Word := 0
  inbox : List (Nat × Word) := []
  /-- When the path entered force (R122). -/
  enteredAt : Nat := 0
  phase : ForcePhase := .none
  limitStart : Nat := 0
  foldAt : Nat := 0
  hizAt : Nat := 0
  closedAt : Option Nat := none
  cleanSince : Option Nat := none
  retry : Nat := 0
  contention : Bool := false
  ramp : Bool := false
  rampTo : TileMode := .off
  hold : Bool := false
  /-- The safe action in force while `hold` is set (R143). -/
  held : Nat := 0
  updEdge : Nat := 0
  limitCnt : Cnt := {}
  foldCnt : Cnt := {}
  rejCnt : Cnt := {}
  latchCnt : Cnt := {}
  lastLimit : Nat := 0
  lastHiz : Nat := 0
  deriving DecidableEq, Repr

/-- A FORCE_LOOPBACK test in progress, by its forcing tile (R146, R153): the settings it puts aside, its first step, its present level. -/
structure Loopback where
  range : Nat
  slew : Bool
  start : Nat
  levelAt : Nat
  errs : List Int
  deriving DecidableEq, Repr

/-- What is accepted and takes effect at the next draught edge: FE_CONFIG, FE_GROUP_CONFIG (R86), a change of tile mode with its
RAMP_DOWN (R121, R123). -/
inductive EdgeAct where
  | fe (tile chop refsel : Nat) (cmxEv ovpEv : Bool)
  | feGroup (group auxPair : Nat) (aux : Tab AuxPos)
  | mode (tile : Nat) (next : TileMode) (ramp : Bool)
  deriving DecidableEq, Repr

/-! ### Calibration (08) -/

/-- The trims of a core (R240): codes in two's complement, as integers; the fine ones by gain code. -/
structure Trims where
  offset : Int := 0
  gain : Int := 0
  weights : List Int := [0, 0, 0, 0, 0, 0]
  pga : List Int := [0, 0, 0, 0, 0, 0, 0, 0]
  fineOffset : List Int := [0, 0, 0, 0, 0, 0, 0, 0]
  fineGain : List Int := [0, 0, 0, 0, 0, 0, 0, 0]
  forceOffset : Int := 0
  forceGain : Int := 0
  deriving DecidableEq, Repr

/-- The results of one calibration pass (R245), exact: in parts of 2^32 of their units. -/
structure PassResult where
  triad : Nat
  /-- The source code of the input the segments after the triad check were taken on (R244). -/
  source : Nat
  weights : List Int
  coreGain : Int
  offsets : List Int
  ratios : List Int
  /-- Force buffer offset in uV and gain in ppm (R141). -/
  forceOffset : Int
  forceGain : Int
  valid : Bool
  cause : Nat
  deriving DecidableEq, Repr

/-- Why a core calibrates (R248, R253, R263, R271). -/
inductive CalWhy where
  | powerUp | rolling | onDemand | newRow | cleared
  deriving DecidableEq, Repr

/-- What CAL_CONFIG says of a step, as it stood when the step began (R270). -/
structure CalSet where
  failSubst : Bool := false
  doneEv : Bool := true
  failEv : Bool := true
  handoverEv : Bool := true
  deriving DecidableEq, Repr

/-- A calibration of a core in progress. -/
structure CalRun where
  why : CalWhy
  attempt : Nat := 1
  coarse : Bool := false
  passes : List PassResult := []
  before : Trims
  was : Nat := 0
  inPlace : Bool := false
  startedAt : Nat := 0
  /-- Operating time at which the present pass, or the coarse search, began (R113). -/
  startUp : Nat := 0
  /-- The seed of the present pass (R243, R248). -/
  seed : Nat := 0
  set : CalSet := {}
  deriving DecidableEq, Repr

/-- What the device keeps of a core's calibration (R272). -/
structure CalCore where
  trims : Trims := {}
  base : Trims := {}
  state : Nat := 0
  attempts : Nat := 0
  cause : Nat := 0
  failCnt : Cnt := {}
  retryCnt : Cnt := {}
  mismatchCnt : Cnt := {}
  staleCnt : Cnt := {}
  headroom : Nat := 0
  lastCal : Nat := 0
  calTemp : Int := 0
  /-- The temperature the fine values refer to (R242). -/
  refTemp : Int := 0
  diffOffset : Nat := 0
  diffGain : Nat := 0
  diffWeight : Nat := 0
  rowPending : Bool := false
  stale : Bool := false
  queued : Bool := false
  run : Option CalRun := none
  handFails : Nat := 0
  /-- The seed of the last pass: the next one differs (R248). -/
  lastSeed : Nat := 0
  /-- FAIL_SUBST as it stood for the step in which the core entered CAL_FAIL last (R250, R270). -/
  failSubst : Bool := false
  deriving DecidableEq, Repr

/-- What the reserve core of a group is doing (R262 to R266). -/
inductive ReserveUse where
  | free
  | tracking (tile : Nat)
  | covering (tile : Nat)
  | handingBack (tile : Nat)
  | substituting (tile : Nat)
  | calibrating
  deriving DecidableEq, Repr

/-- Why the reserve was given to its tile, or a demand that waits for it (R263). -/
inductive DemandKind where
  | fault | onDemand | newRow | rolling | manual
  deriving DecidableEq, Repr

/-- The calibration side of a group (R262 to R270). -/
structure GroupCal where
  rollPeriod : Nat := 300
  tempStep : Nat := 10
  failSubst : Bool := false
  doneEv : Bool := true
  failEv : Bool := true
  handoverEv : Bool := true
  use : ReserveUse := .free
  purpose : DemandKind := .rolling
  started : Nat := 0
  /-- The configuration of the step in progress (R270). -/
  stepSet : CalSet := {}
  tracked : Tab Nat := []
  diffs : Tab (List Int) := []
  rotation : Nat := 0
  nextRoll : Nat := 0
  demands : List (DemandKind × Nat) := []
  deriving DecidableEq, Repr

/-- A byte of a calibration row: each bit stored as three fuses (R255). -/
structure FuseByte where
  a : Byte := 0
  b : Byte := 0
  c : Byte := 0
  deriving DecidableEq, Repr

/-- The fuse array of a die (R255 to R261): the rows burnt since the factory, which rows are attempted and verified, whether the row in
force passed its check, a burn in progress with its image. -/
structure Rows where
  fuses : Tab (List FuseByte) := []
  attempted : List Nat := [0]
  verified : List Nat := [0]
  rowOk : Bool := true
  burning : Option (Nat × List Byte) := none
  deriving DecidableEq, Repr

/-! ### The tile and the group -/

/-- A tile: front end, core, force, sequencer, comparators, chains, calibration of its core. -/
structure Tile where
  fe : FrontEnd := {}
  core : Core := {}
  force : Force := {}
  seq : Seq := {}
  tc0 : Tc := {}
  tc1 : Tc := {}
  c0 : Chain := {}
  c1 : Chain := {}
  cal : CalCore := {}
  deriving DecidableEq, Repr

/-- A group: its aux front end, its reserve core and its calibration schedule. -/
structure Group where
  fe : GroupFe := {}
  core : Core := {}
  cal : CalCore := {}
  sched : GroupCal := {}
  deriving DecidableEq, Repr

/-! ### Stoves, loops, program store (09, 10) -/

/-- The states of a stove (R309, R310). -/
inductive StoveState where
  | stopped | idle | running | fenced
  deriving DecidableEq, Repr

/-- An input port of a stove (R287, R307): the stream bound, the latest word, its sequence number and time-stamp. -/
structure InPort where
  bound : Option Nat := none
  word : Word := 0
  seq : Nat := 0
  time : Nat := 0
  gapDue : Bool := false
  got : Bool := false
  deriving DecidableEq, Repr

/-- A message binding (R307, R435, R501): channel, node, length; Tirwin connection where the hearth is the protection hearth. -/
structure MsgBind where
  node : Nat
  channel : Nat
  addr : Nat
  length : Nat
  mseq : Nat := 0
  deriving DecidableEq, Repr

/-- A record binding (R307): the queue and the address in data SRAM. -/
structure RecBind where
  qid : Nat
  addr : Nat
  deriving DecidableEq, Repr

/-- A law slot (R286, R306) with its counters (R310). -/
structure Law where
  enable : Bool := false
  /-- ENABLE was cleared during a run: it acts when the run ends (R306). -/
  disabling : Bool := false
  trigKind : Nat := 0
  trigMask : Nat := 0
  entry : Nat := 0
  codeBase : Nat := 0
  codeLen : Nat := 0
  maxCycles : Nat := 0
  ovrLimit : Nat := 0
  loops : Nat := 0
  alignWait : Nat := 0
  pending : Bool := false
  arrived : Nat := 0
  alignFirst : Option Nat := none
  alignTime : Nat := 0
  alignSeq : Nat := 0
  alignTimeout : Bool := false
  compInfo : Nat := 0
  trigTime : Nat := 0
  trigSeq : Nat := 0
  runCnt : Cnt := {}
  overruns : Cnt := {}
  traps : Cnt := {}
  maxSeen : Nat := 0
  skipEv : Cnt := {}
  ovrRun : Nat := 0
  cleanRuns : Nat := 0
  /-- A trigger has been skipped since the end of the law's last run (R289). -/
  skipped : Bool := false
  lastTrap : Nat := 0
  lastRun : Nat := 0
  deriving DecidableEq, Repr

/-- What a run has staged for END (R290, R291). -/
structure Staged where
  force : Tab Word := []
  trip : Option Bool := none
  trigger : Bool := false
  /-- Binding and data address of each. -/
  msgs : List (Nat × Nat) := []
  recs : List (Nat × Nat) := []
  evt : Option Nat := none
  psreq : Option Nat := none
  deriving DecidableEq, Repr

/-- A run in progress (R288). -/
structure Run where
  law : Nat
  pc : Nat
  cycle : Nat := 0
  trigTime : Nat := 0
  trigSeq : Nat := 0
  trigInfo : Nat := 0
  staged : Staged := {}
  /-- Loop records as staged: 32 words each (R314, R318), the loops stepped, the loop events to raise (R322). -/
  loops : Tab (List Nat) := []
  stepped : List Nat := []
  loopEvs : List (Nat × Nat × Nat) := []
  stalled : Bool := false
  deriving DecidableEq, Repr

/-- A stove (R276 to R310). -/
structure Stove where
  regs : List Word := List.replicate 32 0
  accs : List Acc := List.replicate 4 0
  sticky : Nat := 0
  lsel : Nat := 0
  lsp : Tab Word := []
  lff : Tab Word := []
  isram : List Host.Cell := []
  dsram : List Host.Cell := []
  cache : Tab (List Nat) := []
  state : StoveState := .stopped
  fenced : Bool := false
  tripReq : Bool := false
  trapMask : Nat := 0
  trapAction : Nat := 0
  psBank : Nat := 0
  psFirst : Nat := 0
  psCount : Nat := 0
  lastCause : Nat := 0
  psBusy : Bool := false
  psStatus : Nat := 0
  cacheMiss : Cnt := {}
  laws : Tab Law := []
  ports : Tab InPort := []
  forceBind : Tab (Nat × Nat) := []
  msgBind : Tab MsgBind := []
  recBind : Tab RecBind := []
  run : Option Run := none
  /-- What waits for the stove to be between runs: loop commands, the trip, overruns and traps by loop mask (R323),
  records of Tirwin connections and messages to write (R505). -/
  loopWait : List Req := []
  tripPend : Bool := false
  /-- STOVE_CTRL STOP waits for the present run (R309). -/
  stopping : Bool := false
  ovrPend : Nat := 0
  trapPend : Nat := 0
  /-- The loop records before the trip, overruns and traps of the present gap between two runs: what a command of the gap acts on (R323). -/
  gapLoops : Tab (List Nat) := []
  /-- Loops whose next step goes to SAFE_OUT without the rate limit (R320). -/
  safeJump : Nat := 0
  dueWrites : List (Nat × List Byte) := []
  deriving DecidableEq, Repr

/-! ### Program store (09) -/

/-- An operation of a bank (R299): 0 read, 1 program, 2 erase; its offset in the bank and its data; from a stove, or from a host command. -/
structure PsOp where
  kind : Nat
  off : Nat
  data : List Byte := []
  stove : Option Nat := none
  req : Option Req := none
  session : Nat := 0
  deriving DecidableEq, Repr

/-- A bank of the program store (R296 to R301): bytes unlisted read 0xFF; a page whose state is undefined after a failed operation
reads free values from its seed on. It survives every reset. -/
structure PsBank where
  cells : List Host.Cell := []
  undef : Tab Nat := []
  erases : Tab Nat := []
  corrected : Cnt := {}
  lastOp : Nat := 0
  queue : List PsOp := []
  running : Bool := false
  heldSince : Option Nat := none
  lastFill : Option Nat := none
  deriving DecidableEq, Repr

/-! ### Tirwin and protection (16) -/

/-- The content of a PDU: its kind and its payload (R499). -/
structure PduBody where
  kind : Nat
  payload : List Byte
  deriving DecidableEq, Repr

/-- A Tirwin connection (R501, R504, R509, R511): state 0 OFF, 1 WAIT, 2 RECOVERING, 3 VALID. -/
structure Conn where
  dir : Bool := false
  enable : Bool := false
  peer : Nat := 0
  host : Bool := false
  dual : Bool := false
  onExpire : Bool := false
  acceptTrip : Bool := false
  tripFwd : Bool := false
  recoverN : Nat := 0
  ident : Nat := 0
  deadline : Nat := 0
  skew : Nat := 0
  period : Nat := 0
  stove : Nat := 0
  destEn : Bool := false
  addr : Nat := 0
  qid : Nat := 0
  state : Nat := 0
  good : Nat := 0
  lastSeq : Nat := 0
  lastTs : Nat := 0
  formed : Bool := false
  lastUs : Option Nat := none
  tripUs : Option Nat := none
  holding : Option PduBody := none
  rejCrc : Cnt := {}
  rejIdent : Cnt := {}
  rejAge : Cnt := {}
  rejSeq : Cnt := {}
  dup : Cnt := {}
  expires : Cnt := {}
  lost : Cnt := {}
  txDrop : Cnt := {}
  lastAccept : Nat := 0
  remote : Bool := false
  payload : List Byte := []
  kind : Nat := 0
  deriving DecidableEq, Repr

/-- The protection states of R494. -/
inductive ProtState where
  | notProven | proven | armed | tripped
  deriving DecidableEq, Repr

/-- The trip logic of die 0 (R492 to R511). -/
structure Prot where
  state : ProtState := .notProven
  proof : Nat := 0
  /-- The debounced judgement of the loop, and a debounce in progress: closing or opening, and since when (R497, R498). -/
  loop : Option Bool := none
  debounce : Option (Bool × Nat) := none
  latch : Bool := false
  pulse : Bool := false
  command : Bool := false
  was : Nat := 0
  first : Nat := 0
  trips : Cnt := {}
  loopOpens : Cnt := {}
  provenAt : Nat := 0
  latchAt : Nat := 0
  /-- When the present trip pulse began (R498): moves with a step of device time, as LATCH_AT does not. -/
  pulseAt : Nat := 0
  minPulse : Nat := 100
  loopTrip : Bool := true
  conns : Tab Conn := []
  /-- A TRIP reaction merged into record 127 (R525). -/
  faultHeld : Bool := false
  deriving DecidableEq, Repr

/-! ### Metering (11) -/

/-- The states of a pair (R356). -/
inductive PairState where
  | unconfigured | stopped | running | mismatch
  deriving DecidableEq, Repr

/-- A word of a pair's input as it arrives or waits in a delay path: stamp edge and word. -/
structure PairWord where
  edge : Nat
  time : Nat
  word : Word
  deriving DecidableEq, Repr

/-- The working registers of a metering window (R338). -/
structure Window where
  open_ : Bool := false
  nacc : Nat := 0
  svv : Int := 0
  sii : Int := 0
  svi : Int := 0
  sqi : Int := 0
  sv : Int := 0
  si : Int := 0
  flags : Nat := 0
  missed : Nat := 0
  expected : Nat := 0
  start : Nat := 0
  deriving DecidableEq, Repr

/-- A metering pair (R331 to R356). -/
structure Pair where
  kind : Nat := 0
  vTile : Nat := 0
  iTile : Nat := 0
  vSlot : Nat := 0
  iSlot : Nat := 0
  w : Nat := 8192
  delay : Int := 0
  qid : Nat := 0
  vFs : Nat := 0
  iFs : Nat := 0
  state : PairState := .unconfigured
  startPending : Bool := false
  unsavedLoss : Bool := false
  frozen : Bool := false
  regs : List Nat := [0, 0, 0, 0, 0, 0]
  win : Window := {}
  wseq : Nat := 0
  vIn : List PairWord := []
  iIn : List PairWord := []
  /-- A word failed its parity at the block: the next accepted one carries GAP (R104, R335). -/
  vGap : Bool := false
  iGap : Bool := false
  missing : Cnt := {}
  excl : Cnt := {}
  mismatches : Cnt := {}
  lastInstant : Option Nat := none
  deriving DecidableEq, Repr

/-- The kinds of a metering record (R345). -/
inductive RecordKind where
  | periodic | command | powerFail
  deriving DecidableEq, Repr

/-- A metering record of bank 1: the registers of every pair in order (R345). -/
structure MeterRecord where
  seq : Nat
  kind : RecordKind
  legal : Nat
  seconds : Nat
  regs : List (List Nat)
  /-- Pairs whose registers did not reach die 0 (R552). -/
  lost : List Nat := []
  /-- Whole pages of 256 B, and whether its CRC-32C is correct (R345, R350). -/
  pages : Nat := 0
  good : Bool := true
  deriving DecidableEq, Repr

/-- A record in the snapshot ring of 16 sectors of 256 pages, at its first page (R345). -/
structure SnapRec where
  page : Nat
  record : MeterRecord
  deriving DecidableEq, Repr

/-- A power-fail region (R347). -/
inductive PfRegion where
  | armed
  | used (r : Option MeterRecord)
  | erasing
  deriving DecidableEq, Repr

/-- Metering persistence of the node (R345 to R351); it survives every reset. -/
structure MeterNode where
  snapSeq : Nat := 0
  lastSnap : Nat := 0
  /-- The snapshot ring, newest first; the page the next record may take; the erases of its 16 sectors (R345, R346). -/
  ring : List SnapRec := []
  nextPage : Nat := 0
  erases : Tab Nat := []
  writing : List MeterRecord := []
  /-- SNAP_SEQ of the latest record written (R356). -/
  lastSeq : Nat := 0
  regionA : PfRegion := .armed
  regionB : PfRegion := .armed
  /-- The region that is armed is B, not A (R349). -/
  armB : Bool := false
  pfUnarmed : Nat := 0
  lastPeriod : Nat := 0
  opSeconds : Nat := 0
  deriving DecidableEq, Repr

/-! ### Ageing (19) -/

/-- A soot gauge (R569 to R572): its raw measure (a delay in fs, or the margin itself) and its margin in 0.01 %. The sums run over the
hour in progress; hourly means and re-plan points newest first. -/
structure Gauge where
  read : Bool := false
  raw : Int := 0
  margin : Int := 0
  lastRead : Option Nat := none
  sum : Int := 0
  count : Nat := 0
  hours : List Int := []
  points : List Int := []
  /-- Hours recorded since the lane rate last changed (R572). -/
  sinceRate : Nat := 0
  warn : Bool := false
  alarm : Bool := false
  lastWarn : Option Nat := none
  lastAct : Option Nat := none
  deriving DecidableEq, Repr

/-- The gauges and the plan entry of a die (R569, R583). Steps of the filter engine and the stoves stand in Node. -/
structure DieAge where
  gauges : Tab Gauge := []
  groupStep : Tab Nat := []
  fabricStep : Nat := 7
  bt : Nat := 0
  deratePend : Bool := false
  filtPend : Bool := false
  stovePend : Bool := false
  fabricPend : Bool := false
  rowAdvised : Bool := false
  valid : Bool := true
  roll : Tab Nat := []
  /-- The last 16 triad checks, newest first: divergence in 0.01 ppm, and the outvoted member (R569). -/
  triad : List (Nat × Option Nat) := []
  /-- Offset drift of each core between its last two successful calibrations, in nV per hour. -/
  drift : Tab Nat := []
  lastSample : Nat := 0
  deriving DecidableEq, Repr

/-- A re-plan in progress (R574): its trigger and the command that asked for it. -/
structure Replan where
  start : Nat
  trigger : Nat
  req : Option Req
  /-- The gauges as they stood at its start. -/
  snapshot : Tab DieAge := []
  deriving DecidableEq, Repr

/-- The margin plan of the node (R573 to R583); it survives every reset. -/
structure Ageing where
  dies : Tab DieAge := []
  planSeq : Nat := 0
  trigger : Nat := 0
  changed : Nat := 0
  time : Nat := 0
  /-- Operating seconds at the later of the last power-up and the last re-plan, and as last written (R573, R582). -/
  since : Nat := 0
  saved : Nat := 0
  lastHour : Nat := 0
  pendE : Bool := false
  pendW : Bool := false
  worst : Nat := 0
  worstDie : Nat := 0
  worstGauge : Nat := 0
  replan : Option Replan := none
  /-- Lane fallbacks being moved: port (0 EAST, 1 WEST) and deadline (R579). -/
  moves : Tab Nat := []
  /-- Neither copy of the record was valid at power-up (R582). -/
  fresh : Bool := false
  deriving DecidableEq, Repr

/-! ### Seal images (15) -/

/-- The seal image of a hearth (R475): the tiles whose chain 1 it holds, its pairs and its stoves, as they stood. -/
structure SealImage where
  tiles : Tab Tile := []
  pairs : Tab Pair := []
  stoves : Tab Stove := []
  /-- Its CRC-32C over bytes whose order the spec does not give: a free value (log 62). -/
  crc : Nat := 0
  deriving DecidableEq, Repr

/-- What the manager knows of the configuration of a worker, from the commands it has forwarded there (R47, R48, R50, R204, R294). -/
structure NodeView where
  tiles : Tab Tile := []
  stoves : Tab Stove := []
  pairs : Tab Pair := []
  trust : Trust := {}
  derated : List Nat := []
  deriving DecidableEq, Repr

/-! ### The whole state -/

/-- The state of a KY9 node, with the queue of commands that wait and the counter of free values (log 4). -/
structure State where
  node : Node := {}
  host : HostIf := {}
  ring : Ring := {}
  trust : Trust := {}
  roles : Roles := {}
  clog : Clog := {}
  faults : FaultMgr := {}
  logs : Logs := {}
  tiles : Tab Tile := []
  groups : Tab Group := []
  pins : Tab Pin := []
  jobs : List Job := []
  fabric : List FabricWord := []
  /-- The tile whose turn comes next at the fabric of a die: the round-robin of R32. -/
  fabricTurn : Tab Nat := []
  triggers : List TrigMsg := []
  sync : SyncState := {}
  rows : Tab Rows := []
  loopbacks : Tab Loopback := []
  /-- What the next draught edge brings into effect (R86, R121). -/
  due : List EdgeAct := []
  stoveTab : Tab Stove := []
  pairTab : Tab Pair := []
  views : Tab NodeView := []
  meter : MeterNode := {}
  ps : Tab PsBank := []
  prot : Prot := {}
  age : Ageing := {}
  sealImages : Tab SealImage := []
  fresh : Nat := 0
  pending : List Instr := []
  deriving DecidableEq, Repr

/-- Why a step stops with a fault. -/
inductive Fault where
  /-- Raised by an event that names a unit the package does not have (R8, R3): the spec gives no such
  unit a state. Safe: the model stops where no machine of this package could go on (log 24). -/
  | absentUnit (kind : String) (index : Nat)
  deriving DecidableEq, Repr

/-- Why a command has no meaning here. -/
inductive Refusal where
  /-- Raised by an arm of exec that is not written yet, and by nothing else. Safe: nothing is claimed of it. -/
  | notModelled (mnemonic : String)
  deriving DecidableEq, Repr

/-- The machine right after reset is asserted for the first time (R555, log 25): a node in the reset state. -/
def State.reset : State := {}

end Sys2Proof.Machine
end

