-- ==== Sys2Proof/Machine/Ops.lean ====
section
/-! DEFINITION. The named operations over the state: sparse tables, byte memories, counters, units,
request fields, records, free values, device time. Every meaning goes through them. -/

set_option Elab.async false

namespace Sys2Proof.Machine

/-! ### Sparse tables -/

/-- The entry of key k, or d where the table lists none. -/
def tget {α : Type} (d : α) : Tab α → Nat → α
  | [], _ => d
  | (j, v) :: t, k => if k = j then v else tget d t k

/-- The table with key k at v; keys stay rising. -/
def tset {α : Type} : Tab α → Nat → α → Tab α
  | [], k, v => [(k, v)]
  | (j, w) :: t, k, v =>
    if k = j then (k, v) :: t
    else if k < j then (k, v) :: (j, w) :: t
    else (j, w) :: tset t k v

/-- The table without key k. -/
def terase {α : Type} (t : Tab α) (k : Nat) : Tab α := t.filter (fun e => e.1 ≠ k)

/-- The entry of key k changed by f, from default d. -/
def tmod {α : Type} (d : α) (t : Tab α) (k : Nat) (f : α → α) : Tab α := tset t k (f (tget d t k))

/-! ### Byte memories: rising addresses, no entry equal to what an unlisted address reads as -/

/-- The byte at address a of a memory whose unlisted bytes read as u. -/
def memGet (u : Byte) (m : List Host.Cell) (a : Nat) : Byte := tget u m a

/-- The insertion of one byte that is not u. -/
def memPut : List Host.Cell → Nat → Byte → List Host.Cell
  | m, a, v => tset m a v

/-- The memory with byte a at v, in canonical form: writing u removes the entry. -/
def memSet (u : Byte) (m : List Host.Cell) (a : Nat) (v : Byte) : List Host.Cell :=
  if v = u then terase m a else tset m a v

/-- The canonical form. -/
def memWf (u : Byte) : List Host.Cell → Bool
  | [] => true
  | (a, v) :: t => (v != u) && t.all (fun e => decide (a < e.1)) && memWf u t

/-- Little-endian read of n bytes (R10). -/
def memGetLE (u : Byte) (m : List Host.Cell) (a : Nat) : Nat → Nat
  | 0 => 0
  | n + 1 => (memGet u m a).toNat + 256 * memGetLE u m (a + 1) n

/-- Little-endian write of n bytes (R10). -/
def memSetLE (u : Byte) (m : List Host.Cell) (a : Nat) : Nat → Nat → List Host.Cell
  | 0, _ => m
  | n + 1, v => memSetLE u (memSet u m a (BitVec.ofNat 8 v)) (a + 1) n (v / 256)

/-- Write of a list of bytes. -/
def memSetBytes (u : Byte) (m : List Host.Cell) (a : Nat) : List Byte → List Host.Cell
  | [] => m
  | b :: t => memSetBytes u (memSet u m a b) (a + 1) t

/-! ### Bit fields, signed values, records -/

/-- Bits [lo + w - 1 : lo] of v. -/
def bits (v lo w : Nat) : Nat := v / 2 ^ lo % 2 ^ w

/-- Bit lo of v. -/
def bitAt (v lo : Nat) : Bool := bits v lo 1 = 1

/-- A w-bit two's complement value. -/
def toI (w n : Nat) : Int := if n < 2 ^ (w - 1) then (n : Int) else (n : Int) - (2 ^ w : Nat)

/-- The w-bit two's complement code of i. -/
def toU (w : Nat) (i : Int) : Nat := (i % (2 ^ w : Nat)).toNat

/-- A Bool as a bit. -/
def b2n (b : Bool) : Nat := if b then 1 else 0

/-- A field of a little-endian record: byte offset, low bit, width, value. -/
structure Fld where
  off : Nat
  lo : Nat
  w : Nat
  v : Nat

/-- A record of fields as one little-endian number (R10). -/
def mkRec : List Fld → Nat
  | [] => 0
  | f :: t => f.v % 2 ^ f.w * 2 ^ (8 * f.off + f.lo) + mkRec t

/-- A bit mask of the listed positions below n. -/
def maskOf (n : Nat) (p : Nat → Bool) : Nat :=
  (List.range n).foldl (fun m i => if p i then m + 2 ^ i else m) 0

/-- Integer clamp. -/
def clampI (lo hi v : Int) : Int := if v < lo then lo else if hi < v then hi else v

/-- Rounding of a/b (b positive) half up: floor (a/b + 1/2). -/
def divHalfUp (a : Int) (b : Nat) : Int := (2 * a + b) / (2 * b : Nat)

/-- Rounding of a/b (b positive) half away from zero. -/
def divHalfAway (a : Int) (b : Nat) : Int :=
  if a < 0 then -((2 * a.natAbs + b) / (2 * b) : Nat) else ((2 * a.natAbs + b) / (2 * b) : Nat)

/-- The integer square root of v below 4^k. -/
def isqrt (v : Nat) : Nat → Nat
  | 0 => 0
  | k + 1 =>
    let r := 2 * isqrt (v / 4) k
    if (r + 1) * (r + 1) ≤ v then r + 1 else r

end Sys2Proof.Machine

namespace Sys2Proof
open Sys2Proof.Machine

/-- A field of the request's 64 B entry: bits [lo + w - 1 : lo] at byte off (R388). -/
def Req.u (r : Req) (off lo w : Nat) : Nat := bits r.entry.toNat (8 * off + lo) w

/-- A one-bit field. -/
def Req.b (r : Req) (off lo : Nat) : Bool := r.u off lo 1 = 1

/-- A signed field. -/
def Req.i (r : Req) (off w : Nat) : Int := toI w (r.u off 0 w)

/-- The opcode of the entry (R388). -/
def Req.opcode (r : Req) : Nat := r.u 0 0 16

/-- The hearth a function's commands act for: none for the PF (R361, R362). -/
def Req.hearth (r : Req) : Option Nat := if r.fn = 0 then none else some (r.fn - 1)

/-- A reserved header bit is set (R388). -/
def Req.headerBad (r : Req) : Bool :=
  r.u 4 6 2 ≠ 0 || r.u 5 4 4 ≠ 0 || r.u 6 1 15 ≠ 0 || r.u 12 0 32 ≠ 0

/-- The request acts for the holder h: the PF counts as every holder (R362). -/
def Req.for (r : Req) (h : Nat) : Bool := r.fn = 0 || r.fn = h + 1

end Sys2Proof

namespace Sys2Proof.Machine

/-- The QID of a command whose queue a reset of its function has ended: no queue has it (R371). -/
def goneQid : Nat := 2 ^ 18

/-! ### Counters -/

/-- One more, saturating at 2^w - 1 with the SAT bit on the increment that would pass it (R590). -/
def Cnt.bump (w : Nat) (c : Cnt) : Cnt :=
  if c.n + 1 < 2 ^ w then { c with n := c.n + 1 } else { n := 2 ^ w - 1, sat := true }

/-- k more at once. -/
def Cnt.add (w k : Nat) (c : Cnt) : Cnt :=
  if c.n + k < 2 ^ w then { c with n := c.n + k } else { n := 2 ^ w - 1, sat := true }

/-- Plain saturating increment of a count without a SAT bit. -/
def satInc (w n : Nat) : Nat := if n + 1 < 2 ^ w then n + 1 else 2 ^ w - 1

/-- SESSION_SEQ of the next session: it wraps from 0xFFFF to 1 (R592). -/
def nextSession (n : Nat) : Nat := if 0xFFFF ≤ n then 1 else n + 1

/-- The signed distance of two w-bit wrapping counts (R589). -/
def wrapDiff (w a b : Nat) : Int := toI w ((a + 2 ^ w - b % 2 ^ w) % 2 ^ w)

/-! ### Time, units, free values -/

/-- Device time in whole nanoseconds (R16, R39). -/
def State.now (s : State) : Nat := s.node.clock / 64

/-- A time kept in a field where zero means none (R591). -/
def State.stamp (s : State) : Nat := if s.now = 0 then 1 else s.now

/-- The next free value (log 4). -/
def State.free (s : State) : Nat × State := (Config.freeVal s.fresh, { s with fresh := s.fresh + 1 })

def State.nTiles (s : State) : Nat := 32 * s.node.dies
def State.nGroups (s : State) : Nat := 4 * s.node.dies
def State.nStoves (s : State) : Nat := 4 * s.node.dies
def State.nPairs (s : State) : Nat := 8 * s.node.dies

/-- The die, the group and the reserve core of a tile (R8). -/
def dieOfTile (n : Nat) : Nat := n / 32
def groupOfTile (n : Nat) : Nat := n / 8

/-- A node in the manager, standalone or isolated role has a host; a worker has none (R5, R7). -/
def State.isWorker (s : State) : Bool := s.node.role = 2
def State.isManager (s : State) : Bool := s.node.role = 1
def State.isAlone (s : State) : Bool := s.node.role = 0 || s.node.role = 3

/-- The function of a hearth code: 0xF is the PF. -/
def fnOfHearth (h : Nat) : Nat := if h = 15 then 0 else h + 1
/-- The hearth code of a function (R388). -/
def hearthOfFn (f : Nat) : Nat := if f = 0 then 15 else f - 1

/-! ### Parts of the host interface -/

def State.fn (s : State) (f : Nat) : Fn := tget {} s.host.fns f
def State.modFn (s : State) (f : Nat) (g : Fn → Fn) : State :=
  { s with host := { s.host with fns := tmod {} s.host.fns f g } }
def State.queue (s : State) (q : Nat) : Queue := tget {} s.host.queues q
def State.modQueue (s : State) (q : Nat) (g : Queue → Queue) : State :=
  { s with host := { s.host with queues := tmod {} s.host.queues q g } }
/-- Positions of a function's vectors (R373). -/
def vecCount (fn : Nat) : Nat := if fn = 0 then 64 else 248
/-- Key of a vector: 2,048 positions for each function, as VEC of an admin block may name (R366, R373). -/
def State.vec (s : State) (f v : Nat) : Vec := tget {} s.host.vecs (2048 * f + v)
def State.modVec (s : State) (f v : Nat) (g : Vec → Vec) : State :=
  { s with host := { s.host with vecs := tmod {} s.host.vecs (2048 * f + v) g } }
def State.emit (s : State) (w : HostWrite) : State :=
  { s with host := { s.host with out := w :: s.host.out } }

/-! ### Frames onto the ring (R422, R425) -/

/-- The class of a frame type (R424): 0 SAFETY, 1 TIME, 2 SAMPLE, 3 COMMAND, 4 BULK. -/
def FrameType.cls : FrameType → Nat
  | .tirwin | .linkFault => 0
  | .time | .delayReq | .delayResp | .sync | .trigger | .plan => 1
  | .prompt | .message | .packed => 2
  | .cmd | .cpl | .event | .ack | .number => 3
  | .capture | .log | .damaged => 4

/-- The scheduling level of a frame type (R424). A frame whose CRC failed is served as of the last level (log 57). -/
def FrameType.level : FrameType → Nat
  | .tirwin | .linkFault => 1
  | .time | .delayReq | .delayResp | .sync | .trigger | .plan => 2
  | .prompt | .message => 3
  | .packed => 4
  | .cmd | .cpl | .event | .ack | .number => 5
  | .capture | .log | .damaged => 6

/-- The place of a frame among those handed over at one instant: by level, a forwarded one before the node's own (R427). -/
def FrameOut.rank (f : FrameOut) : Nat := 2 * f.type.level + b2n (!f.passing)

/-- A frame joins the frames sent, newest first: it goes before those of the same instant that rank behind it (R427). -/
def FrameOut.queue (f : FrameOut) : List FrameOut → List FrameOut
  | [] => [f]
  | x :: t => if x.at_ = f.at_ && f.rank < x.rank then x :: f.queue t else f :: x :: t

/-- No traffic crosses a link: it is down, or the plan in force avoids it. -/
def Ring.blocked (r : Ring) (l : Nat × Nat) : Bool := r.avoid.contains l || r.downLinks.contains l

/-- The links from place i of the ring over h hops of ring A. -/
def Ring.links (r : Ring) (i h : Nat) : List (Nat × Nat) :=
  let n := r.order.length
  (List.range h).map (fun t => (r.order.getD ((i + t) % n) 0, r.order.getD ((i + t + 1) % n) 0))

/-- The ring and the hops of a unicast frame to a node under the plan in force: the fewer hops, ties ring A (R425). A node that no plan
names yet sends back the way TIME comes. None: every way is cut. -/
def Ring.route (r : Ring) (dst : Nat) : Option (Nat × Nat) :=
  let n := r.order.length
  match r.order.idxOf? r.nodeNo, r.order.idxOf? dst with
  | some i, some j =>
    let ha := (j + n - i) % n
    let hb := (i + n - j) % n
    let okA := (r.links i ha).all (fun l => !r.blocked l)
    let okB := (r.links j hb).all (fun l => !r.blocked l)
    if okA && (!okB || ha ≤ hb) then some (0, ha) else if okB then some (1, hb) else none
  | _, _ => if r.activeEast then some (0, r.east.hopsDone + 1) else some (1, r.west.hopsDone + 1)

/-- A unicast frame goes out on ring g over h hops, under its FSEQ. -/
def State.sendVia (s : State) (f : FrameOut) (g h : Nat) : State :=
  let r := s.ring
  let k := 2 * f.type.cls + g
  let n := (tget 0 r.fseq k + 1) % 2 ^ 32
  { s with ring := { r with
      fseq := tset r.fseq k n
      out := ({ f with ring := g, hops := h, fseq := n, at_ := s.node.clock } : FrameOut).queue r.out } }

/-- A frame goes out under its ring, hops and FSEQ; BCAST on both rings; with the bypass closed or no way left it does not. -/
def State.sendFrame (s : State) (f : FrameOut) : State :=
  let r := s.ring
  let k := 2 * f.type.cls
  let a := tget 0 r.fseq k
  let b := tget 0 r.fseq (k + 1)
  if r.bypassClosed then s
  else match f.dst with
    | none =>
      let n := (max a b + 1) % 2 ^ 32
      { s with ring := { r with
          fseq := tset (tset r.fseq k n) (k + 1) n
          out := ({ f with ring := 2, hops := r.order.length - 1, fseq := n, at_ := s.node.clock } : FrameOut).queue r.out } }
    | some d =>
      match r.route d with
      | none => s
      | some (g, h) => s.sendVia f g h

/-- A frame for a node on both rings, where the way there is not cut (R502). -/
def State.sendBoth (s : State) (f : FrameOut) (dst : Nat) : State :=
  let r := s.ring
  let n := r.order.length
  if r.bypassClosed then s
  else match r.order.idxOf? r.nodeNo, r.order.idxOf? dst with
    | some i, some j =>
      let ha := (j + n - i) % n
      let hb := (i + n - j) % n
      let s := if (r.links i ha).all (fun l => !r.blocked l) then s.sendVia f 0 ha else s
      if (r.links j hb).all (fun l => !r.blocked l) then s.sendVia f 1 hb else s
    | _, _ => s.sendFrame f

/-- A frame for the neighbour of a port alone: ring A leaves at EAST, ring B at WEST (R418). -/
def State.sendPort (s : State) (type : FrameType) (east : Bool) (body : Nat) (passing : Bool := false) : State :=
  let r := s.ring
  let g := if east then 0 else 1
  let n := (tget 0 r.fseq (2 * type.cls + g) + 1) % 2 ^ 32
  if r.bypassClosed then s
  else { s with ring := { r with
    fseq := tset r.fseq (2 * type.cls + g) n,
    out := ({ type := type, dst := none, aux := 0, body := body, ring := g, fseq := n, at_ := s.node.clock
              passing := passing } : FrameOut).queue r.out } }

/-- The first copy of a BCAST frame, by SRC, class and FSEQ; the second is dropped (R425). -/
def State.firstCopy (s : State) (src cls fseq : Nat) : Bool := !s.ring.seenBcast.contains (8 * src + cls, fseq)
def State.noteCopy (s : State) (src cls fseq : Nat) : State :=
  { s with ring := { s.ring with seenBcast := ((8 * src + cls, fseq) :: s.ring.seenBcast).take 256 } }

/-- A port, and a port changed. -/
def Ring.port (r : Ring) (east : Bool) : RingPort := if east then r.east else r.west
def State.modPort (s : State) (east : Bool) (f : RingPort → RingPort) : State :=
  if east then { s with ring := { s.ring with east := f s.ring.east } }
  else { s with ring := { s.ring with west := f s.ring.west } }

/-- A worker starts no stream before its device time was loaded at the first lock, nor the manager before formation has ended
with its own step (R41, R441). -/
def State.noStreams (s : State) : Bool := (s.isWorker && !s.ring.timeLoaded) || (s.isManager && s.ring.view = 0)

/-! ### Who holds what -/

/-- A VF exists while VF Enable is set and its index is below NumVFs (R361). -/
def State.vfExists (s : State) (h : Nat) : Bool := s.host.vfEnable && decide (h < s.host.numVfs)
/-- A hearth is live from the moment its VF first exists after power-up (R459). -/
def State.isLive (s : State) (h : Nat) : Bool := s.trust.live.contains h
/-- The units of a hearth may run: it is live, and its seal image was not found invalid (R459, R476). -/
def State.awake (s : State) (h : Nat) : Bool := s.isLive h && !s.trust.dormant.contains h
def State.hearthFenced (s : State) (h : Nat) : Bool := s.faults.fencedHearths.contains h
/-- A hearth that a command may give resources to: its VF exists, on a worker it is live there (R459, R361). -/
def State.mayHold (s : State) (h : Nat) : Bool := if s.isWorker then s.isLive h else s.vfExists h

/-- Who holds what (R458, R203). -/
def State.tileOwner (s : State) (n : Nat) : Nat := tget 0 s.trust.tileOwner n
def State.stoveOwner (s : State) (n : Nat) : Nat := tget 0 s.trust.stoveOwner n
/-- The holder of chain 1 of a tile: its grantee, else its owner (R203). -/
def State.chain1Holder (s : State) (n : Nat) : Nat := tget (s.tileOwner n) s.trust.grants n
def State.granted (s : State) (n : Nat) : Bool := s.trust.grants.any (fun e => e.1 = n)
def State.isForcePort (s : State) (n : Nat) : Bool := s.trust.forcePorts.contains n
def State.seal (s : State) (h : Nat) : Seal := tget .never s.trust.seals h
def State.intact (s : State) (h : Nat) : Bool := s.seal h = .intact

/-- The function that owns a QID: the admin pairs are fixed (R370), the rest lie in ranges (R458). -/
def State.qidOwner (s : State) (q : Nat) : Option Nat :=
  if q < 18 then some (q / 2)
  else (s.trust.qids.find? (fun e => e.2.1 ≤ q && q < e.2.1 + e.2.2)).map (fun e => e.1)

/-! ### Tiles, groups, pins, stoves -/

def State.tile (s : State) (n : Nat) : Tile := tget {} s.tiles n
def State.modTile (s : State) (n : Nat) (g : Tile → Tile) : State := { s with tiles := tmod {} s.tiles n g }
def State.group (s : State) (g : Nat) : Group := tget {} s.groups g
def State.modGroup (s : State) (g : Nat) (f : Group → Group) : State := { s with groups := tmod {} s.groups g f }
def State.pin (s : State) (p : Nat) : Pin := tget {} s.pins p
def State.modPin (s : State) (p : Nat) (f : Pin → Pin) : State := { s with pins := tmod {} s.pins p f }
def State.stove (s : State) (n : Nat) : Stove := tget {} s.stoveTab n
def State.modStove (s : State) (n : Nat) (f : Stove → Stove) : State := { s with stoveTab := tmod {} s.stoveTab n f }
def State.pair (s : State) (n : Nat) : Pair := tget {} s.pairTab n
def State.modPair (s : State) (n : Nat) (f : Pair → Pair) : State := { s with pairTab := tmod {} s.pairTab n f }
def State.stream (s : State) (k : Nat) : Stream := tget {} s.host.streams k
def State.modStream (s : State) (k : Nat) (f : Stream → Stream) : State :=
  { s with host := { s.host with streams := tmod {} s.host.streams k f } }
def Tile.chain (t : Tile) (c : Nat) : Chain := if c = 0 then t.c0 else t.c1
def Tile.modChain (t : Tile) (c : Nat) (f : Chain → Chain) : Tile :=
  if c = 0 then { t with c0 := f t.c0 } else { t with c1 := f t.c1 }
def Tile.tc (t : Tile) (c : Nat) : Tc := if c = 0 then t.tc0 else t.tc1
def Tile.modTc (t : Tile) (c : Nat) (f : Tc → Tc) : Tile :=
  if c = 0 then { t with tc0 := f t.tc0 } else { t with tc1 := f t.tc1 }
/-- The tile converts: ACQ or FORCE_SENSE (R117). -/
def Tile.converting (t : Tile) : Bool := t.force.mode = .acq || t.force.mode = .forceSense
/-- The holder of a chain (R203). -/
def State.chainHolder (s : State) (n c : Nat) : Nat := if c = 0 then s.tileOwner n else s.chain1Holder n

/-! ### Fences (R522) -/

def State.coreFenced (s : State) (n : Nat) : Bool := s.faults.fencedCores.contains n
def State.groupFenced (s : State) (g : Nat) : Bool :=
  s.faults.fencedGroups.contains g || s.faults.fencedDies.contains (g / 4)
def State.dieFenced (s : State) (d : Nat) : Bool := s.faults.fencedDies.contains d
/-- A tile whose words do not come: its tile, group or die fenced, or FATAL (R522, R533). -/
def State.tileFenced (s : State) (n : Nat) : Bool :=
  s.faults.fencedTiles.contains n || s.groupFenced (groupOfTile n) || s.faults.fatal
def State.stoveFenced (s : State) (n : Nat) : Bool :=
  s.faults.fencedStoves.contains n || s.dieFenced (n / 4) || s.faults.fatal
  || s.hearthFenced (s.stoveOwner n)
/-- Reserve cores carry the core numbers 1024 + group. -/
def reserveCore (g : Nat) : Nat := 1024 + g

/-! ### Vectors and writes to the link -/

/-- No message of a vector is sent: it is masked, alone or with its function, or the function may send none (R373, R374). -/
def State.vecHeld (s : State) (f v : Nat) : Bool :=
  let c := (s.fn f).cfg
  (s.vec f v).masked || !c.msixEn || c.msixMask || !c.master || c.d3hot

/-- A cause for a vector: gathered by MOD_COUNT or sent; a masked vector keeps its pending bit (R373). A number that the function has no
vector for causes nothing. -/
def State.cause (s : State) (f v : Nat) : State :=
  let x := s.vec f v
  let n := x.causes + 1
  let first := if x.causes = 0 then s.now else x.first
  if vecCount f ≤ v then s
  else if n < x.modCount then s.modVec f v (fun x => { x with causes := n, first := first })
  else if s.vecHeld f v then s.modVec f v (fun x => { x with causes := n, first := first, pendingBit := true })
  else (s.modVec f v (fun x => { x with causes := 0, sent := (x.sent + 1) % 65536, pendingBit := false })).emit
    (.message f v)

/-- LOSS_CNT of a queue, and the time of the loss (R406). -/
def State.queueLost (s : State) (q k : Nat) : State :=
  s.modQueue q (fun x => { x with loss := x.loss.add 32 k, lastLoss := s.stamp, dirty := true })

end Sys2Proof.Machine
end

