-- ==== Sys2Proof/Machine/Events.lean ====
section
/-! DEFINITION. Events, event-log records, reports to the fault manager, and acknowledged frames. -/

set_option Elab.async false

namespace Sys2Proof.Machine

/-! ### The event log's queue (R538, R595) -/

/-- Enters a record in the queue of the RAM log; a record that finds it full counts in RAM_SKIP (R595). -/
def State.logRec (s : State) (r : LogRec) : State :=
  if s.logs.queue.length < 256 then { s with logs := { s.logs with queue := s.logs.queue ++ [r] } }
  else { s with logs := { s.logs with ramSkip := s.logs.ramSkip.bump 32 } }

/-- A record of a happening at this node now (R538). -/
def State.logEv (s : State) (kind hearth subject detail : Nat) : State :=
  s.logRec { time := s.now, kind := kind, node := s.ring.nodeNo, hearth := hearth, subject := subject, detail := detail }

/-! ### Reports (R513) -/

/-- A detector of this node reports: the fault manager takes it up in FAULT_DETECTION (R516). -/
def State.report (s : State) (det inst detail : Nat) : State :=
  { s with faults := { s.faults with reports := s.faults.reports ++ [(det, inst, detail)] } }

/-! ### Acknowledged frames (R433) -/

/-- Sends a COMMAND-class frame under a fresh TAG and keeps it until its ACK. -/
def State.sendAcked (s : State) (type : FrameType) (dst body : Nat) : State :=
  let tag := (s.ring.tag + 1) % 2 ^ 32
  let f : FrameOut := { type := type, dst := some dst, aux := tag, body := body }
  let s := s.sendFrame f
  { s with ring := { s.ring with tag := tag, unacked := s.ring.unacked ++ [{ frame := f, sentAt := s.now }] } }

/-! ### Events (R395, R397, R407) -/

/-- The 64 B of an event entry without its QID and PHASE (R395). -/
def EventRec.bytes (e : EventRec) : Nat :=
  mkRec [⟨0, 0, 64, e.time⟩, ⟨8, 0, 16, e.code⟩, ⟨10, 0, 6, e.node⟩, ⟨11, 0, 4, e.hearth⟩,
    ⟨16, 0, 32, e.subject⟩, ⟨20, 0, 16, e.held⟩, ⟨24, 0, 320, e.detail⟩]

/-- The event queue that a staged entry of function f waits for: its own, else the default one. -/
def State.eventQueue (s : State) (f : Nat) (e : EventRec) : Option Nat :=
  match e.dest with
  | some q => some q
  | none => (s.fn f).evQid

/-- An event meets a full staging area: under OVERWRITE_OLDEST it takes the place of the oldest entry for its own queue q, else it is lost; the
lost entry counts at q (R407). -/
def State.replaceEvent (s : State) (f q : Nat) (e : EventRec) : State :=
  let old := if (s.queue q).policy then (s.fn f).evStage.find? (fun x => s.eventQueue f x = some q) else none
  match old with
  | some x => (s.modFn f (fun y => { y with evStage := y.evStage.erase x ++ [e] })).queueLost q 1
  | none => s.queueLost q 1

/-- Places an event in the staging area of its hearth's default event queue; without such a queue, or
with the hearth fenced, it is not delivered (R397, R522). A full area follows the queue's POLICY (R407). -/
def State.deliverEvent (s : State) (e : EventRec) : State :=
  let f := fnOfHearth e.hearth
  match (s.fn f).evQid with
  | none => s
  | some q =>
    if e.hearth ≠ 15 && s.hearthFenced e.hearth then s
    else if (s.fn f).evStage.length < 64 then s.modFn f (fun x => { x with evStage := x.evStage ++ [e] })
    else s.replaceEvent f q e

/-- Raises an event for a hearth code (0xF the PF): on a worker it travels to the manager (R434). -/
def State.raiseHeld (s : State) (held code hearth subject detail : Nat) : State :=
  let e : EventRec := { time := s.now, code := code, node := s.ring.nodeNo, hearth := hearth,
                        subject := subject, held := held, detail := detail }
  if s.isWorker then s.sendAcked .event 0 e.bytes else s.deliverEvent e

/-- Raises an event that has no 10 ms limit. -/
def State.raise (s : State) (code hearth subject detail : Nat) : State := s.raiseHeld 0 code hearth subject detail

/-- Raises an event at most once in 10 ms for one limiter key; the others count in HELD of the code and the subject (R395). -/
def State.raiseLim (s : State) (key code hearth subject detail : Nat) : State :=
  let k := code * 2 ^ 40 + key
  let h := code * 2 ^ 40 + subject
  let free := match (tget {} s.host.limits k).last with
    | none => true
    | some t => decide (t + 10000000 ≤ s.now)
  if free then
    let s' := { s with host := { s.host with limits := tset s.host.limits k { last := some s.now }, helds := terase s.host.helds h } }
    s'.raiseHeld (tget 0 s.host.helds h) code hearth subject detail
  else { s with host := { s.host with helds := tset s.host.helds h (satInc 16 (tget 0 s.host.helds h)) } }

/-- FN_RESET, whose entry signals on PF vector 0, whatever the event queue holds (R371, R397). -/
def State.raiseFnReset (s : State) (f : Nat) : State := s.raise 0x0101 15 (hearthOfFn f) 0

/-- QUEUE_LOSS at most once per queue in 10 ms, to the function that owns the queue (R406). -/
def State.raiseQueueLoss (s : State) (q : Nat) : State :=
  match s.qidOwner q with
  | none => s
  | some f => s.raiseLim q 0x0901 (hearthOfFn f) q (s.queue q).loss.n

/-- A queue stops with ERR: QUEUE_STOPPED (R386, R392, R401). -/
def State.stopQueue (s : State) (q err : Nat) : State :=
  let s := s.modQueue q (fun x => { x with err := err, dirty := true })
  match s.qidOwner q with
  | none => s
  | some f => s.raise 0x0905 (hearthOfFn f) q err

end Sys2Proof.Machine
end

