-- ==== Sys2Proof/Machine/Flags.lean ====
section
/-! DEFINITION. Sample words: their flags, parity and layouts (R13, R102 to R106). -/

set_option Elab.async false

namespace Sys2Proof.Machine

/-- The flag bits of R13. -/
def fOVR : Nat := 1
def fFOVF : Nat := 2
def fUNS : Nat := 4
def fSTL : Nat := 8
def fDIS : Nat := 16
def fSPR : Nat := 32
def fGAP : Nat := 64

/-- The number of ones among the low n bits. -/
def ones (v : Nat) : Nat → Nat
  | 0 => 0
  | n + 1 => v / 2 ^ n % 2 + ones v n

/-- PAR passes: an even number of ones in 32 bits (R104). -/
def parOk (w : Word) : Bool := ones w.toNat 32 % 2 = 0

/-- Sets PAR last, over the other 31 bits (R104). -/
def withPar (v : Nat) : Word :=
  let b := v / 256 * 256 + v % 128
  BitVec.ofNat 32 (b + 128 * (ones b 32 % 2))

/-- A filtered word of a 24-bit code and flags (R102). -/
def filteredWord (code : Int) (flags : Nat) : Word := withPar (toU 24 code * 256 + flags % 128)

/-- A raw word of an 18-bit code and flags (R102, R103). -/
def rawWord (code : Int) (flags : Nat) : Word := filteredWord (64 * code) flags

/-- A flag of a word. -/
def hasFlag (w : Word) (f : Nat) : Bool := w.toNat / f % 2 = 1

/-- The word with a flag set and PAR recomputed (R406). -/
def setFlag (w : Word) (f : Nat) : Word := if hasFlag w f then w else withPar (w.toNat + f)

/-- The 24-bit code of a word in either layout (R103). -/
def code24 (w : Word) : Int := toI 24 (w.toNat / 256)

/-- The 18-bit code of a raw word. -/
def code18 (w : Word) : Int := toI 18 (w.toNat / 16384)

/-- The flags but PAR. -/
def flagsOf (w : Word) : Nat := w.toNat % 128

/-- The clamp of R93: the code and whether OVR is set. -/
def clampRaw (r : Int) : Int × Bool :=
  if 131072 ≤ r then (131071, true) else if r ≤ -131073 then (-131072, true) else (r, false)

end Sys2Proof.Machine
end

