-- ==== Sys2Proof/Machine/Operands.lean ====
section
/-! DEFINITION. Operand forms: slot descriptors (R154), source and gain rules (R55, R68), force words and codes
(R118, R119), draught edges (R39, R124), stream keys. -/

set_option Elab.async false

namespace Sys2Proof.Machine

/-! ### Draught edges -/

/-- The index of the present draught edge: round (device time / 48.828125 ns), R124. -/
def State.edge (s : State) : Nat := (2 * s.node.clock + 3125) / 6250

/-- The device time of an edge, in sixty-fourths of a nanosecond, on this node's clock. -/
def State.edgeClock (s : State) (e : Nat) : Nat := s.node.clock + e * 3125 - s.edge * 3125

/-- The time-stamp of an edge: the integer part of the accumulator (R39). -/
def State.edgeTime (s : State) (e : Nat) : Nat := s.edgeClock e / 64

/-- The first edge at or after a device time in sixty-fourths of a nanosecond. -/
def State.edgeAtOrAfter (s : State) (t64 : Nat) : Nat :=
  if t64 ≤ s.node.clock then s.edge - (s.node.clock - t64) / 3125
  else s.edge + (t64 - s.node.clock + 3124) / 3125

/-! ### Slot descriptors (R154) -/

def dSrc (d : Nat) : Nat := bits d 0 4
def dGain (d : Nat) : Nat := bits d 4 3
def dSettle (d : Nat) : Nat := bits d 8 8
def dChain (d c : Nat) : Bool := bitAt d (16 + c)
def dRaw (d : Nat) : Bool := bitAt d 18
def dRepeat (d : Nat) : Nat := bits d 20 12

/-- A descriptor as written: its reserved bits 7 and 19 stay zero (R11, R154). -/
def dMask (d : Nat) : Nat := d % 128 + bits d 8 11 * 256 + dRepeat d * 1048576
/-- A descriptor field out of range: REPEAT 0, or no destination (R154). -/
def dBad (d : Nat) : Bool := dRepeat d = 0 || bits d 16 3 = 0

/-- External sources are the port and the aux inputs (R55). -/
def srcExternal (c : Nat) : Bool := c = 0 || 8 ≤ c

/-- The gains a source allows (R55). -/
def gainAllowed (src gain : Nat) : Bool :=
  if src = 2 then gain ≤ 2 else if src = 4 then gain ≤ 4 else src ≠ 6 && src ≠ 7

/-- The smallest SETTLE of a slot after another (R68). -/
def settleMin (prev cur : Nat) : Nat :=
  let srcPart :=
    if dSrc prev = dSrc cur then 0
    else if srcExternal (dSrc prev) && srcExternal (dSrc cur) then 2 else 8
  let gainPart :=
    if dGain prev = dGain cur then 0
    else if dGain prev = 0 || dGain cur = 0 then 4
    else if 5 ≤ dGain prev || 5 ≤ dGain cur then 2 else 1
  max srcPart gainPart

/-- Aux positions a descriptor names, directly or as the second pin of a pair (R55, R82). -/
def dAux (auxPair d : Nat) : List Nat :=
  if dSrc d < 8 then [] else
    let k := dSrc d - 8
    if k % 2 = 0 && bitAt auxPair (k / 2) then [k, k + 1] else [k]

/-! ### Pins: 2 n and 2 n + 1 are PRT_P and PRT_N of tile n, 4096 + i is AUX i -/

def pinP (n : Nat) : Nat := 2 * n
def pinN (n : Nat) : Nat := 2 * n + 1
def pinAux (i : Nat) : Nat := 4096 + i
def pinGroup (p : Nat) : Nat := if p < 4096 then p / 16 else (p - 4096) / 8
/-- The SUBJECT of a pin's events (R396). -/
def pinSubject (p : Nat) : Nat := if p < 4096 then p / 2 else 0x8000 + (p - 4096)

/-- The pins a tile's descriptor reads (R55, R58): the positive one first. -/
def dPins (n auxPair d : Nat) : List Nat :=
  if dSrc d = 0 then [pinP n, pinN n]
  else if dSrc d = 1 then [pinP (n ^^^ 1), pinN (n ^^^ 1)]
  else (dAux auxPair d).map (fun k => pinAux (groupOfTile n * 8 + k))

/-! ### Force words (R118, R119, log 9) -/

/-- Position units of one step of T[31:8] on a range. -/
def forceUnit (range : Nat) : Int := 4000000 / (2 ^ range : Nat)

/-- T[31:8] of a force word, signed. -/
def force24 (w : Word) : Int := toI 24 (w.toNat / 256)

/-- The generator position of a force word on a range. -/
def forcePos (range : Nat) (w : Word) : Int := force24 w * forceUnit range

/-- The DAC code of a position: rounded half up, saturated (R118, R127). -/
def dacCode (range : Nat) (pos : Int) : Int :=
  clampI (-131072) 131071 (divHalfUp pos (64 * forceUnit range).toNat)

/-- The force word of a position, for OUTPUT of R152 (log 32). -/
def forceWord (range : Nat) (pos : Int) : Word :=
  BitVec.ofNat 32 (toU 24 (clampI (-8388608) 8388607 (divHalfUp pos (forceUnit range).toNat)) * 256)

/-! ### Streams -/

/-- The kinds of a stream (R108). -/
def kRaw : Nat := 2

/-- The key of a stream: node, tile, slot, kind, span. -/
def streamKey (node tile slot kind span : Nat) : Nat := (((node * 65536 + tile) * 32 + slot) * 4 + kind) * 2 + span
def keySpan (k : Nat) : Nat := k % 2
def keyKind (k : Nat) : Nat := k / 2 % 4
def keySlot (k : Nat) : Nat := k / 8 % 32
def keyTile (k : Nat) : Nat := k / 256 % 65536
def keyNode (k : Nat) : Nat := k / 16777216

end Sys2Proof.Machine
end

