-- ==== Sys2Proof/Machine/Streams.lean ====
section
/-! DEFINITION. Streams: sequence numbers, blocks, pond shares, and the ways a word takes to its consumers
(R108 to R110, R394, R405, R406, R428, R429). -/

set_option Elab.async false

namespace Sys2Proof.Machine

/-- One of the two shares of a stream: false its sample queue, true its capture queue. -/
def Stream.share (x : Stream) (cap : Bool) : Share := if cap then x.capture else x.sample
def Stream.modShare (x : Stream) (cap : Bool) (f : Share → Share) : Stream :=
  if cap then { x with capture := f x.capture } else { x with sample := f x.sample }
def State.modShare (s : State) (k : Nat) (cap : Bool) (f : Share → Share) : State :=
  s.modStream k (fun x => x.modShare cap f)

/-- Who holds what on a node: on this one, or on a worker as the manager knows it (log 19). -/
def State.layoutOf (s : State) (n : Nat) : Trust := if n = s.ring.nodeNo then s.trust else (tget {} s.views n).trust

/-- The hearth that a stream is for: the owner for raw words, the holder of the chain (R204). -/
def State.streamHolder (s : State) (k : Nat) : Nat :=
  let t := s.layoutOf (keyNode k)
  let owner := tget 0 t.tileOwner (keyTile k)
  if keyKind k = 1 then tget owner t.grants (keyTile k) else owner

/-- This node knows who holds a stream: its own, or, as the manager, any (R204, log 19). -/
def State.knowsHolder (s : State) (k : Nat) : Bool := keyNode k = s.ring.nodeNo || s.isManager

/-- Sets GAP in word 0 (R406). -/
def Block.markGap (b : Block) : Block :=
  match b.words with
  | [] => b
  | w :: t => { b with words := setFlag w fGAP :: t }

def markHead : List Block → List Block
  | [] => []
  | b :: t => b.markGap :: t

/-- The bytes of a segment (R428). -/
def segmentBytes (g : Segment) : Nat :=
  mkRec ([⟨0, 0, 16, g.tile⟩, ⟨2, 0, 5, g.slot⟩, ⟨2, 5, 2, g.kind⟩, ⟨2, 7, 1, g.span⟩, ⟨3, 0, 4, g.words.length⟩, ⟨4, 0, 32, g.seq⟩,
    ⟨8, 0, 64, g.time⟩] ++ (List.range g.words.length).map (fun i => ⟨16 + 4 * i, 0, 32, (g.words.getD i 0).toNat⟩))

/-- Segments one after the other. -/
def segmentsBytes : List Segment → Nat
  | [] => 0
  | g :: t => segmentBytes g + segmentsBytes t * 2 ^ (8 * (16 + 4 * g.words.length))

/-- Sends the segments gathered in a PACKED frame to N0 (R429). -/
def State.sendPacked (s : State) : State :=
  if s.ring.packing.isEmpty then s
  else
    let s := s.sendFrame { type := .packed, dst := some 0, aux := s.ring.packing.length, body := segmentsBytes s.ring.packing }
    { s with ring := { s.ring with packing := [], packingSince := none } }

/-- A segment enters the PACKED frame being filled, which goes at 15 segments (R429). -/
def State.packSegment (s : State) (g : Segment) : State :=
  let l := s.ring.packing ++ [g]
  let since := if s.ring.packing.isEmpty then some s.now else s.ring.packingSince
  let s := { s with ring := { s.ring with packing := l, packingSince := since } }
  if 15 ≤ l.length then s.sendPacked else s

/-- A worker's path to the manager takes blocks: its bypass is open and a way to N0 is left (R46, R51). -/
def State.ringClear (s : State) : Bool := !s.ring.bypassClosed && (s.ring.route 0).isSome

/-- A block of a worker leaves its pond for the manager: a segment of a PACKED frame, or a CAPTURE frame (R429). -/
def State.sendBlock (s : State) (k : Nat) (cap : Bool) (q : Nat) (b : Block) : State :=
  let g : Segment := {
    src := s.ring.nodeNo, tile := keyTile k, slot := keySlot k, kind := keyKind k, span := keySpan k,
    seq := b.seq, time := b.time, words := b.words }
  if cap then s.sendFrame { type := .capture, dst := some 0, aux := q, body := segmentBytes g + b.step * 2 ^ 512 } else s.packSegment g

/-- A block among others, those completed first in front (R393). -/
def LeftBlock.into (b : LeftBlock) : List LeftBlock → List LeftBlock
  | [] => [b]
  | x :: t => if b.block.done < x.block.done then b :: x :: t else x :: b.into t

/-- The blocks that wait in the ponds, of bindings that have ended too, in the order in which they were completed (R393, R405). -/
def State.pondBlocks (s : State) : List LeftBlock :=
  let shares := s.host.streams.flatMap (fun e => [false, true].flatMap (fun cap =>
    let sh := e.2.share cap
    match sh.qid with
    | some q => sh.pond.map (fun b => ({ qid := q, key := e.1, cap := cap, block := b } : LeftBlock))
    | none => []))
  (s.host.leftover ++ shares).foldl (fun l b => b.into l) []

/-- What waits in the ponds of a worker leaves in order while its path takes blocks (R51, R405). -/
def State.drainRings (s : State) : State :=
  let l := s.pondBlocks
  if s.isWorker && s.ringClear && !l.isEmpty then
    let clear := fun (x : Stream) => { x with sample := { x.sample with pond := [] }, capture := { x.capture with pond := [] } }
    let s := { s with host := { s.host with leftover := [], streams := s.host.streams.map (fun e => (e.1, clear e.2)) } }
    l.foldl (fun (s : State) b => s.sendBlock b.key b.cap b.qid b.block) s
  else s

/-- A block or record for a queue is dropped: it counts in the context and raises QUEUE_LOSS; a worker tells the manager, which holds the
context (R406, log 31). -/
def State.dropOne (s : State) (q : Nat) : State :=
  if s.isWorker then (s.queueLost q 1).sendAcked .cmd 0 (mkRec [⟨3, 0, 8, 7⟩, ⟨4, 0, 64, 1⟩, ⟨16, 0, 64, q⟩])
  else (s.queueLost q 1).raiseQueueLoss q

/-- The open block of a share is posted: into the pond share while there is room; against a full share the queue's POLICY drops a block
(R110, R405, R406). A queue that is not live loses it (R46). On a worker a block goes on to the manager as soon as its path takes it,
and a stalled path fills the share in the same way (R46, R51). -/
def State.postBlock (s : State) (k : Nat) (cap : Bool) : State :=
  let sh := (s.stream k).share cap
  match sh.openBlock, sh.qid with
  | some b, some q =>
    if s.isWorker && s.ringClear then
      let b := if sh.gapNext then b.markGap else b
      (s.drainRings.modShare k cap (fun x => { x with openBlock := none, gapNext := false })).sendBlock k cap q b
    else if !s.isWorker && !(s.queue q).live then
      s.modShare k cap (fun x => { x with openBlock := none, gapNext := true })
    else
      let b := { (if sh.gapNext then b.markGap else b) with done := s.now }
      if sh.pond.length < (s.queue q).pond then
        s.modShare k cap (fun x => { x with openBlock := none, gapNext := false, pond := x.pond ++ [b] })
      else if (s.queue q).policy then
        let push := fun (x : Share) =>
          { x with openBlock := none, gapNext := false, pond := markHead ((x.pond ++ [b]).drop 1) }
        (s.modShare k cap push).dropOne q
      else
        (s.modShare k cap (fun x => { x with openBlock := none, gapNext := true })).dropOne q
  | _, _ => s.modShare k cap (fun x => { x with openBlock := none })

/-- A binding ends: the open block is posted, and what waits in the pond still goes to the queue (R110, R204, R405, R415). -/
def State.endShare (s : State) (k : Nat) (cap : Bool) : State :=
  let s := s.postBlock k cap
  let sh := (s.stream k).share cap
  let left := match sh.qid with
    | some q => sh.pond.map (fun b => ({ qid := q, key := k, cap := cap, block := b } : LeftBlock))
    | none => []
  ({ s with host := { s.host with leftover := s.host.leftover ++ left } }).modShare k cap (fun _ => {})

/-- A job in hand belongs to a stream. -/
def State.jobOf (s : State) (k : Nat) (j : Job) : Bool := streamKey s.ring.nodeNo j.tile j.slot j.chain 0 = k

/-- Both open blocks of a stream close: now, or, while stage-B jobs of the stream are in hand, when the last of them has brought its word
(R110, R199). -/
def State.closeBlocks (s : State) (k : Nat) : State :=
  match (s.jobs.filter (s.jobOf k)).getLast? with
  | none => (s.postBlock k false).postBlock k true
  | some j => { s with jobs := s.jobs.map (fun x => if x = j then { x with ends := true } else x) }

/-- One word into a share: a damped capture stream takes only the samples whose number is a multiple of 2^STEP
(R394), a change of STEP acts at a block boundary (R411), twelve words make a block (R44). The GAP of a word not taken goes to the next
one that is (R14). -/
def State.toShare (s : State) (k : Nat) (cap : Bool) (w : Word) (seq time : Nat) : State :=
  let sh := (s.stream k).share cap
  match sh.qid with
  | none => s
  | some _ =>
    let step := if sh.openBlock.isNone then sh.nextStep else sh.step
    if seq % 2 ^ step ≠ 0 then s.modShare k cap (fun x => { x with step := step, gapNext := x.gapNext || hasFlag w fGAP })
    else
      match sh.openBlock with
      | none =>
        let b : Block := { time := time, seq := seq, done := 0, step := step, words := [w] }
        s.modShare k cap (fun x => { x with step := step, openAt := s.now, openBlock := some b })
      | some b =>
        let b := { b with words := b.words ++ [w] }
        let s := s.modShare k cap (fun x => { x with openBlock := some b })
        if 12 ≤ b.words.length then s.postBlock k cap else s

/-- A stove may read a stream: its hearth holds it, as far as this node knows who does (R204, R277). -/
def State.feeds (s : State) (k v : Nat) : Bool := !s.knowsHolder k || s.stoveOwner v = s.streamHolder k

/-- The input ports of the holder's stoves bound to a stream: the word travels to each through the fabric of the stove's die, where it asks
for service at the present instant (R30, R32, R204, R287). -/
def State.toPorts (s : State) (k : Nat) (w : Word) (seq time : Nat) : State :=
  let out := s.stoveTab.flatMap (fun e => e.2.ports.filterMap (fun p =>
    if p.2.bound = some k && s.feeds k e.1 then
      some { stove := e.1, port := p.1, src := k, since := s.node.clock, word := w, seq := seq, time := time : FabricWord }
    else none))
  { s with fabric := s.fabric ++ out }

/-- A 64 B record of a law or a metering window for a queue of a hearth: 64 wait at most, as R407 has it; on a worker it goes to
the manager (R291, R352, log 39). -/
def State.postRecord (s : State) (qid val hearth : Nat) : State :=
  let mine := s.host.recWait.filter (fun x => x.1 = qid)
  if s.hearthFenced hearth then s
  else if s.isWorker then s.sendFrame { type := .capture, dst := some 0, aux := qid, body := val }
  else if mine.length < 64 then { s with host := { s.host with recWait := s.host.recWait ++ [(qid, val)] } }
  else if (s.queue qid).policy then
    let s := { s with host := { s.host with recWait := s.host.recWait.erase (mine.headD (qid, 0)) ++ [(qid, val)] } }
    s.dropOne qid
  else s.dropOne qid

/-- A word at the V or the I input of a pair: a word whose parity fails is not used, and the next accepted one carries GAP (R104, R335). -/
def Pair.takeV (p : Pair) (x : PairWord) (bad : Bool) : Pair :=
  if bad then { p with vGap := true }
  else { p with vIn := ({ x with word := if p.vGap then setFlag x.word fGAP else x.word } :: p.vIn).take 300, vGap := false }
def Pair.takeI (p : Pair) (x : PairWord) (bad : Bool) : Pair :=
  if bad then { p with iGap := true }
  else { p with iIn := ({ x with word := if p.iGap then setFlag x.word fGAP else x.word } :: p.iIn).take 300, iGap := false }

/-- A chain-1 word reaches the pairs that read its tile and slot; `bad`: its parity fails there, which is reported (R104, R332, R333). -/
def State.toPairs (s : State) (tile slot edge : Nat) (w : Word) (time : Nat) (bad : Bool) : State :=
  let x : PairWord := { edge := edge, time := time, word := w }
  let isV := fun (p : Pair) => p.state ≠ .unconfigured && p.vTile = tile && p.vSlot = slot
  let isI := fun (p : Pair) => p.state ≠ .unconfigured && p.iTile = tile && p.iSlot = slot
  let s := if bad && s.pairTab.any (fun e => isV e.2 || isI e.2) then s.report 0x05 tile 0 else s
  { s with pairTab := s.pairTab.map (fun e =>
      let p := if isV e.2 then e.2.takeV x bad else e.2
      (e.1, if isI e.2 then p.takeI x bad else p)) }

/-- EPOCH when sample 0 of a new epoch falls, delivered or not; in the RAM log only; once per stream in 10 ms (R594). -/
def State.epoch (s : State) (k time : Nat) : State :=
  if (s.stream k).epochDue then
    let s := s.modStream k (fun x => { x with epochDue := false })
    let h := s.streamHolder k
    let det := keySlot k + keyKind k * 32 + keySpan k * 128 + time * 2 ^ 64
    let s := s.logRec { time := s.now, kind := 0x0904, node := s.ring.nodeNo, hearth := h, subject := keyTile k,
                        detail := det, noFlash := true }
    s.raiseLim (k % 2 ^ 40) 0x0904 h (keyTile k) det
  else s

/-- The sequence number of a stream advances by one sample (R109). -/
def State.advanceSeq (s : State) (k : Nat) : State :=
  s.modStream k (fun x => { x with seq := (x.seq + 1) % 2 ^ 32, epochDue := x.epochDue || x.seq + 1 = 2 ^ 32 })

/-- A sample of a stream is lost: it takes its number, its block closes, the next one carries GAP (R14, R109, R110). -/
def State.loseSample (s : State) (k time : Nat) : State :=
  let s := s.epoch k time
  ((s.closeBlocks k).modStream k (fun x => { x with gapDue := true })).advanceSeq k

/-- A sample of a stream is formed: its sequence number, whether GAP is due on it, and the state in which it has taken both (R109, R224). -/
def State.takeSample (s : State) (k time : Nat) : (Nat × Bool) × State :=
  let s := s.epoch k time
  let x := s.stream k
  ((x.seq, x.gapDue), (s.modStream k (fun x => { x with gapDue := false })).advanceSeq k)

/-- A PROMPT segment goes to a node: with those handed over for it at this instant, up to the 256 B of a frame, which hold eleven, else in a
frame of its own (R424, R429). -/
def State.sendPrompt (s : State) (node : Nat) (g : Segment) : State :=
  let r := s.ring
  let mine := fun (f : FrameOut) => f.at_ = s.node.clock && f.type = .prompt && f.dst = some node && !f.passing && f.aux < 11
  match r.bypassClosed, r.out.find? mine with
  | false, some f =>
    let f' := { f with aux := f.aux + 1, body := f.body + segmentBytes g * 2 ^ (160 * f.aux) }
    { s with ring := { r with out := r.out.map (fun x => if x = f then f' else x) } }
  | _, _ => s.sendFrame { type := .prompt, dst := some node, aux := 1, body := segmentBytes g }

/-- A word of a stream goes to the stove inputs and the ring (R32, R100, R429). -/
def State.bringPorts (s : State) (k : Nat) (w : Word) (seq time : Nat) : State :=
  let g : Segment := {
    src := keyNode k, tile := keyTile k, slot := keySlot k, kind := keyKind k, span := keySpan k, seq := seq, time := time, words := [w] }
  (s.ring.prompts.filter (fun p => p.1 = k)).foldl (fun (s : State) p => s.sendPrompt p.2 g) (s.toPorts k w seq time)

/-- A word of a stream goes to the ponds of its queues. With the holder's hearth fenced they receive nothing (R522). -/
def State.bringPonds (s : State) (k : Nat) (w : Word) (seq time : Nat) : State :=
  if s.hearthFenced (s.streamHolder k) then
    (s.modShare k false (fun x => { x with openBlock := none, gapNext := true })).modShare k true
      (fun x => { x with openBlock := none, gapNext := true })
  else (s.toShare k false w seq time).toShare k true w seq time

/-- A word of a stream with the number and the GAP it has taken: stove inputs before pond writes (R32). -/
def State.bring (s : State) (k : Nat) (w : Word) (seq time : Nat) (gap : Bool) : State :=
  let w := if gap then setFlag w fGAP else w
  (s.bringPorts k w seq time).bringPonds k w seq time

/-- A word formed now goes to every consumer of its stream (R100). -/
def State.deliver (s : State) (k : Nat) (w : Word) (time : Nat) : State :=
  let x := s.takeSample k time
  x.2.bring k w x.1.1 time x.1.2

end Sys2Proof.Machine
end

