-- ==== Sys2Proof/Machine/Admission.lean ====
section
/-! DEFINITION. Rates, the filter-engine budget and the admission of streams (R47 to R50, R161, R201, R404, R431). -/

set_option Elab.async false

namespace Sys2Proof.Machine

/-! ### Rates (R159, R213, R577) -/

/-- The edges of a pass or scan: SETTLE and REPEAT of every slot (R159). -/
def passEdges (l : List Nat) : Nat := l.foldl (fun a d => a + dSettle d + dRepeat d) 0

/-- Sequencer edges between conversions of one slot. -/
def Seq.spacing (q : Seq) : Nat := if q.mode = .scan then passEdges q.active else 1

/-- Draught edges between sequencer edges: 2 in FORCE_SENSE and on a derated die (R124, R577). -/
def State.edgeStep (s : State) (n : Nat) : Nat :=
  if (s.tile n).force.mode = .forceSense || s.node.derated.contains (dieOfTile n) then 2 else 1

/-- p of R213: draught edges between conversions of one slot. -/
def State.spacing (s : State) (n : Nat) : Nat := (s.tile n).seq.spacing * s.edgeStep n

/-- The committed list and mode of a tile: those of a commit that waits for its effective edge, else those in force (R47, R167). -/
def Seq.planned (q : Seq) : Seq :=
  match q.commit with
  | some c => { q with active := c.list, mode := c.mode }
  | none => q

/-- The rate of a slot in ACQ, which admission uses (R201), under the committed list. -/
def State.convRate (s : State) (n : Nat) : Rat :=
  20480000 / (((s.tile n).seq.planned.spacing * (if s.node.derated.contains (dieOfTile n) then 2 else 1) : Nat) : Rat)

/-- D of R185 and the tap count, 0 when stage B is bypassed. -/
def Chain.ratio (c : Chain) : Nat := c.da * 2 ^ c.rbLog2
def Chain.taps (c : Chain) : Nat := if c.bypassB then 0 else c.ntaps
/-- The filter memory M of R186. -/
def Chain.mem (c : Chain) : Nat := c.da * ((if c.bypassB then 1 else c.ntaps) - 1) + 4 * c.da - 3

def State.chainRate (s : State) (n c : Nat) : Rat := s.convRate n / ((((s.tile n).chain c).ratio : Nat) : Rat)

/-- The slots of a tile that feed a chain. -/
def Seq.feeding (q : Seq) (c : Nat) : List Nat :=
  (List.range q.active.length).filter (fun i => dChain (q.active.getD i 0) c)

/-! ### The workers as the manager knows them (log 19) -/

def State.view (s : State) (n : Nat) : NodeView := tget {} s.views n

/-- The configuration of worker n in place of the manager's own. -/
def State.asNode (s : State) (n : Nat) : State :=
  let v := s.view n
  { s with
    node := { s.node with role := 2, derated := v.derated }, ring := { s.ring with nodeNo := n },
    tiles := v.tiles, stoveTab := v.stoves, pairTab := v.pairs, trust := v.trust }

/-- The manager knows the configuration of worker n to be that of t. -/
def State.putView (s : State) (n : Nat) (t : State) : State :=
  { s with views := tset s.views n { tiles := t.tiles, stoves := t.stoveTab, pairs := t.pairTab, trust := t.trust, derated := t.node.derated } }

/-- Draught edges between two words of a stream of this node; zero where nothing makes it. -/
def State.ownEdges (s : State) (k : Nat) : Nat :=
  let n := keyTile k
  let q := (s.tile n).seq.planned
  let d := q.active.getD (keySlot k) 0
  let p := q.spacing * (if s.node.derated.contains (dieOfTile n) then 2 else 1)
  if keyKind k = kRaw then (if dRaw d then p else 0)
  else if dChain d (keyKind k) then p * ((s.tile n).chain (keyKind k)).ratio else 0

/-- The same of a stream of any node: the manager has it from the configuration it has forwarded, a worker from the manager. -/
def State.streamEdges (s : State) (k : Nat) : Nat :=
  if keyNode k = s.ring.nodeNo then s.ownEdges k
  else if s.isWorker then tget 0 s.ring.spacings k
  else (s.asNode (keyNode k)).ownEdges k

/-- The rate of a stream; zero where nothing makes it. -/
def State.streamRate (s : State) (k : Nat) : Rat :=
  let p := s.streamEdges k
  if p = 0 then 0 else 20480000 / ((p : Nat) : Rat)

/-- The trigger rate of a law (R294). -/
def State.lawRate (s : State) (v : Stove) (l : Law) : Rat :=
  let rates := ((List.range 16).filter (fun p => bitAt l.trigMask p)).map (fun p =>
    match (tget {} v.ports p).bound with
    | some k => s.streamRate k
    | none => 0)
  match l.trigKind, rates with
  | 0, _ => rates.foldl (· + ·) 0
  | 1, q :: t => t.foldl min q
  | _, _ => 0

/-- What the enabled laws of a stove can release by triggers that come at a static rate. -/
def State.releaseRate (s : State) (v : Stove) : Rat :=
  (v.laws.filter (fun e => e.2.enable)).foldl (fun a e => a + s.lawRate v e.2) 0

/-! ### The filter engine (R201) -/

/-- Tiles of a die. -/
def dieTiles (d : Nat) : List Nat := (List.range 32).map (fun t => 32 * d + t)

/-- The streams of a die with their chains: tile, chain, taps, rate; one entry for each slot that feeds the chain. -/
def State.engineStreams (s : State) (d : Nat) : List (Nat × Nat × Nat × Rat) :=
  (dieTiles d).flatMap (fun n => [0, 1].flatMap (fun c =>
    ((s.tile n).seq.planned.feeding c).map (fun _ => (n, c, ((s.tile n).chain c).taps, s.chainRate n c))))

/-- The frequency step of a die's filter engine (R27, R202). -/
def State.engineStep (s : State) (d : Nat) : Nat := tget 7 s.node.engineStep d

/-- Σ N over the streams of a die, and Σ N f. -/
def tapSum (l : List (Nat × Nat × Nat × Rat)) : Nat := l.foldl (fun a e => a + e.2.2.1) 0
def macSum (l : List (Nat × Nat × Nat × Rat)) : Rat := l.foldl (fun a e => a + (e.2.2.1 : Rat) * e.2.2.2) 0

/-- L_B of R201 in nanoseconds, for a tap sum and N: the engine's share of a latency grows as a whole at a lower step (R28). -/
def engineLb (step sum n : Nat) : Rat := ((8 + (sum + 15) / 16 + n : Nat) : Rat) * 8 / ((step + 1 : Nat) : Rat)

/-- The engine of a die fails the rate budget or the latency bound at a step. -/
def State.engineBadAt (s : State) (d step : Nat) : Bool :=
  let l := s.engineStreams d
  decide (2000000000 * ((step + 1 : Nat) : Rat) < macSum l)
  || l.any (fun e => e.2.2.1 ≠ 0 && decide ((1000000000 : Rat) < engineLb step (tapSum l) e.2.2.1 * e.2.2.2))

/-- The ageing state of a die, and the step a commit is checked at: the lower one while a lowering is held pending (R202, R584). -/
def State.ageOf (s : State) (d : Nat) : DieAge := tget {} s.age.dies d
def State.engineStepChecked (s : State) (d : Nat) : Nat := s.engineStep d - b2n (s.ageOf d).filtPend
def State.fabricStepChecked (s : State) (d : Nat) : Nat := (s.ageOf d).fabricStep - b2n (s.ageOf d).fabricPend

def State.engineBad (s : State) (d : Nat) : Bool := s.engineBadAt d (s.engineStepChecked d)

/-- The chain limits of R161. -/
def State.chainLimitBad (s : State) (n c : Nat) : Bool :=
  let k := ((s.tile n).seq.planned.feeding c).length
  decide (8 < k) || decide (768 < k * ((s.tile n).chain c).taps)

/-! ### Paths (R47 to R50, R404, R431) -/

/-- The line rate of a RATE code in tenths of GT/s (R613). -/
def rateTenths (r : Nat) : Nat := [0, 25, 50, 80, 160, 320].getD r 0

/-- The PCIe admissible figure in entries per second, exact (R49). -/
def State.pcieAdmit (s : State) : Rat :=
  (9 : Rat) / 10 * ((rateTenths s.host.rate * 100000000 * s.host.width : Nat) : Rat) * 128 / 130 / 8 / 88

/-- Entries per second of the streams bound to sample queues (R48). -/
def State.admitted (s : State) : Rat :=
  s.host.streams.foldl (fun a e => if e.2.sample.qid.isSome then a + s.streamRate e.1 / 12 else a) 0

/-- The stoves that read a stream on an input port. -/
def State.readers (s : State) (k : Nat) : List Nat :=
  (s.stoveTab.filter (fun e => e.2.ports.any (fun p => p.2.bound = some k))).map (fun e => e.1)

/-- A stream leaves its die toward die 0: for a queue, for the ring, for a stove of another die. -/
def State.leavesDie (s : State) (k : Nat) : Bool :=
  (s.stream k).sample.qid.isSome || s.ring.prompts.any (fun p => p.1 = k)
  || (s.readers k).any (fun v => v / 4 ≠ dieOfTile (keyTile k))

/-- Every stream that something reads. -/
def State.boundStreams (s : State) : List Nat :=
  ((s.host.streams.map (fun e => e.1)) ++ (s.stoveTab.flatMap (fun e => e.2.ports.filterMap (fun p => p.2.bound)))).eraseDups

/-- A path of R47: the PCIe link, the entries of all sample queues, a flue bridge toward die 0 or from it, and a link direction of the
ring: place i lies between the nodes at places i and i + 1 of ring A; `brk` is the place where the ring is broken (R50, R404, R431). -/
inductive Path where
  | pcie
  | entries
  | flue (die : Nat) (up : Bool)
  | link (place : Nat) (ringA : Bool) (brk : Option Nat)
  deriving DecidableEq, Repr

/-- What a flue direction of die d carries, in bits per second: streams by their key, force targets of a stove by its binding (R47, R48). -/
def State.flueLoads (s : State) (d : Nat) (up : Bool) : List (Nat × Rat) :=
  let streams := s.boundStreams.filterMap (fun k =>
    let here := dieOfTile (keyTile k) = d && keyNode k = s.ring.nodeNo
    let hit := if up then here && s.leavesDie k else !here && (s.readers k).any (fun v => v / 4 = d)
    if hit then some (k, s.streamRate k * 512 / 12) else none)
  let targets := s.stoveTab.flatMap (fun e => e.2.forceBind.filterMap (fun b =>
    let a := if up then e.1 / 4 else dieOfTile b.2.2
    if e.1 / 4 ≠ dieOfTile b.2.2 && a = d then some (8 * e.1 + b.1, s.releaseRate e.2 * 512 / 12) else none))
  streams ++ targets

/-- The link directions a flow crosses, from node src to node dst, or to every node, in a ring of these nodes broken at a place or not
(R50, R425). -/
def linksCrossed (order : List Nat) (brk : Option Nat) (src : Nat) (dst : Option Nat) : List (Nat × Bool) :=
  let n := order.length
  let run := fun (i h : Nat) (a : Bool) => (List.range h).map (fun t => ((i + t) % n, a))
  let whole := fun (l : List (Nat × Bool)) => l.all (fun e => some e.1 ≠ brk)
  match dst with
  | none => if n ≤ 1 then [] else (run 0 n true ++ run 0 n false).filter (fun e => some e.1 ≠ brk)
  | some d =>
    match order.idxOf? src, order.idxOf? d with
    | some i, some j =>
      let a := run i ((j + n - i) % n) true
      let b := run j ((i + n - j) % n) false
      if whole a && (!whole b || a.length ≤ b.length) then a else b
    | _, _ => []

/-- A flow on the ring: what names it, its source, its destination (none: every node), PACKED or not, its wire bits per second (R431). -/
structure Flow where
  key : Nat
  src : Nat
  dst : Option Nat
  packed : Bool
  bps : Rat

/-- The streams of other nodes that stoves of this node read, with its number. -/
def State.reads (s : State) : List (Nat × Nat) :=
  (s.stoveTab.flatMap (fun e => e.2.ports.filterMap (fun p =>
    p.2.bound.bind (fun k => if keyNode k ≠ s.ring.nodeNo then some (k, s.ring.nodeNo) else none)))).eraseDups

/-- The streams that travel PROMPT, each with the node that reads it: as this node sends and reads them, and, on the manager, as its workers
do (R429). -/
def State.allReads (s : State) : List (Nat × Nat) :=
  (s.ring.prompts ++ s.reads ++ (if s.isManager then s.views.flatMap (fun e => (s.asNode e.1).reads) else [])).eraseDups

/-- The messages of this node's stoves (R431). -/
def State.msgFlows (s : State) : List Flow :=
  s.stoveTab.flatMap (fun e => e.2.msgBind.map (fun b =>
    ({ key := 2 ^ 60 + 1024 * s.ring.nodeNo + 16 * e.1 + b.1, src := s.ring.nodeNo, dst := if b.2.channel < 512 then some b.2.node else none,
       packed := false, bps := s.releaseRate e.2 * ((64 * ((max 64 (28 + b.2.length) + 15) / 8) : Nat) : Rat) } : Flow)))

/-- The flows on the ring: streams bound to the manager's queues, streams that travel PROMPT, message bindings; the manager knows them of
every node, a worker its own (R431). -/
def State.flows (s : State) : List Flow :=
  let queued := (s.host.streams.filter (fun e => e.2.sample.qid.isSome && (s.isWorker || keyNode e.1 ≠ s.ring.nodeNo))).map (fun e =>
    ({ key := e.1, src := keyNode e.1, dst := some 0, packed := true, bps := s.streamRate e.1 * 992 * 8 / 180 } : Flow))
  let prompt := s.allReads.map (fun p =>
    ({ key := p.1, src := keyNode p.1, dst := some p.2, packed := false, bps := s.streamRate p.1 * 576 } : Flow))
  let msgs := s.msgFlows ++ (if s.isManager then s.views.flatMap (fun e => (s.asNode e.1).msgFlows) else [])
  queued ++ prompt ++ msgs

/-- What a link direction carries, in bits per second: its flows, and 0.128 Gbit/s for each node with PACKED traffic there (R431, log 19). -/
def State.linkLoads (s : State) (place : Nat) (ringA : Bool) (brk : Option Nat) : List (Nat × Rat) :=
  let on := s.flows.filter (fun f => (linksCrossed s.ring.order brk f.src f.dst).contains (place, ringA))
  let packers := ((on.filter (·.packed)).map (·.src)).eraseDups
  on.map (fun f => (f.key, f.bps)) ++ packers.map (fun n => (n, 128000000))

/-- What a path carries. -/
def State.pathLoads (s : State) : Path → List (Nat × Rat)
  | .pcie | .entries => (s.host.streams.filter (fun e => e.2.sample.qid.isSome)).map (fun e => (e.1, s.streamRate e.1 / 12))
  | .flue d up => s.flueLoads d up
  | .link i a b => s.linkLoads i a b

/-- The lane rate of a port of a node, true 10 Gbit/s, as far as this node knows it (R419). -/
def Ring.slowAt (r : Ring) (node : Nat) (east : Bool) : Bool :=
  if node = r.nodeNo then (r.port east).rate else if east then (tget {} r.table node).rateE else (tget {} r.table node).rateW

/-- The admissible figure of a die's flue bridge (R28, R47). DESIGN CHOICE (log 79): its two ends stand in the fabric groups of two dies;
with those at different steps the figure shrinks by the lower fraction. -/
def State.flueAdmit (s : State) (d : Nat) : Rat :=
  36000000000 * ((min (s.fabricStepChecked d) (s.fabricStepChecked 0) + 1 : Nat) : Rat) / 8

/-- The admissible figure of a path (R47, R49, R404, R419). -/
def State.pathAdmit (s : State) : Path → Rat
  | .pcie => s.pcieAdmit
  | .entries => 16000000
  | .flue d _ => s.flueAdmit d
  | .link i _ _ =>
    let n := s.ring.order.length
    if s.ring.slowAt (s.ring.order.getD i 0) true || s.ring.slowAt (s.ring.order.getD ((i + 1) % n) 0) false then 32000000000
    else 80000000000

/-- The paths of this node, those of the ring intact and broken at each link in turn (R47, R50, R404). -/
def State.paths (s : State) : List Path :=
  let n := s.ring.order.length
  let places := if n ≤ 1 then [] else List.range n
  (if !s.isWorker && s.host.linkUp then [.pcie] else []) ++ [.entries]
    ++ ((List.range s.node.dies).filter (· ≠ 0)).flatMap (fun d => [.flue d true, .flue d false])
    ++ (if s.isAlone then [] else (none :: places.map some).flatMap (fun b =>
        (places.filter (fun i => some i ≠ b)).flatMap (fun i => [.link i true b, .link i false b])))

/-- A path carries more than it admits. -/
def State.pathOver (s : State) (p : Path) : Bool := decide (s.pathAdmit p < (s.pathLoads p).foldl (fun a e => a + e.2) 0)

/-- Some path carries more than it admits. -/
def State.pathBad (s : State) : Bool := s.paths.any s.pathOver

/-- Some flue bridge carries more than it admits (R47). -/
def State.flueBad (s : State) : Bool := s.paths.any (fun p => match p with
  | .flue _ _ => s.pathOver p
  | _ => false)

/-- Some link of the ring, intact or broken at one link, carries more than it admits (R50). -/
def State.ringBad (s : State) : Bool := s.paths.any (fun p => match p with
  | .link _ _ _ => s.pathOver p
  | _ => false)

/-- Pond entries of a die (R404). -/
def State.pondUse (s : State) (d : Nat) : Nat :=
  s.host.streams.foldl (fun a e =>
    let die := if keyNode e.1 = s.ring.nodeNo then dieOfTile (keyTile e.1) else 0
    let share := fun (x : Share) => match x.qid with
      | some q => (s.queue q).pond
      | none => 0
    if die = d then a + share e.2.sample + share e.2.capture else a) 0

/-- The pond of some die is over its total. -/
def State.pondBad (s : State) : Bool := (List.range s.node.dies).any (fun d => decide (49152 < s.pondUse d))

/-- Some path that a changed stream crosses would carry more than it admits in the state `new`, or static streams change while a pond is
over its total (R47, R201, R404). -/
def State.pathWorse (s new : State) : Bool :=
  new.paths.any (fun p => new.pathOver p && decide (new.pathLoads p ≠ s.pathLoads p))
  || (decide (new.pathLoads .entries ≠ s.pathLoads .entries) && new.pondBad)

/-- What the state `new` of worker n would put on the paths fails the manager's checks (R47, R50, R404). -/
def State.awayOver (s : State) (n : Nat) (new : State) : Bool := s.pathWorse (s.putView n new)

/-- The manager tells nodes the spacing of the streams that they read, where it has changed (log 19, log 31). -/
def State.tellRates (s : State) (l : List (Nat × Nat)) : State :=
  l.foldl (fun (s : State) x =>
    let p := s.streamEdges x.1
    if x.2 = 0 || keyNode x.1 = x.2 || s.ring.told.contains (x, p) then s
    else
      let s := s.sendAcked .cmd x.2 (mkRec [⟨3, 0, 8, 6⟩, ⟨4, 0, 64, p⟩, ⟨16, 0, 64, x.1⟩])
      { s with ring := { s.ring with told := (x, p) :: s.ring.told.filter (fun y => y.1 ≠ x) } }) s

/-- The checks of a commit that concerns tile n and leads to the state `new`: R47, R161, R201, R404. -/
def State.budgetBad (s new : State) (n : Nat) : Bool :=
  new.engineBad (dieOfTile n) || new.chainLimitBad n 0 || new.chainLimitBad n 1 || s.pathWorse new

/-! ### The load of a stove (R294) -/

/-- The step of a die's stoves, and the frequency of a cycle in cycles per second (R28). -/
def State.stoveStep (s : State) (d : Nat) : Nat := tget 7 s.node.stoveStep d
def cycleNs (step : Nat) : Rat := (8 : Rat) / ((step + 1 : Nat) : Rat)

/-- Σ MAX_CYCLES x cycle time x trigger rate over the stove's enabled laws. -/
def State.stoveLoad (s : State) (v : Stove) (step : Nat) : Rat :=
  (v.laws.filter (fun e => e.2.enable)).foldl
    (fun a e => a + ((e.2.maxCycles : Nat) : Rat) * cycleNs step * s.lawRate v e.2 / 1000000000) 0

/-- The load check of R294 at a step. -/
def State.loadBad (s : State) (v : Stove) (step : Nat) : Bool :=
  decide ((9 : Rat) / 10 < s.stoveLoad v step)
  || v.laws.any (fun e => e.2.enable && e.2.trigKind ≤ 1
      && decide ((1000000000 : Rat) ≤ ((e.2.maxCycles : Nat) : Rat) * cycleNs step * s.lawRate v e.2))

/-- The step a law is checked at (R294, R584). -/
def State.stoveStepChecked (s : State) (d : Nat) : Nat := s.stoveStep d - b2n (s.ageOf d).stovePend

/-- Some stove of a die fails its load check at a step. -/
def State.stovesBad (s : State) (d step : Nat) : Bool := [0, 1, 2, 3].any (fun i => s.loadBad (s.stove (4 * d + i)) step)

/-! ### Lowerings held pending (R202, R584) -/

def State.modAge (s : State) (d : Nat) (f : DieAge → DieAge) : State :=
  { s with age := { s.age with dies := tmod {} s.age.dies d f } }

/-- A commit on die d has passed: the pending lowerings that pass at the lower step take effect. -/
def State.takePending (s : State) (d : Nat) : State :=
  let a := s.ageOf d
  let s := if a.filtPend && !s.engineBad d then
      let s := { s with node := { s.node with engineStep := tset s.node.engineStep d (s.engineStep d - 1) } }
      s.modAge d (fun a => { a with filtPend := false })
    else s
  let s := if a.stovePend && !s.stovesBad d (s.stoveStepChecked d) then
      let s := { s with node := { s.node with stoveStep := tset s.node.stoveStep d (s.stoveStep d - 1) } }
      s.modAge d (fun a => { a with stovePend := false })
    else s
  (List.range s.node.dies).foldl (fun (s : State) d =>
    if (s.ageOf d).fabricPend && !s.flueBad then
      s.modAge d (fun a => { a with fabricStep := a.fabricStep - 1, fabricPend := false })
    else s) s

end Sys2Proof.Machine
end

