-- ==== Sys2Proof/Machine/Lmap.lean ====
section
/-! DEFINITION. The lake map: walks, the TLB, and the reading of command data from host memory (R399 to R402). -/

set_option Elab.async false

namespace Sys2Proof.Machine

/-- A little-endian read of n bytes of host memory; none when a byte is not answered. -/
def hostRead (cells : List Host.Cell) (a : Nat) : Nat → Option Nat
  | 0 => some 0
  | n + 1 =>
    match cells.find? (fun c => c.1 = a), hostRead cells (a + 1) n with
    | some c, some v => some (c.2.toNat + 256 * v)
    | _, _ => none

/-- The index of an address at a level, and the page bits of a leaf there (R399). -/
def lmapIndex (iova level : Nat) : Nat :=
  if level = 4 then bits iova 39 13 else bits iova (12 + 9 * (level - 1)) 9
def lmapPageBits (level : Nat) : Nat := 12 + 9 * (level - 1)

/-- The walk of R401 from one table down; the fault reasons are 1 NOT_VALID, 2 DENIED, 3 FORMAT, 4 RANGE, 5 BUS. -/
def lmapWalk (cells : List Host.Cell) (iova : Nat) (wr : Bool) (fn : Nat) : List Nat → Nat → Except Nat TlbEntry
  | [], _ => .error 3
  | level :: rest, table =>
    match hostRead cells (table + 8 * lmapIndex iova level) 8 with
    | none => .error 5
    | some e =>
      if bits e 0 1 = 0 then .error 1
      else if bits e 4 8 ≠ 0 || bits e 52 12 ≠ 0 || (level = 4 && bitAt e 3) || (level = 1 && !bitAt e 3) then .error 3
      else
        let addr := bits e 12 40 * 4096
        if bitAt e 3 then
          let n := lmapPageBits level
          if addr % 2 ^ n ≠ 0 then .error 3
          else if (!wr && !bitAt e 1) || (wr && !bitAt e 2) then .error 2
          else .ok { fn := fn, base := iova / 2 ^ n * 2 ^ n, bits := n, addr := addr, rd := bitAt e 1, wr := bitAt e 2 }
        else lmapWalk cells iova wr fn rest addr

/-- A TLB entry covers an address of its function. -/
def TlbEntry.hit (t : TlbEntry) (fn iova : Nat) : Bool := t.fn = fn && iova / 2 ^ t.bits * 2 ^ t.bits = t.base

/-- The translation of one address: the TLB, else the walk (R401). A function whose EN has not taken effect
has no live lake map: NOT_VALID (log 29). -/
def State.resolve (s : State) (cells : List Host.Cell) (fn iova : Nat) (wr : Bool) : Except Nat TlbEntry :=
  if 2 ^ 52 ≤ iova then .error 4
  else if !(s.fn fn).root.active then .error 1
  else match s.host.tlb.find? (fun t => t.hit fn iova) with
    | some t => if (!wr && !t.rd) || (wr && !t.wr) then .error 2 else .ok t
    | none => lmapWalk cells iova wr fn [4, 3, 2, 1] (s.fn fn).root.lmapRoot

/-- Inserts a translation as most recent; when the functions hold more than the 3,584 shared entries beyond their guaranteed 512, the least
recent entry of one that does so goes (R402). -/
def State.tlbInsert (s : State) (t : TlbEntry) : State :=
  let l := t :: s.host.tlb.filter (fun x => x ≠ t)
  let count := fun f => (l.filter (fun y => y.fn = f)).length
  let shared := ((List.range 9).map (fun f => count f - 512)).foldl (· + ·) 0
  let l := if shared ≤ 3584 then l else
    match l.reverse.find? (fun x => 512 < count x.fn) with
    | some v => l.erase v
    | none => l
  { s with host := { s.host with tlb := l } }

/-- LMAP_FAULT to the function: SUBJECT a QID or 0x8000_0000 for command data (R396, R401). A read that failed also reports HOST_READ,
for the queue q that needed it (R359). -/
def State.lmapFault (s : State) (fn q subject iova reason : Nat) : State :=
  let s := s.raise 0x0902 (hearthOfFn fn) subject (iova % 2 ^ 64 + reason * 2 ^ 64)
  if reason = 5 then s.report 0x1D q 0 else s

/-- A queue stops for the fault of an access to its ring or context: a translation fault, or, with reason 0, a read that failed (R392,
R401). -/
def State.stopAccess (s : State) (fn q iova reason : Nat) : State :=
  if reason = 0 then (s.report 0x1D q 0).stopQueue q 2 else (s.lmapFault fn q q iova reason).stopQueue q 1

/-- A range of command data in host memory: where, how long, whether the device writes it, its alignment. -/
structure DataRange where
  addr : Nat
  len : Nat
  wr : Bool
  align : Nat := 1
  /-- The SUBJECT of a fault: command data, or the QID of a context (R396). -/
  subject : Nat := 0x80000000

/-- The 4 KiB pages of a range. -/
def DataRange.pages (d : DataRange) : List Nat :=
  if d.len = 0 then [] else
    (List.range ((d.addr + d.len - 1) / 4096 - d.addr / 4096 + 1)).map
      (fun i => if i = 0 then d.addr else (d.addr / 4096 + i) * 4096)

/-- Translates every page, inserting what it finds; the first fault with its address, if any (R401). -/
def State.translateAll (s : State) (cells : List Host.Cell) (fn : Nat) (wr : Bool) : List Nat → State × Option (Nat × Nat)
  | [] => (s, none)
  | a :: t =>
    match s.resolve cells fn a wr with
    | .error e => (s, some (a, e))
    | .ok x => (s.tlbInsert x).translateAll cells fn wr t

/-- One byte of command data: by its bus address, or, in a forwarded command, by its own address, since
the manager read the operand (R432). None: the read failed. -/
def State.dataByte (s : State) (r : Req) (a : Nat) : Option Byte :=
  match r.origin with
  | .frame _ _ => (r.host.find? (fun c => c.1 = a)).map (fun c => c.2)
  | .ring =>
    match s.resolve r.host r.fn a false with
    | .error _ => none
    | .ok t => (r.host.find? (fun c => c.1 = t.addr + (a - t.base))).map (fun c => c.2)

/-- The bytes of a data range, as far as host memory answers. -/
def State.dataBytes (s : State) (r : Req) (a n : Nat) : List Byte :=
  (List.range n).map (fun i => (s.dataByte r (a + i)).getD 0)

/-- Every byte of a range read is answered. -/
def State.dataAnswered (s : State) (r : Req) (a n : Nat) : Bool :=
  (List.range n).all (fun i => (s.dataByte r (a + i)).isSome)

/-- The little-endian value of bytes. -/
def leNat : List Byte → Nat
  | [] => 0
  | b :: t => b.toNat + 256 * leNat t

/-- The weight of a function on PCIe: 32 for the PF, 16 for a hearth until HEARTH_SHARES sets it (R458, R464). -/
def State.pcieWeight (s : State) (f : Nat) : Nat := if f = 0 then 32 else tget 16 s.trust.pcieW (f - 1)

/-- A function has credit left in the present round: 64 B for each unit of its weight (R464, log 20). -/
def State.credit (s : State) (f : Nat) : Bool := decide (tget 0 s.host.served f < 64 * s.pcieWeight f)

/-- Bytes of a function that PCIe serves by weight; without credit they open the next round (R464). -/
def State.spend (s : State) (f bytes : Nat) : State :=
  { s with host := { s.host with
    served := if s.credit f then tset s.host.served f (tget 0 s.host.served f + bytes) else [(f, bytes)] } }

/-- Translates the data ranges of a command before anything changes (R401): a fault raises LMAP_FAULT, and a
read that gets no completion reports HOST_READ (R359); false: the command completes with BAD_PARAM. -/
def State.mapData (s : State) (r : Req) : List DataRange → State × Bool
  | [] => (s, true)
  | d :: t =>
    if d.addr % d.align ≠ 0 then (s, false)
    else match r.origin with
      | .frame _ _ => s.mapData r t
      | .ring =>
        match s.translateAll r.host r.fn d.wr d.pages with
        | (s, some (a, e)) => (s.lmapFault r.fn r.qid d.subject a e, false)
        | (s, none) =>
          if !d.wr && !s.dataAnswered r d.addr d.len then (s.report 0x1D r.qid 0, false)
          else (if d.wr then s else s.spend r.fn d.len).mapData r t

/-- A result record of len bytes to the function's memory, unless a reset of the function has ended its queue (R371), or in a CPL frame to the manager, marked 0xFF in its STATUS byte (R432). -/
def State.writeResult (s : State) (r : Req) (addr len val : Nat) : State :=
  match r.origin with
  | .ring => if r.qid = goneQid then s else (s.emit (.data r.fn addr len val)).spend r.fn len
  | .frame tag _ =>
    s.sendAcked .cpl 0 (mkRec [⟨0, 0, 32, tag⟩, ⟨4, 0, 8, 0xFF⟩, ⟨6, 0, 16, len⟩, ⟨8, 0, 64, addr⟩, ⟨16, 0, 8 * len, val⟩])

end Sys2Proof.Machine
end

