-- ==== Sys2Proof/Machine/Run.lean ====
section
/-! DEFINITION. How a host command runs: header and role (R388, R466), refusals in the order of R605, the
change log's entry before the action (R479), the action, the completion (R391). -/

set_option Elab.async false

namespace Sys2Proof.Machine

/-- The code of a status (R627). -/
def Status.code : Status → Nat
  | .ok => 0 | .rights => 1 | .badParam => 2 | .busy => 3 | .notBlank => 4 | .bankXip => 5 | .loopClosed => 6
  | .budget => 7 | .sealed => 8 | .logFull => 9 | .fenced => 10 | .calDisagree => 11 | .rowExhausted => 12
  | .notProven => 13 | .timeout => 14 | .combination => 15

/-- The rank of a status in R605; the statuses that arise only after a start rank last. -/
def Status.rank : Status → Nat
  | .badParam => 1 | .rights => 2 | .fenced => 3 | .sealed => 4 | .notProven => 5 | .combination => 6 | .busy => 7
  | .loopClosed => 8 | .budget => 9 | .rowExhausted => 10 | .notBlank => 11 | .bankXip => 12 | .logFull => 13
  | .timeout => 14 | .calDisagree => 15 | .ok => 16

/-- The first status in the order of R605 among the conditions that hold. -/
def pickStatus : List (Bool × Status) → Option Status
  | [] => none
  | (false, _) :: t => pickStatus t
  | (true, x) :: t =>
    match pickStatus t with
    | none => some x
    | some y => if y.rank < x.rank then some y else some x

/-- What an action leaves: the state, and the completion's STATUS and RESULT, or `late` when the command
has started and a later happening ends it. -/
structure ActRes where
  st : State
  status : Status := .ok
  result : Nat := 0
  late : Bool := false

/-- How a command treats the NODE of its header (R388, R432). -/
inductive NodeUse where
  | forward | zeroOnly | argument
  deriving DecidableEq, Repr

/-- A command: what it names (R390), the host memory it uses (R401), its refusals, its action. `read`: a status or
record read, which runs under a fence (R523) and under FATAL (R376). -/
structure CmdSpec where
  opcode : Nat
  read : Bool := false
  fatalOk : Bool := false
  opLogged : Req → State → Bool := fun _ _ => false
  endLogged : Bool := false
  node : NodeUse := .forward
  names : Req → List (Nat × Nat) := fun _ => []
  data : Req → State → List DataRange := fun _ _ => []
  refuse : Req → Nat → State → List (Bool × Status)
  /-- What the manager itself refuses of a command for a worker, and whether what the command adds to the paths is checked (R47, R204, R277). -/
  away : Req → State → List (Bool × Status) := fun _ _ => []
  budget : Bool := false
  /-- What a refusal itself changes: failed sessions are counted (R471, R472). -/
  refused : Req → Status → State → State := fun _ _ s => s
  act : Req → State → ActRes

/-- Resource classes of R390. -/
def nTile (n : Nat) : Nat × Nat := (0, n)
def nChain (n c : Nat) : Nat × Nat := (1, 2 * n + c)
def nStove (n : Nat) : Nat × Nat := (2, n)
def nLoop (n l : Nat) : Nat × Nat := (3, 8 * n + l)
def nPair (n : Nat) : Nat × Nat := (4, n)
def nBank (b : Nat) : Nat × Nat := (5, b)
def nRow (d : Nat) : Nat × Nat := (6, d)
def nQueue (q : Nat) : Nat × Nat := (7, q)
def nDie (d : Nat) : Nat × Nat := (8, d)

/-- What two commands check against without naming a tile, chain, stove, loop, pair, bank, row, queue or die in common: 0 the sessions,
1 the admission, 2 the layout of the hearths, 3 a pending SYNC, 4 the QID ranges, 5 the protection, 6 the fault records, 7 the ring,
8 the plan, 9 the burns, 16 + g the reserve of group g (log 68). -/
def nNode (k : Nat) : Nat × Nat := (9, k)

/-- The resources that TILE, TILE with CHAIN, STOVE, STOVE with LOOP, and DIE with ROW name. -/
def tileNames (r : Req) : List (Nat × Nat) := [nTile (r.u 16 0 16)]
def chainNames (r : Req) : List (Nat × Nat) := [nTile (r.u 16 0 16), nChain (r.u 16 0 16) (r.u 18 0 1)]
def stoveNames (r : Req) : List (Nat × Nat) := [nStove (r.u 16 0 5)]
def loopNames (r : Req) : List (Nat × Nat) := [nStove (r.u 16 0 5), nLoop (r.u 16 0 5) (r.u 17 0 3)]
def rowNames (r : Req) : List (Nat × Nat) := [nDie (r.u 16 0 3), nRow (16 * r.u 16 0 3 + r.u 17 0 4)]

/-! ### Roles (R466 to R470) -/

/-- A session accepts a function: opened on the PF, or on that function (R466). -/
def Session.accepts (x : Session) (h fn : Nat) : Bool := x.handle = h && (x.fn = 0 || x.fn = fn)

/-- The role that a request has by the sessions open now; none: the handle is not one that is open here (R466). A session
opened without a password gives installer rights only to ROLE_PASSWORD SET and SESSION_CLOSE (R470). -/
def State.roleNow (s : State) (r : Req) : Option Who :=
  match r.origin with
  | .frame _ role => some { right := role, sess := role, serial := 0 }
  | .ring =>
    let h := r.u 8 0 32
    if h = 0 then some { right := 0, sess := 0, serial := 0 } else
    match s.roles.installer.filter (fun x => x.accepts h r.fn), s.roles.maker.filter (fun x => x.accepts h r.fn) with
    | some x, _ =>
      let full := !x.noPassword || r.opcode = 0x0B02 || (r.opcode = 0x0B03 && !r.b 16 0)
      some { right := if full then 1 else 0, sess := 1, serial := x.serial }
    | none, some x => some { right := 2, sess := 2, serial := x.serial }
    | none, none => none

/-- The role of a request: the one it held when it was fetched, where that was before (R467), else by the sessions open now. -/
def State.who (s : State) (r : Req) : Option Who :=
  match s.host.rights.find? (fun e => r.origin = Origin.ring && e.1 = (r.qid, r.entry)) with
  | some e => e.2
  | none => s.roleNow r

/-- A fetched command keeps the rights it holds now (R467). -/
def State.holdRights (s : State) (r : Req) : State :=
  { s with host := { s.host with rights := s.host.rights ++ [((r.qid, r.entry), s.roleNow r)] } }

/-- A command that carries a session keeps it open (R467). -/
def State.touchSession (s : State) (r : Req) : State :=
  let h := r.u 8 0 32
  let up := fun (x : Session) => if x.handle = h then { x with lastUse := s.now } else x
  { s with roles := { s.roles with installer := s.roles.installer.map up, maker := s.roles.maker.map up } }

/-! ### Completions (R391) -/

/-- Writes a queue's state half back to its context: bytes 32 to 63 (R379). -/
def Queue.stateHalf (q : Queue) (live : Bool) (streams : Nat) : Nat :=
  mkRec [⟨0, 0, 16, q.devIdx⟩, ⟨2, 0, 1, b2n q.devPhase⟩, ⟨2, 1, 1, b2n live⟩, ⟨2, 2, 1, b2n q.loss.sat⟩,
    ⟨2, 3, 2, q.damp⟩, ⟨3, 0, 8, q.err⟩, ⟨4, 0, 16, q.hostIdx⟩, ⟨6, 0, 1, b2n q.hostPhase⟩, ⟨8, 0, 32, q.loss.n⟩,
    ⟨12, 0, 32, q.entryCnt⟩, ⟨16, 0, 64, q.lastLoss⟩, ⟨24, 0, 16, streams⟩, ⟨26, 0, 16, q.inHand⟩]

/-- The streams bound to a queue. -/
def State.streamsOf (s : State) (q : Nat) : List Nat :=
  (s.host.streams.filter (fun e => e.2.sample.qid = some q || e.2.capture.qid = some q)).map (fun e => e.1)

/-- The address of a queue's context in its function's lake map (R369). -/
def State.ctxAddr (s : State) (q : Nat) : Nat :=
  match s.qidOwner q with
  | some f => (s.fn f).root.ctxBase + 64 * q
  | none => 0

/-- The state half of a context is written back through the lake map of its function; a translation that faults stops the queue (R381,
R401). -/
def State.writeBack (s : State) (cells : List Host.Cell) (q : Nat) (live : Bool) : State :=
  let f := (s.qidOwner q).getD 0
  match s.resolve cells f (s.ctxAddr q) true with
  | .error e => s.stopAccess f q (s.ctxAddr q) e
  | .ok t => (s.tlbInsert t).emit (.context q ((s.queue q).stateHalf live (s.streamsOf q).length))

/-- The queue leaves the device: state half written back with LIVE 0, context dropped (R414). Completions of its commands that wait keep its
DEV_IDX (R391). -/
def State.endQueue (s : State) (cells : List Host.Cell) (q : Nat) : State :=
  let x := s.queue q
  let s := s.writeBack cells q false
  let keep := fun (c : Cpl) => if c.qid = q then { c with head := some x.devIdx } else c
  { s with host := { s.host with
    queues := terase s.host.queues q, ctxOrder := s.host.ctxOrder.filter (· ≠ q), cplWait := s.host.cplWait.map keep } }

/-- A stopping admin pair comes to rest when no command is in hand and no completion of it waits (R367, R368). -/
def State.adminRest (s : State) (f : Nat) : State :=
  if (s.fn f).admin.stopping && (s.queue (2 * f)).inHand = 0 && s.host.cplWait.all (fun c => c.qid ≠ 2 * f) then
    s.modFn f (fun x => { x with admin := { x.admin with run := false, stopping := false } })
  else s

/-- The completion of one command: recorded, and waiting for its slot when the completion ring is live (R391), discarded where a reset of the
function has ended its queue (R371); a forwarded command answers with a CPL frame (R432). -/
def State.finishOne (s : State) (r : Req) (st : Status) (result : Nat) : State :=
  let c : Cpl := { cid := r.u 2 0 16, opcode := r.opcode, status := st, node := r.u 4 0 6, qid := r.qid, dest := (s.queue r.qid).cplQid,
                   time := s.now, result := result }
  let s := { s with host := { s.host with
    ended := c :: s.host.ended, rights := s.host.rights.eraseP (fun e => r.origin = Origin.ring && e.1 = (r.qid, r.entry)) } }
  match r.origin with
  | .frame tag _ =>
    let body := mkRec [⟨0, 0, 32, tag⟩, ⟨4, 0, 8, st.code⟩, ⟨8, 0, 64, result⟩, ⟨16, 0, 64, s.now⟩]
    let s := s.sendAcked .cpl 0 body
    let f : FrameOut := { type := .cpl, dst := some 0, aux := s.ring.tag, body := body }
    { s with ring := { s.ring with answered := ((0, tag, f) :: s.ring.answered).take 256 } }
  | .ring =>
    let q := s.queue r.qid
    if r.qid = goneQid then s
    else
      let s := s.modQueue r.qid (fun x => { x with inHand := x.inHand - 1, dirty := true })
      let s := if (s.queue q.cplQid).live then { s with host := { s.host with cplWait := s.host.cplWait ++ [c] } }
               else s
      if r.qid < 18 then s.adminRest (r.qid / 2) else s

/-- The completion of a command, and of a QUEUE_DESTROY that waited for it (R414). -/
def State.finish (s : State) (r : Req) (st : Status) (result : Nat) : State :=
  let s := s.finishOne r st result
  match s.host.ops.find? (fun o => o.opcode = 0x0902 && o.key = r.qid) with
  | none => s
  | some o =>
    let own := o.req.qid = r.qid
    if (s.queue r.qid).inHand = (if own then 1 else 0) then
      let s := { s with host := { s.host with ops := s.host.ops.erase o } }
      if own then (s.finishOne o.req .ok 0).endQueue o.req.host r.qid else (s.endQueue o.req.host r.qid).finishOne o.req .ok 0
    else s

/-! ### Started operations -/

/-- Records a command that has started and that a later happening ends. -/
def State.startOp (s : State) (sp : CmdSpec) (key : Nat) (r : Req) (deadline note : Nat) : State :=
  { s with host := { s.host with ops := s.host.ops ++
      [{ opcode := sp.opcode, key := key, req := r, names := sp.names r, deadline := deadline, note := note }] } }

/-- The operation of an opcode on a unit. -/
def State.findOp (s : State) (opcode key : Nat) : Option LongOp :=
  s.host.ops.find? (fun o => o.opcode = opcode && o.key = key)

/-- Ends the operation of an opcode on a unit with a completion; none in progress: nothing. -/
def State.endOp (s : State) (opcode key : Nat) (st : Status) (result : Nat) : State :=
  match s.findOp opcode key with
  | none => s
  | some o => { s with host := { s.host with ops := s.host.ops.erase o } }.finish o.req st result

/-! ### The change log before the action (R477 to R480) -/

/-- Entries in use with those staged. -/
def State.clogUsed (s : State) : Nat := s.clog.entries.length + s.clog.staging.length

/-- The taps of a bank, the mirror half applied (R190, R191). -/
def Bank.taps (b : Bank) (n : Nat) : List Int :=
  (List.range n).map (fun k => b.coefs.getD (if k < (n + 1) / 2 then k else n - 1 - k) 0)

/-- The L1 norm of a bank of n taps in 2^-22 (R195). -/
def Bank.l1 (b : Bank) (n : Nat) : Nat := (b.taps n).foldl (fun a c => a + c.natAbs) 0

/-- DETAIL of R478: command bytes 16 to 39, zero for ROLE_PASSWORD and SESSION_OPEN; LEGAL_CNT after a BREAK in bytes 8 to 11. -/
def State.clogDetail (s : State) (r : Req) : Nat :=
  if r.opcode = 0x0B01 || r.opcode = 0x0B03 then 0
  else if r.opcode = 0x0B08 then
    let n := if r.u 17 0 2 = 1 then satInc 32 s.trust.legalCnt else s.trust.legalCnt
    r.u 16 0 64 + n % 2 ^ 32 * 2 ^ 64 + r.u 28 0 96 * 2 ^ 96
  else if r.opcode = 0x0403 then
    let c := (s.tile (r.u 16 0 16)).chain (r.u 18 0 1)
    r.u 16 0 64 + (c.shadow.l1 c.ntaps) % 2 ^ 32 * 2 ^ 64 + r.u 28 0 96 * 2 ^ 96
  else r.u 16 0 192

/-- The entry of a command, without LSEQ and PREV. -/
def State.clogEntry (s : State) (r : Req) (w : Who) (st : Status) (sp : CmdSpec) (why : ClogFor) : ClogStaged :=
  { action := r.opcode, status := st, role := if r.opcode = 0x0B01 then r.u 16 0 2 else w.sess, time := s.now,
    node := r.u 4 0 6, func := hearthOfFn r.fn,
    serial := if r.opcode = 0x0B01 then nextSession s.roles.sessionSeq else w.serial, detail := s.clogDetail r, names := sp.names r, why := why }

def State.stage (s : State) (e : ClogStaged) : State :=
  { s with clog := { s.clog with staging := s.clog.staging ++ [e] }, logs := { s.logs with bank1 := s.logs.bank1 ++ [1] } }

/-- Bank 1 of the lead die runs one operation at a time in order of arrival (R299): the turn of kind k, and its end. -/
def Logs.turn (l : Logs) (k : Nat) : Bool := l.bank1.headD k = k
def Logs.took (l : Logs) (k : Nat) : Logs := { l with bank1 := l.bank1.erase k }

/-- The action of a command, and its completion unless it ends later. -/
def CmdSpec.perform (sp : CmdSpec) (r : Req) (s : State) : State :=
  let a := sp.act r s
  if a.late then a.st else a.st.finish r a.status a.result

/-- The end of a command that is entered in the change log at its end with its status (R479). -/
def State.endLogged (s : State) (sp : CmdSpec) (r : Req) (w : Who) (st : Status) (result : Nat) : State :=
  if w.sess = 0 && !sp.opLogged r s then s.finish r st result
  else if (w.sess ≤ 1 && 4080 ≤ s.clogUsed) || 4096 ≤ s.clogUsed then
    { s with trust := { s.trust with unlogged := satInc 32 s.trust.unlogged } }.finish r st result
  else s.stage (s.clogEntry r w st sp (.ended r st result))

/-- A command whose checks have passed: entered in the change log before it acts when it must be, else it acts. -/
def CmdSpec.accept (sp : CmdSpec) (r : Req) (w : Who) (s : State) : State :=
  if w.sess = 0 && !sp.opLogged r s then sp.perform r s
  else if (w.sess = 1 && 4080 ≤ s.clogUsed) || (w.sess = 2 && 4096 ≤ s.clogUsed && sp.opcode ≠ 0x0B0B) then
    s.finish r .logFull 0
  else if sp.endLogged || sp.opcode = 0x0B0B then sp.perform r s
  else if (if r.opcode = 0x0B01 && r.u 16 0 2 = 2 then 4096 else 4080) ≤ s.clogUsed && w.sess = 0 then
    sp.perform r { s with trust := { s.trust with unlogged := satInc 32 s.trust.unlogged } }
  else s.stage (s.clogEntry r w .ok sp (.command r))

/-! ### The run of a command -/

/-- What the header, the session and the node's state refuse before the command's own table (R376, R388, R466, R522). -/
def State.headerRefusals (s : State) (sp : CmdSpec) (r : Req) : List (Bool × Status) :=
  [ (r.opcode ≠ sp.opcode || r.headerBad, .badParam),
    (r.u 4 0 6 ≠ 0 && r.origin = .ring && (s.isAlone || sp.node = .zeroOnly), .badParam),
    (r.u 5 0 4 ≠ hearthOfFn r.fn, .rights),
    ((s.who r).isNone, .rights),
    (s.faults.fatal && !sp.read && !sp.fatalOk, .fenced),
    (r.fn ≠ 0 && s.hearthFenced (r.fn - 1) && !sp.read, .fenced) ]

/-- The queues a command names: the manager holds them for a command of a worker too (R390). -/
def queueNames (sp : CmdSpec) (r : Req) : List (Nat × Nat) := (sp.names r).filter (fun n => n.1 = 7)

/-- The operands that a command reads from host memory, as a CMD frame carries them behind the entry: address, length and bytes of each
(R432, log 31). -/
def State.operands (s : State) (r : Req) : List DataRange → Nat → List Fld
  | [], _ => []
  | d :: t, off =>
    if d.wr then s.operands r t off
    else [⟨off, 0, 64, d.addr⟩, ⟨off + 8, 0, 32, d.len⟩, ⟨off + 12, 0, 8 * d.len, leNat (s.dataBytes r d.addr d.len)⟩]
      ++ s.operands r t (off + 12 + d.len)

/-- A command whose NODE names a worker: the manager's own checks, then its operands are read, its result addresses translated, and it is
sent with them in a CMD frame with the resolved role, after what the worker must know of the streams it then reads (R47, R432, log 19). -/
def State.forward (s : State) (sp : CmdSpec) (r : Req) (w : Who) : State :=
  let n := r.u 4 0 6
  let new := (sp.act r (s.asNode n)).st
  match pickStatus (s.headerRefusals sp r ++ sp.away r s ++ [(sp.budget && s.awayOver n new, .budget)]) with
  | some x => s.finish r x 0
  | none =>
    let l := sp.data r s
    match s.mapData r l with
    | (s, false) => s.finish r .badParam 0
    | (s, true) =>
      let s := if sp.budget then s.tellRates new.reads else s
      let s := s.sendAcked .cmd n
        (mkRec ([⟨0, 0, 8, r.fn⟩, ⟨1, 0, 8, w.right⟩, ⟨16, 0, 512, r.entry.toNat⟩] ++ s.operands r l 80))
      { s with ring := { s.ring with forwarded := s.ring.forwarded ++
          [{ tag := s.ring.tag, node := n, req := r, names := queueNames sp r, deadline := s.now + s.ring.commandWait * 1000000000 }] } }

/-- A command that nothing in hand conflicts with runs now. -/
def CmdSpec.runNow (sp : CmdSpec) (r : Req) (s : State) : State :=
  let s := s.touchSession r
  let w := (s.who r).getD { right := 0, sess := 0, serial := 0 }
  if s.isManager && r.origin = .ring && r.u 4 0 6 ≠ 0 && sp.node = .forward then s.forward sp r w
  else
    let checks := s.headerRefusals sp r ++ sp.refuse r w.right s
    match pickStatus (checks.filter (fun c => c.2 = .badParam)) with
    | some x => s.finish r x 0
    | none =>
      match s.mapData r (sp.data r s) with
      | (s, false) => s.finish r .badParam 0
      | (s, true) =>
        match pickStatus checks with
        | some x => (sp.refused r x s).finish r x 0
        | none => sp.accept r w s

/-- The request of a staged entry. -/
def ClogFor.req (w : ClogFor) : Option Req :=
  match w with
  | .command r | .ended r _ _ | .archive r => some r
  | .device | .resetGo => none

/-- The resources that started commands name on this node; one that a worker carries out names its queues here (R390). -/
def State.namesStarted (s : State) : List (Nat × Nat) :=
  s.host.ops.flatMap (·.names) ++ s.clog.staging.flatMap (·.names)
  ++ s.ring.forwarded.flatMap (·.names)

/-- The resources that commands in hand name, on this node (R390). -/
def State.namesInHand (s : State) : List (Nat × Nat) := s.namesStarted ++ s.host.waiting.flatMap (·.2)

/-- A command of the queue has started and not ended, here or on a worker (R388). -/
def State.queueStarted (s : State) (q : Nat) : Bool :=
  s.host.ops.any (fun o => o.req.qid = q) || s.ring.forwarded.any (fun f => f.req.qid = q)
  || s.clog.staging.any (fun e => match e.why.req with
      | some r => r.qid = q
      | none => false)

/-- A command of the same queue is in hand: what FENCE waits for (R388). -/
def State.queueInHand (s : State) (q : Nat) : Bool := s.queueStarted q || s.host.waiting.any (fun e => e.1.qid = q)

/-- A command that a reset of its function has parted from its queue is taken up as such (R371). -/
def State.claim (s : State) (r : Req) : Req :=
  if r.origin = .ring && !s.host.fetched.contains (r.qid, r.entry) && s.host.fetched.contains (goneQid, r.entry) then
    { r with qid := goneQid }
  else r

/-- A command that was fetched behind another of its queue that has not started (R390). -/
def State.outOfTurn (s : State) (r : Req) : Bool :=
  r.origin = .ring && r.qid ≠ goneQid && s.host.fetched.contains (r.qid, r.entry)
  && decide (s.host.fetched.find? (fun e => e.1 = r.qid) ≠ some (r.qid, r.entry))

/-- A host command: taken out of the fetched ones, in ring order; in the reset state, or from a host ring of a worker, nothing
happens; waiting where it conflicts with one in hand, behind a waiting one of its queue, where it carries FENCE behind one
of its queue, or where the staging of the change log is full (R390, R479); else it runs. -/
def CmdSpec.run (sp : CmdSpec) (r : Req) (s : State) : State :=
  let r := s.claim r
  if s.node.inReset || (s.isWorker && r.origin = .ring) || s.outOfTurn r then s
  else
    let before := s.host.fetched.contains (r.qid, r.entry)
    let s := { s with host := { s.host with fetched := s.host.fetched.erase (r.qid, r.entry) } }
    let names := if r.u 4 0 6 = 0 || r.origin ≠ .ring then sp.names r else queueNames sp r
    let behind := r.origin = .ring && s.host.waiting.any (fun e => e.1.origin = .ring && e.1.qid = r.qid)
    if sp.opcode = r.opcode && (behind || names.any (fun n => s.namesInHand.contains n) || (r.b 6 0 && s.queueInHand r.qid)
        || 16 ≤ s.clog.staging.length) then
      let s := if before || r.origin ≠ .ring then s else s.holdRights r
      { s with host := { s.host with waiting := s.host.waiting ++ [(r, names)] } }
    else sp.runNow r s

/-- A queue that takes no records of laws or of metering (R307, R352). -/
def State.recordQueueBad (s : State) (q : Nat) : Bool := !(s.queue q).live || ((s.queue q).kind ≠ 3 && (s.queue q).kind ≠ 4)

/-- Who a request acts as, as a note an operation in progress keeps for the entry made at its end (R479). -/
def State.whoNote (s : State) (r : Req) : Nat :=
  match s.who r with
  | some w => w.sess * 65536 + w.serial
  | none => 0

/-- Ends an operation whose change-log entry is made at its end, with its status (R479). -/
def State.endOpLogged (s : State) (sp : CmdSpec) (key : Nat) (st : Status) (result : Nat) : State :=
  match s.findOp sp.opcode key with
  | none => s
  | some o =>
    let s := { s with host := { s.host with ops := s.host.ops.erase o } }
    s.endLogged sp o.req { right := o.note / 65536, sess := o.note / 65536, serial := o.note % 65536 } st result

/-- A right the role must have; installer and maker sessions include operator rights (R468). -/
def needs (role : Nat) (want : Nat) : Bool × Status := (role ≠ want, .rights)

end Sys2Proof.Machine
end

