-- ==== Sys2Proof/Machine/FrontEnd.lean ====
section
/-! DEFINITION. Ports, aux inputs and overvoltage protection: the events OVP_OPEN, OVP_CLOSE, CMX_ENTRY and the
front-end commands (R54 to R86). -/

set_option Elab.async false

namespace Sys2Proof.Machine

/-! ### Who holds a pin (R59, R78, R83) -/

/-- The owner of aux input i: in a pair, position 2j decides for both; none where VALID is 0. -/
def State.auxOwner (s : State) (i : Nat) : Option Nat :=
  let g := (s.group (i / 8)).fe
  let k := i % 8
  let k := if bitAt g.auxPair (k / 2) then k / 2 * 2 else k
  let a := tget {} g.aux k
  if a.valid then some a.owner else none

/-- The hearth code a pin's events and records carry: 0xF without an owner. -/
def State.pinHearth (s : State) (p : Nat) : Option Nat :=
  if p < 4096 then some (s.tileOwner (p / 2)) else s.auxOwner (p - 4096)

/-- The event enables of a pin: OVP and CMX. -/
def State.pinOvpEv (s : State) (p : Nat) : Bool :=
  if p < 4096 then (s.tile (p / 2)).fe.ovpEv else (tget {} (s.group (pinGroup p)).fe.aux ((p - 4096) % 8)).ovpEv
def State.pinCmxEv (s : State) (p : Nat) : Bool :=
  if p < 4096 then (s.tile (p / 2)).fe.cmxEv else (tget {} (s.group (pinGroup p)).fe.aux ((p - 4096) % 8)).cmxEv

/-- A pin of the package. -/
def State.pinThere (s : State) (p : Nat) : Bool := (p < 2 * s.nTiles) || (4096 ≤ p && p < 4096 + s.nTiles)

/-! ### Switches (R70) -/

/-- A unit of a die's schedule has kindled (R559). -/
def State.unitUp (s : State) (die unit : Nat) : Bool := decide (unit < (tget {} s.node.kindle die).nextUnit)
/-- The detector of a pin runs: an aux pin's from the kindling of tile 0 of its group, a port's from that of its own tile (R70, R559).
DESIGN CHOICE (log 79): while the VA5 loads are off (R347) the groups count as unpowered, their detectors idle and their switches open. -/
def State.pinUp (s : State) (p : Nat) : Bool :=
  let t := if p < 4096 then p / 2 % 8 else 0
  !s.node.inReset && !s.node.va5Off && s.unitUp (pinGroup p / 4) (2 + 9 * (pinGroup p % 4) + t)

/-- A tile's active list names an aux position while the tile converts and is not fenced (R70). -/
def State.selectsAux (s : State) (n k : Nat) : Bool :=
  let t := s.tile n
  t.converting && !s.tileFenced n && t.seq.active.any (fun d => (dAux (s.group (groupOfTile n)).fe.auxPair d).contains k)

/-- A tile reads its neighbour (R58). -/
def State.readsNeighbour (s : State) (n : Nat) : Bool :=
  (s.tile n).converting && (s.tile n).seq.active.any (fun d => dSrc d = 1)

/-- The OVP switch of a pin is open (R70, R522). -/
def State.switchOpen (s : State) (p : Nat) : Bool :=
  !s.pinUp p || s.groupFenced (pinGroup p) || (s.pin p).inEvent ||
  (if p < 4096 then
    s.tileFenced (p / 2) || ((s.tile (p / 2)).force.mode = .off && !s.readsNeighbour (p / 2 ^^^ 1))
  else !(List.range 8).any (fun t => s.selectsAux (8 * pinGroup p + t) ((p - 4096) % 8)))

/-! ### The end of a loopback (R146, R153) -/

def State.modForce (s : State) (n : Nat) (f : Force → Force) : State := s.modTile n (fun t => { t with force := f t.force })

/-- The record of FORCE_LOOPBACK (R153). DESIGN CHOICE (log 79): of errors of equal magnitude and unlike sign, WORST is the first. -/
def loopbackRecord (r : Req) (start : Nat) (errs : List Int) (aborted : Bool) : Nat :=
  let worst := errs.foldl (fun (b : Int) e => if b.natAbs < e.natAbs then e else b) 0
  let pass := !aborted && errs.all (fun e => e.natAbs ≤ r.u 22 0 16)
  mkRec ([⟨0, 0, 16, r.u 16 0 16⟩, ⟨2, 0, 1, b2n pass⟩, ⟨2, 1, 1, b2n aborted⟩, ⟨3, 0, 8, errs.length⟩,
    ⟨4, 0, 16, toU 16 worst⟩, ⟨8, 0, 64, start⟩]
    ++ (List.range errs.length).map (fun i => ⟨16 + 2 * i, 0, 16, toU 16 (errs.getD i 0)⟩))

/-- The loopback of forcing tile n ends: both tiles OFF with the switches open, the settings put aside back, the record written, the command
complete. -/
def State.loopbackEnd (s : State) (n : Nat) (errs : List Int) (aborted : Bool) : State :=
  match s.loopbacks.find? (fun e => e.1 = n) with
  | none => s
  | some e =>
    let s := { s with loopbacks := terase s.loopbacks n }
    let s := s.modForce n (fun f => { f with
      mode := .off, phase := .none, v := 0, range := e.2.range, slew := e.2.slew, inbox := [], hold := false, ramp := false,
      retry := 0, closedAt := none, cleanSince := none })
    match s.findOp 0x0605 n with
    | none => s
    | some o => (s.writeResult o.req (o.req.u 24 0 64) 64 (loopbackRecord o.req e.2.start errs aborted)).endOp 0x0605 n .ok 0

/-- What aborts a loopback happens to tile n, its forcing or its sensing tile (R146). -/
def State.loopbackAbort (s : State) (n : Nat) : State :=
  let stop := fun (s : State) (m : Nat) => match s.loopbacks.find? (fun e => e.1 = m) with
    | none => s
    | some e => s.loopbackEnd m e.2.errs true
  stop (stop s n) (n ^^^ 1)

/-! ### Events on pins -/

/-- The DETAIL of an OVP event (R396). -/
def State.ovpDetail (s : State) (p : Nat) : Nat := (s.pin p).cnt.n + (if p < 4096 && p % 2 = 1 then 65536 else 0)

/-- An event of a pin: an opening or a closing, raised to its owner when enabled, at most once in 10 ms (R78). -/
def State.raisePin (s : State) (code p : Nat) (enabled : Bool) (detail : Nat) : State :=
  match s.pinHearth p with
  | some h => if enabled then s.raiseLim p code h (pinSubject p) detail else s
  | none => s

/-- OVP_OPEN: the detector of a pin sees its magnitude cross the open
threshold, upwards when `high` (R70, R73 to R78). A loopback of the pin's tile aborts (R146). -/
def execOvpOpen (m : PinMoment) (high : Bool) (s : State) : Host.Outcome State Fault Refusal :=
  let p := m.pin
  if !s.pinThere p then .fault (.absentUnit "pin" p)
  else if !s.pinUp p || (s.pin p).inEvent then .next s
  else
    let k := (s.group (pinGroup p)).fe.ovpSeq
    let s := s.modPin p (fun x => { x with
      inEvent := true, high := high, ord := k, openAt := s.node.clock + m.sub % 3125, cnt := x.cnt.bump 16 })
    let s := s.modGroup (pinGroup p) (fun g => { g with fe := { g.fe with openPins := g.fe.openPins ++ [p], ovpSeq := k + 1 } })
    let s := if p < 4096 then s.modTile (p / 2) (fun t => { t with fe := { t.fe with lastOpen := s.stamp } }) else s
    let s := s.raisePin 0x0201 p (s.pinOvpEv p) (s.ovpDetail p)
    let s := s.logEv 0x0201 ((s.pinHearth p).getD 15) (pinSubject p) (s.ovpDetail p)
    .next (if p < 4096 then s.loopbackAbort (p / 2) else s)

/-- OVP_CLOSE: the debounce of a pin ends and its switch closes; DIS
runs 2.0 us on, merging (R70, R76 to R78). -/
def execOvpClose (m : PinMoment) (s : State) : Host.Outcome State Fault Refusal :=
  let p := m.pin
  if !s.pinThere p then .fault (.absentUnit "pin" p)
  else if !(s.pin p).inEvent then .next s
  else
    let now := s.node.clock + m.sub % 3125
    let s := s.modPin p (fun x => { x with inEvent := false, closeAt := now })
    let s := s.modGroup (pinGroup p) (fun g => { g with fe := { g.fe with
      openPins := g.fe.openPins.filter (· ≠ p), disFrom := if g.fe.disUntil ≤ now then now else g.fe.disFrom,
      disUntil := now + 128000 } })
    let s := if p < 4096 then s.modTile (p / 2) (fun t => { t with fe := { t.fe with lastClose := s.stamp } }) else s
    let s := s.raisePin 0x0202 p (s.pinOvpEv p) (s.ovpDetail p)
    .next (s.logEv 0x0202 ((s.pinHearth p).getD 15) (pinSubject p) (s.ovpDetail p))

/-- CMX_ENTRY: pin p enters the region above the CMX threshold with its switch closed, or, `above` false, leaves it; every entry raises its
event when enabled (R72). -/
def execCmxEntry (p : Nat) (above : Bool) (s : State) : Host.Outcome State Fault Refusal :=
  if !s.pinThere p then .fault (.absentUnit "pin" p)
  else if !above then .next (s.modPin p (fun x => { x with cmx := false }))
  else if (s.pin p).cmx || s.switchOpen p then .next s
  else
    let s := s.modPin p (fun x => { x with cmx := true, cmxCnt := x.cmxCnt.bump 16 })
    let s := if p < 4096 then s.modTile (p / 2) (fun t => { t with fe := { t.fe with cmxCnt := t.fe.cmxCnt.bump 16 } }) else s
    match s.pinHearth p with
    | some h =>
      let n := if p < 4096 then (s.tile (p / 2)).fe.cmxCnt.n else (s.pin p).cmxCnt.n
      .next (if s.pinCmxEv p then s.raise 0x0203 h (pinSubject p) n else s)
    | none => .next s

/-! ### What a conversion meets (R73 to R77) -/

/-- A conversion at edge time t (sixty-fourths) is exposed to the event of a pin: the 45 ns from its edge overlap the event (R73). -/
def Pin.exposes (x : Pin) (t : Nat) : Bool :=
  decide (x.openAt ≤ t + 2880) && (x.inEvent || (decide (x.openAt < x.closeAt) && decide (t ≤ x.closeAt)))

/-- The exposed pin among those a unit reads: the one that opened first (R75). -/
def State.openSource (s : State) (pins : List Nat) (t : Nat) : Option Nat :=
  let hit := pins.filter (fun p => (s.pin p).exposes t)
  match hit with
  | [] => none
  | p :: rest => some (rest.foldl (fun b q => if (s.pin q).ord < (s.pin b).ord then q else b) p)

/-- The code of a unit whose own source is open: pins lists the positive pin first (R75). -/
def State.openCode (s : State) (pins : List Nat) (p : Nat) : Int :=
  if (pins.head? = some p) = ((s.pin p).high = true) then 131071 else -131072

/-- A conversion at edge time t in group g carries DIS (R74, R76). -/
def State.disturbed (s : State) (g t : Nat) : Bool :=
  s.pins.any (fun e => pinGroup e.1 = g && e.2.exposes t)
  || (decide ((s.group g).fe.disFrom ≤ t) && decide (t < (s.group g).fe.disUntil))

/-! ### Commands (R80 to R86) -/

/-- What a command brings into effect at the next draught edge (R86, R121). -/
def State.atNextEdge (s : State) (a : EdgeAct) : State := { s with due := s.due ++ [a] }

def beyondTile (s : State) (n : Nat) : Bool × Status := (s.nTiles ≤ n, .badParam)
def notOwner (s : State) (r : Req) (n : Nat) : Bool × Status := (!r.for (s.tileOwner n), .rights)
def tileIsFenced (s : State) (n : Nat) : Bool × Status := (s.tileFenced n, .fenced)
/-- A tile of an unbroken sealed hearth. -/
def tileSealed (s : State) (n : Nat) : Bool × Status := (s.intact (s.tileOwner n), .sealed)
/-- Chain 1 of a tile held by an unbroken sealed hearth (R205). -/
def chain1Sealed (s : State) (n : Nat) : Bool × Status := (s.intact (s.chain1Holder n), .sealed)
/-- A 64 B aligned result record. -/
def resultAt (r : Req) (off len : Nat) : List DataRange := [{ addr := r.u off 0 64, len := len, wr := true, align := 64 }]
/-- An act that only writes a record. -/
def reply (s : State) (r : Req) (off len val : Nat) : ActRes := { st := s.writeResult r (r.u off 0 64) len val }

def feConfigSpec : CmdSpec :=
  { opcode := 0x0201
    names := tileNames
    refuse := fun r w s =>
      let n := r.u 16 0 16
      [beyondTile s n, (2 ≤ r.u 18 0 2 || r.u 18 2 2 = 3, .badParam), needs w 1, notOwner s r n, tileIsFenced s n,
       tileSealed s n, chain1Sealed s n, ((s.tile n).force.mode ≠ .off, .busy)]
    act := fun r s => { st := s.atNextEdge (.fe (r.u 16 0 16) (r.u 18 0 2) (r.u 18 2 2) (r.b 18 4) (r.b 18 5)) } }

/-- FE_CONFIG (R81): in effect at the next draught edge (R86). -/
def execFeConfig (r : Req) (s : State) : Host.Outcome State Fault Refusal := .next (feConfigSpec.run r s)

def groupTiles (g : Nat) : List Nat := (List.range 8).map (fun t => 8 * g + t)

/-- DESIGN CHOICE (log 79): OWNER and VALID of the odd position of a pair, ignored while the pair is set (R83), are checked all the same for
BAD_PARAM and RIGHTS; the OWNER of a position with VALID 0 may name a hearth that does not exist (R80). -/
def feGroupConfigSpec : CmdSpec :=
  { opcode := 0x0202
    names := fun r => (groupTiles (r.u 16 0 8)).map nTile
    refuse := fun r w s =>
      let g := r.u 16 0 8
      let tiles := groupTiles g
      let pos := List.range 8
      [(s.nGroups ≤ g, .badParam), (pos.any (fun k => r.b (20 + k) 7 && !s.mayHold (r.u (20 + k) 0 3)), .badParam),
       needs w 1,
       (r.fn ≠ 0 && tiles.any (fun n => s.tileOwner n ≠ r.fn - 1), .rights),
       (r.fn ≠ 0 && pos.any (fun k =>
          let old := tget {} (s.group g).fe.aux k
          r.b (20 + k) 7 && r.u (20 + k) 0 3 ≠ r.fn - 1 && !(old.valid && old.owner = r.u (20 + k) 0 3)), .rights),
       (s.groupFenced g || tiles.any s.tileFenced, .fenced),
       (tiles.any (fun n => s.intact (s.tileOwner n)), .sealed),
       (tiles.any (fun n => (s.tile n).force.mode ≠ .off), .busy)]
    act := fun r s =>
      let pos := (List.range 8).map (fun k => (k,
        ({ owner := r.u (20 + k) 0 3, ovpEv := r.b (20 + k) 3, cmxEv := r.b (20 + k) 4, valid := r.b (20 + k) 7 } : AuxPos)))
      { st := s.atNextEdge (.feGroup (r.u 16 0 8) (r.u 17 0 4) pos) } }

/-- FE_GROUP_CONFIG (R82): in effect at the next draught edge (R86). -/
def execFeGroupConfig (r : Req) (s : State) : Host.Outcome State Fault Refusal := .next (feGroupConfigSpec.run r s)

/-- The record of FE_STATUS (R84). DESIGN CHOICE (log 79): AUX_PAIR shows all four bits as in force, those of pairs that another hearth or
none owns too: it is a field of the group, and R84 zeroes the fields for aux inputs. -/
def State.feRecord (s : State) (n : Nat) : Nat :=
  let t := s.tile n
  let g := groupOfTile n
  let p := s.pin (pinP n)
  let q := s.pin (pinN n)
  let seen := fun k => s.auxOwner (8 * g + k) = some (s.tileOwner n)
  let ax := fun k => s.pin (pinAux (8 * g + k))
  let cur := t.seq.active.getD t.seq.slot 0
  let srcOpen := t.converting && (dPins n (s.group g).fe.auxPair cur).any s.switchOpen
  mkRec ([⟨0, 0, 16, n⟩, ⟨2, 0, 1, b2n (s.switchOpen (pinP n))⟩, ⟨2, 1, 1, b2n (s.switchOpen (pinN n))⟩,
    ⟨2, 2, 1, b2n p.cmx⟩, ⟨2, 3, 1, b2n q.cmx⟩, ⟨2, 4, 1, b2n srcOpen⟩,
    ⟨2, 5, 1, b2n (s.disturbed g s.node.clock)⟩,
    ⟨3, 0, 8, maskOf 8 (fun k => seen k && s.switchOpen (pinAux (8 * g + k)))⟩,
    ⟨4, 0, 16, p.cnt.n⟩, ⟨6, 0, 16, q.cnt.n⟩, ⟨8, 0, 16, t.fe.cmxCnt.n⟩,
    ⟨10, 0, 1, b2n p.cnt.sat⟩, ⟨10, 1, 1, b2n q.cnt.sat⟩, ⟨10, 2, 1, b2n t.fe.cmxCnt.sat⟩,
    ⟨11, 0, 8, maskOf 8 (fun k => seen k && (ax k).cnt.sat)⟩,
    ⟨16, 0, 64, t.fe.lastOpen⟩, ⟨24, 0, 64, t.fe.lastClose⟩,
    ⟨48, 0, 8, t.fe.chop + 4 * t.fe.refsel + 16 * b2n t.fe.cmxEv + 32 * b2n t.fe.ovpEv⟩,
    ⟨49, 0, 4, (s.group g).fe.auxPair⟩]
    ++ (List.range 8).map (fun k => ⟨32 + 2 * k, 0, 16, if seen k then (ax k).cnt.n else 0⟩))

def feStatusSpec : CmdSpec :=
  { opcode := 0x0203
    names := tileNames
    read := true
    data := fun r _ => resultAt r 24 64
    refuse := fun r _ s => [beyondTile s (r.u 16 0 16), notOwner s r (r.u 16 0 16)]
    act := fun r s => reply s r 24 64 (s.feRecord (r.u 16 0 16)) }

/-- FE_STATUS (R84). -/
def execFeStatus (r : Req) (s : State) : Host.Outcome State Fault Refusal := .next (feStatusSpec.run r s)

/-- Zeroes the counters of a pin. -/
def State.clearPin (s : State) (p : Nat) : State := s.modPin p (fun x => { x with cnt := {}, cmxCnt := {} })

def feClearCountsSpec : CmdSpec :=
  { opcode := 0x0204
    names := tileNames
    refuse := fun r w s =>
      let n := r.u 16 0 16
      let owned := fun k => match s.auxOwner (8 * groupOfTile n + k) with
        | some h => s.intact h
        | none => false
      [beyondTile s n, needs w 1, notOwner s r n, tileIsFenced s n, tileSealed s n,
       (r.b 18 1 && (List.range 8).any (fun k => bitAt (r.u 19 0 8) k && owned k), .sealed)]
    act := fun r s =>
      let n := r.u 16 0 16
      let s := if r.b 18 0 then
          ((s.clearPin (pinP n)).clearPin (pinN n)).modTile n (fun t =>
            { t with fe := { t.fe with cmxCnt := {}, lastOpen := 0, lastClose := 0 } })
        else s
      let pick := (List.range 8).filter (fun k => r.b 18 1 && bitAt (r.u 19 0 8) k)
      { st := pick.foldl (fun s k => s.clearPin (pinAux (8 * groupOfTile n + k))) s } }

/-- FE_CLEAR_COUNTS (R85). -/
def execFeClearCounts (r : Req) (s : State) : Host.Outcome State Fault Refusal := .next (feClearCountsSpec.run r s)

end Sys2Proof.Machine
end

