-- ==== Sys2Proof/Machine/Seq.lean ====
section
/-! DEFINITION. The channel sequencer: positions, runs, triggers, commits and their commands (R154 to R169, R176 to R180). -/

set_option Elab.async false

namespace Sys2Proof.Machine

/-! ### Shared with chains and modes -/

/-- The sequencer of a tile changed. -/
def State.modSeq (s : State) (n : Nat) (f : Seq → Seq) : State := s.modTile n (fun t => { t with seq := f t.seq })

/-- The first sequencer edge of tile n at or after edge e (R155, R577). -/
def State.seqEdge (s : State) (n e : Nat) : Nat := if s.edgeStep n = 2 && e % 2 = 0 then e + 1 else e

/-- The keys of the streams of a tile of this node. -/
def State.tileStreams (s : State) (n : Nat) : List Nat :=
  (s.host.streams.map (fun e => e.1)).filter (fun k => keyTile k = n && keyNode k = s.ring.nodeNo)

/-- Posts the open blocks of a tile's streams that p picks (R110). -/
def State.closeTile (s : State) (n : Nat) (p : Nat → Bool) : State :=
  ((s.tileStreams n).filter p).foldl (fun s k => s.closeBlocks k) s

/-- A fresh start of a chain context: registers, delay line and flag history zero; the estimate stays unless SRC
or GAIN changed (R222, R229). DESIGN CHOICE (log 79): zeroing the estimate here starts no settling count (R223). -/
def Ctx.fresh (c : Ctx) (zeroEst : Bool) : Ctx :=
  { est := if zeroEst then 0 else c.est, settle := c.settle, swapUns := c.swapUns, swapNext := c.swapNext, lastCode := c.lastCode }

def Chain.modCtx (c : Chain) (slot : Nat) (f : Ctx → Ctx) : Chain := { c with ctx := tmod {} c.ctx slot f }

/-- A fresh start of one slot in both chains. -/
def Tile.freshSlot (t : Tile) (slot : Nat) (zeroEst : Bool) : Tile :=
  { t with c0 := t.c0.modCtx slot (·.fresh zeroEst), c1 := t.c1.modCtx slot (·.fresh zeroEst) }

/-- A fresh start of every context of a tile (R222, R225). -/
def Tile.freshAll (t : Tile) : Tile :=
  let go := fun (c : Chain) => { c with ctx := c.ctx.map (fun e => (e.1, e.2.fresh false)) }
  { t with c0 := go t.c0, c1 := go t.c1 }

/-- A recovery of a slot starts: its residue register is zeroed, its next conversion is recovery sample 1 (R96). -/
def Tile.recoverSlot (t : Tile) (slot : Nat) : Tile :=
  let l := tmod {} t.core.slots slot (fun x => { x with residue := 0, starting := true, recov := 0 })
  { t with core := { t.core with slots := l } }

/-- Every slot of the active list recovers (R96). -/
def Tile.recoverAll (t : Tile) : Tile := (List.range t.seq.active.length).foldl (fun t i => t.recoverSlot i) t

/-- The reserve of a tile's group converts for it, alongside or in place of its core (R262, R265). -/
def State.reserveFor (s : State) (n : Nat) : Bool :=
  match (s.group (groupOfTile n)).sched.use with
  | .tracking m | .covering m | .handingBack m | .substituting m => m = n
  | _ => false

/-- The reserve of a group recovers these slots in its own bank (R87, R96). -/
def State.reserveRecovers (s : State) (g : Nat) (slots : List Nat) : State :=
  s.modGroup g (fun x => { x with core := { x.core with
    slots := slots.foldl (fun l i => tmod {} l i (fun z => { z with residue := 0, starting := true, recov := 0, inOvr := false })) x.core.slots } })

/-- A slot of a tile recovers, every slot of its active list recovers: in the bank of its core, and in the reserve's where that converts for
the tile (R96). -/
def State.recoverOne (s : State) (n slot : Nat) : State :=
  let s := s.modTile n (·.recoverSlot slot)
  if s.reserveFor n then s.reserveRecovers (groupOfTile n) [slot] else s
def State.recoverTile (s : State) (n : Nat) : State :=
  let s := s.modTile n (·.recoverAll)
  if s.reserveFor n then s.reserveRecovers (groupOfTile n) (List.range (s.tile n).seq.active.length) else s

/-! ### Positions -/

/-- The sequencer stands at the start of slot 0 from edge e on: it converts after SETTLE sequencer edges. -/
def State.seqAt (s : State) (n e : Nat) : State :=
  s.modSeq n (fun q => { q with
    slot := 0, rep := 0, pass := 0, ended := false, rest := none,
    next := some (e + s.edgeStep n * dSettle (q.active.getD 0 0)) })

/-- Entry into a converting mode at draught edge `at_`: slot 0, from the first sequencer edge there; an armed run takes that edge as its
start; TRIGGERED is idle (R168, R169). DESIGN CHOICE (log 34): a run that FORCE had suspended is dropped here, at FORCE to FORCE_SENSE as
out of OFF. -/
def State.seqEnter (s : State) (n at_ : Nat) : State :=
  let e := s.seqEdge n at_
  match (s.tile n).seq.mode with
  | .static | .scan => s.seqAt n e
  | .burst | .triggered =>
    s.modSeq n (fun q => { q with slot := 0, rep := 0, pass := 0, ended := false, rest := none, next := none, armEdge := e })

/-- The sequencer edges from the present one to the next conversion (R155). -/
def State.seqRest (s : State) (n : Nat) : Option Nat :=
  (s.tile n).seq.next.map (fun e => (e - s.seqEdge n s.edge) / s.edgeStep n)

/-- No sequencer edges: OFF, or FORCE with `keep`, which keeps the position (R155, R169). A pending trigger is dropped, in OFF a run in
progress too, and a command that waits for its run to start ends with BUSY and leaves no armed run behind (R15, log 34). -/
def State.seqStop (s : State) (n : Nat) (keep : Bool) : State :=
  let rest := if keep then s.seqRest n else none
  let arming := (s.findOp 0x0303 n).isSome
  let s := s.modSeq n (fun q => { q with
    next := none, ended := false, trigger := none, rest := rest, armed := q.armed && !arming })
  (s.endOp 0x0303 n .busy 0).endOp 0x0304 n .busy 0

/-- The fire edge of the pending trigger of a sequencer of tile n, on the edges as they lie now: the first one at or after its time that has
not passed (R163). -/
def State.fireAt (s : State) (n : Nat) (q : Seq) : Option Nat :=
  q.trigger.map (fun _ => max (s.seqEdge n (s.edgeAtOrAfter q.trigAt)) (s.seqEdge n s.edge))

/-- The sequencer goes on at a new edge spacing: what was left of its settle is counted in the new edges, and the edges of an armed run
and of a pending trigger are sequencer edges again (R155, R163, R169). `rest` is what was left at the old spacing. -/
def State.seqRespace (s : State) (n : Nat) (rest : Option Nat) : State :=
  s.modSeq n (fun q => { q with
    next := rest.map (fun r => s.seqEdge n s.edge + s.edgeStep n * r), armEdge := s.seqEdge n q.armEdge,
    idleFrom := s.seqEdge n q.idleFrom, trigger := s.fireAt n q })

/-- The change between ACQ and FORCE_SENSE: from its position on; in STATIC the settle of an entry applies (R158, R169). -/
def State.seqAcross (s : State) (n at_ : Nat) (rest : Option Nat) : State :=
  if (s.tile n).seq.mode = .static then s.seqAt n (s.seqEdge n at_) else s.seqRespace n rest

/-- FORCE to ACQ: the sequencer goes on from the position it kept (R169); without one it starts at slot 0. -/
def State.seqResume (s : State) (n at_ : Nat) : State :=
  let q := (s.tile n).seq
  match q.rest with
  | some r =>
    if q.mode = .static then s.seqEnter n at_
    else s.modSeq n (fun q => { q with next := some (s.seqEdge n at_ + s.edgeStep n * r), rest := none })
  | none => s.seqEnter n at_

/-! ### Triggers (R163 to R165) -/

/-- A trigger at its arrival: it fires on the first sequencer edge at or after `at_`, in sixty-fourths of a nanosecond; `timed`: that is
the device time it carries; `late`: that time had passed (R163, R164). -/
structure FireTime where
  at_ : Nat
  timed : Bool := false
  late : Bool := false

/-- The least wait of a source after its reference, and for HOST and OBLYN the device time carried. -/
def State.fireTime (s : State) (n : Nat) (m : TrigMsg) : FireTime :=
  match m.src with
  | 1 => { at_ := m.at64 + 1920 }
  | 3 => { at_ := s.node.clock + 512 }
  | 4 => { at_ := m.at64 + 5376 }
  | _ =>
    if m.src = 2 && m.at64 = 0 then { at_ := s.node.clock + 512 }
    else if s.seqEdge n (s.edgeAtOrAfter m.at64) < s.edgeAtOrAfter (s.node.clock + 512) then { at_ := s.node.clock + 512, late := true }
    else { at_ := m.at64, timed := true }

/-- The fire edge of a trigger at arrival, and whether it was late. -/
def State.fireEdge (s : State) (n : Nat) (m : TrigMsg) : Nat × Bool :=
  let f := s.fireTime n m
  (s.seqEdge n (s.edgeAtOrAfter f.at_), f.late)

/-- The tile would not act on a trigger (R165). -/
def Tile.deaf (t : Tile) : Bool := !t.converting || t.seq.next.isSome || t.seq.ended || t.seq.trigger.isSome

/-- A trigger reaches a tile (R164, R165): ignored outside TRIGGERED or from another source, missed, or pending. -/
def State.arrive (s : State) (m : TrigMsg) : State :=
  let t := s.tile m.tile
  if t.seq.mode ≠ .triggered || t.seq.trigSrc ≠ m.src then s
  else if t.deaf then
    s.modSeq m.tile (fun q => { q with trigMiss := q.trigMiss.bump 16 })
  else
    let f := s.fireEdge m.tile m
    let x := s.fireTime m.tile m
    s.modSeq m.tile (fun q => { q with
      trigger := some f.1, trigAt := x.at_, trigTimed := x.timed, trigCnt := q.trigCnt.bump 32,
      lateTrig := if f.2 then q.lateTrig.bump 16 else q.lateTrig })

/-- Sends a trigger of a source to every tile that listens to it. -/
def State.sendTriggers (s : State) (src at64 : Nat) (p : Nat → Seq → Bool) : State :=
  let hit := s.tiles.filter (fun e => e.2.seq.mode = .triggered && e.2.seq.trigSrc = src && p e.1 e.2.seq)
  { s with triggers := s.triggers ++ hit.map (fun e => { tile := e.1, src := src, at64 := at64 }) }

/-- TRIGGER_ARRIVAL: the first trigger on its way reaches its tile (R165). -/
def execTriggerArrival (s : State) : Host.Outcome State Fault Refusal :=
  match s.triggers with
  | [] => .next s
  | m :: rest => .next ({ s with triggers := rest }.arrive m)

/-- RUN_START: the fire edge of a pending trigger, or the start edge of an armed BURST run, has come (R163, R179). -/
def execRunStart (n : Nat) (s : State) : Host.Outcome State Fault Refusal :=
  let t := s.tile n
  if s.nTiles ≤ n then .fault (.absentUnit "tile" n)
  else if !t.converting || t.seq.next.isSome || t.seq.ended then .next s
  else match t.seq.mode with
    | .burst =>
      if t.seq.armed && t.seq.armEdge ≤ s.edge then
        let s := (s.seqAt n t.seq.armEdge).modSeq n (fun q => { q with armed := false })
        .next (s.endOp 0x0303 n .ok 0)
      else .next s
    | .triggered =>
      match t.seq.trigger with
      | some e =>
        if e ≤ s.edge then
          let at_ := s.edgeTime e
          let s := (s.seqAt n e).modSeq n (fun q => { q with trigger := none, lastTrig := max at_ 1 })
          .next (s.endOp 0x0304 n .ok 0)
        else .next s
      | none => .next s
    | _ => .next s

/-- RUN_END: after the last pass of a run the sequencer is idle (R160). -/
def execRunEnd (n : Nat) (s : State) : Host.Outcome State Fault Refusal :=
  if s.nTiles ≤ n then .fault (.absentUnit "tile" n)
  else if !(s.tile n).seq.ended then .next s
  else .next ((s.closeTile n (fun _ => true)).modSeq n (fun q => { q with ended := false, slot := 0, rep := 0 }))

/-- The step after a conversion at edge e (R156 to R160): the next slot, the next pass, the end of the run. A visit of a
BURST or TRIGGERED run that ends closes its blocks. -/
def State.seqAdvance (s : State) (n e : Nat) : State :=
  let k := s.edgeStep n
  let q := (s.tile n).seq
  let len := q.active.length
  let go := fun (slot rep pass : Nat) (edge : Option Nat) (ended : Bool) (s : State) =>
    s.modSeq n (fun q => { q with slot := slot, rep := rep, pass := pass, next := edge, ended := ended })
  match q.mode with
  | .static => go 0 0 0 (some (e + k)) false s
  | .scan =>
    let j := if q.slot + 1 < len then q.slot + 1 else 0
    go j 0 0 (some (e + k * (dSettle (q.active.getD j 0) + 1))) false s
  | .burst | .triggered =>
    if q.rep + 1 < dRepeat (q.active.getD q.slot 0) then go q.slot (q.rep + 1) q.pass (some (e + k)) false s
    else
      let s := s.closeTile n (fun key => keySlot key = q.slot)
      if q.slot + 1 < len then
        go (q.slot + 1) 0 q.pass (some (e + k * (dSettle (q.active.getD (q.slot + 1) 0) + 1))) false s
      else if q.pass + 1 < q.passes then
        go 0 0 (q.pass + 1) (some (e + k * (dSettle (q.active.getD 0 0) + 1))) false s
      else (go 0 0 (q.pass + 1) none true s).modSeq n (fun q => { q with idleFrom := e + k })

/-! ### Commits (R167, R168) -/

/-- The edge at which a pending commit takes effect, once it is known (R167). -/
def State.commitEdge (s : State) (n : Nat) : Option Nat :=
  let t := s.tile n
  match t.seq.commit with
  | none => none
  | some c =>
    let soon := s.seqEdge n (c.sinceEdge + 1)
    if !t.converting then some s.edge
    else match t.seq.mode, t.seq.next with
      | .static, _ => some soon
      | _, none => some (max soon (s.seqEdge n t.seq.idleFrom))
      | _, some e =>
        let start := e - s.edgeStep n * dSettle (t.seq.active.getD 0 0)
        if t.seq.slot = 0 && t.seq.rep = 0 && soon ≤ start then some start else none

/-- What a commit does to one slot index: unchanged SRC and GAIN keep everything, a change starts a recovery and the
chains afresh; a cleared or ended stream posts its block (R168, R222). DESIGN CHOICE (log 79): an index that the old list did not reach
counts as changed: it recovers, its contexts start afresh and its estimates are zeroed (R168, R229). -/
def State.commitSlot (s : State) (n : Nat) (old new : List Nat) (i : Nat) : State :=
  let o := old[i]?
  let d := new[i]?
  let bit := fun (x : Option Nat) (b : Nat) => match x with
    | some x => bitAt x (16 + b)
    | none => false
  let s := s.closeTile n (fun k => keySlot k = i && bit o (keyKind k) && !bit d (keyKind k))
  match o, d with
  | some o, some d =>
    if dSrc o ≠ dSrc d || dGain o ≠ dGain d then (s.recoverOne n i).modTile n (fun t => t.freshSlot i true)
    else
      let s := if dChain d 0 && !dChain o 0 then s.modTile n (fun t => { t with c0 := t.c0.modCtx i (·.fresh false) }) else s
      if dChain d 1 && !dChain o 1 then s.modTile n (fun t => { t with c1 := t.c1.modCtx i (·.fresh false) }) else s
  | none, some _ => (s.recoverOne n i).modTile n (fun t => t.freshSlot i true)
  | _, none => s

/-- Sequencer edges from the first edge of a pass to the conversion of slot i (R157); a tile in STATIC that runs settles no more (R158). -/
def Seq.offset (l : List Nat) (i : Nat) : Nat := ((l.take (i + 1)).map dSettle).sum + i
/-- The samples of slot i are unevenly spaced across a commit that keeps mode and rate (R110). -/
def Seq.uneven (old : Seq) (new : List Nat) (i : Nat) : Bool :=
  Seq.offset new i ≠ if old.mode = .static then 0 else Seq.offset old.active i

/-- A commit takes effect at edge e (R168): a change of rate or of a slot's place in the pass closes blocks and starts contexts afresh (R225); a changed SRC
or GAIN restarts a tracking in progress (R268). -/
def State.applyCommit (s : State) (n e : Nat) (c : SeqCommit) : State :=
  let old := (s.tile n).seq
  let s := (List.range (max old.active.length c.list.length)).foldl (fun s i => s.commitSlot n old.active c.list i) s
  let s := s.modSeq n (fun q => { q with
    active := c.list, mode := c.mode, passes := c.passes,
    trigSrc := c.trigSrc, trigArg := c.trigArg, commit := none, slot := 0, rep := 0, pass := 0, next := none, ended := false,
    rest := none, trigger := none, armed := decide (c.mode = .burst), armEdge := e })
  let s := if old.trigger.isSome then s.endOp 0x0304 n .busy 0 else s
  let s := if c.mode ≠ .burst then s.endOp 0x0303 n .busy 0 else s
  let s := if (s.tile n).seq.spacing ≠ old.spacing || c.mode ≠ old.mode then
      (s.closeTile n (fun _ => true)).modTile n (·.freshAll)
    else if old.next.isSome then s.closeTile n (fun k => old.uneven c.list (keySlot k))
    else s
  let moved := (List.range c.list.length).any (fun i =>
    dSrc (old.active.getD i 0) ≠ dSrc (c.list.getD i 0) || dGain (old.active.getD i 0) ≠ dGain (c.list.getD i 0))
  let g := groupOfTile n
  let s := if moved && (s.group g).sched.use = .tracking n then
      s.modGroup g (fun x => { x with sched := { x.sched with tracked := [], diffs := [] } })
    else s
  let s := s.takePending (dieOfTile n)
  if (s.tile n).converting then
    match c.mode with
    | .static | .scan => s.seqAt n e
    | _ => s
  else s

/-- SEQ_COMMIT_EFFECTIVE: the effective edge of tile n's pending commit has come (R167). -/
def execSeqCommitEffective (n : Nat) (s : State) : Host.Outcome State Fault Refusal :=
  if s.nTiles ≤ n then .fault (.absentUnit "tile" n)
  else match (s.tile n).seq.commit, s.commitEdge n with
    | some c, some e => if e ≤ s.edge then .next (s.applyCommit n e c) else .next s
    | _, _ => .next s

/-! ### Commands (R176 to R180) -/

def seqSlotsSpec : CmdSpec :=
  { opcode := 0x0301
    names := tileNames
    refuse := fun r w s =>
      let n := r.u 16 0 16
      let k := r.u 19 0 4
      [beyondTile s n, (32 < r.u 18 0 5 + k || k = 0 || 8 < k, .badParam),
       ((List.range k).any (fun i => dBad (r.u (20 + 4 * i) 0 32)), .badParam), needs w 1, notOwner s r n, tileIsFenced s n,
       tileSealed s n]
    act := fun r s =>
      let f := r.u 18 0 5
      { st := s.modSeq (r.u 16 0 16) (fun q => { q with
          shadow :=
          (List.range (r.u 19 0 4)).foldl (fun l i => l.set (f + i) (dMask (r.u (20 + 4 * i) 0 32))) q.shadow }) } }

/-- SEQ_SLOTS (R177). -/
def execSeqSlots (r : Req) (s : State) : Host.Outcome State Fault Refusal := .next (seqSlotsSpec.run r s)

def seqModeOf (m : Nat) : SeqMode :=
  match m with
  | 0 => .static
  | 1 => .scan
  | 2 => .burst
  | _ => .triggered

/-- The commit a SEQ_COMMIT asks for (R178). -/
def commitOf (r : Req) (s : State) : SeqCommit :=
  { list := ((s.tile (r.u 16 0 16)).seq.shadow).take (r.u 19 0 6), mode := seqModeOf (r.u 18 0 2), passes := r.u 20 0 16,
    trigSrc := r.u 22 0 3, trigArg := r.u 23 0 8, sinceEdge := s.edge }

/-- What R56, R68, R154, R158 and R163 refuse with BAD_PARAM. -/
def SeqCommit.bad (c : SeqCommit) (auxPair : Nat) : Bool :=
  let l := c.list
  let one := l.all (fun d => dRepeat d = 1)
  let prev := fun i => l.getD ((i + l.length - 1) % l.length) 0
  l.any dBad
  || l.any (fun d => dSrc d = 6 || dSrc d = 7 || !gainAllowed (dSrc d) (dGain d)
      || (9 ≤ dSrc d && dSrc d % 2 = 1 && bitAt auxPair ((dSrc d - 8) / 2)))
  || (List.range l.length).any (fun i => dSettle (l.getD i 0) < settleMin (prev i) (l.getD i 0))
  || (match c.mode with
      | .static => l.length ≠ 1 || !one
      | .scan => l.length < 2 || !one
      | _ => l.length = 0 || c.passes = 0)
  || (if c.mode = .triggered then c.trigSrc = 0 || 6 ≤ c.trigSrc else c.trigSrc ≠ 0)

/-- What R58, R59 and R166 refuse with RIGHTS. DESIGN CHOICE (log 79): so is a TRIG_ARG that names a stove the node does not have. -/
def State.commitRights (s : State) (n : Nat) (c : SeqCommit) : Bool :=
  let own := s.tileOwner n
  c.list.any (fun d =>
    (dSrc d = 1 && s.tileOwner (n ^^^ 1) ≠ own)
    || (dAux (s.group (groupOfTile n)).fe.auxPair d).any (fun k => s.auxOwner (8 * groupOfTile n + k) ≠ some own))
  || (c.trigSrc = 3 && (s.nStoves ≤ c.trigArg % 32 || s.stoveOwner (c.trigArg % 32) ≠ own))
  || (c.trigSrc = 4 && s.tileOwner (32 * dieOfTile n + c.trigArg % 32) ≠ own)

/-- What R205 refuses while chain 1 is held by an unbroken sealed hearth: a changed or cleared slot of the chain, or a change of MODE or
LENGTH that changes the rate of such a slot. -/
def Seq.breaksChain1 (q : Seq) (c : SeqCommit) : Bool :=
  let cont := fun (m : SeqMode) => m = .static || m = .scan
  let new : Seq := { q with active := c.list, mode := c.mode }
  (q.feeding 1).any (fun i =>
    let o := q.active.getD i 0
    let d := c.list.getD i 0
    o % 65536 ≠ d % 65536 || dRepeat o ≠ dRepeat d || !dChain d 1
    || ((q.mode ≠ c.mode || q.active.length ≠ c.list.length) && (cont q.mode ≠ cont c.mode || q.spacing ≠ new.spacing)))

def seqCommitSpec : CmdSpec :=
  { opcode := 0x0302
    names := fun r => nNode 1 :: tileNames r
    budget := true
    refuse := fun r w s =>
      let n := r.u 16 0 16
      let c := commitOf r s
      let t := s.tile n
      let new := s.modSeq n (fun q => { q with active := c.list, mode := c.mode })
      [beyondTile s n, (r.u 19 0 6 = 0 || 32 < r.u 19 0 6, .badParam), (c.bad (s.group (groupOfTile n)).fe.auxPair, .badParam),
       needs w 1, notOwner s r n, (s.commitRights n c, .rights), tileIsFenced s n, tileSealed s n,
       (s.intact (s.chain1Holder n) && t.seq.breaksChain1 c, .sealed),
       ((t.force.mode ≠ .forceSense || t.force.ramp) && c.list.any (fun d => dSrc d = 5), .combination),
       (t.seq.commit.isSome, .busy),
       ((t.tc0.state ≠ .disabled && c.list.length ≤ t.tc0.slot) || (t.tc1.state ≠ .disabled && c.list.length ≤ t.tc1.slot), .busy),
       (s.budgetBad new n, .budget)]
    act := fun r s =>
      let n := r.u 16 0 16
      let c := commitOf r s
      if (s.tile n).converting then
        { st := s.modSeq n (fun q => { q with commit := some c }) }
      else { st := s.applyCommit n s.edge c } }

/-- SEQ_COMMIT (R178): the list is scheduled under R167. -/
def execSeqCommit (r : Req) (s : State) : Host.Outcome State Fault Refusal := .next (seqCommitSpec.run r s)

/-- What an operation in progress is recorded under: its opcode, naming nothing. -/
def opMark (opcode : Nat) : CmdSpec := { opcode := opcode, refuse := fun _ _ _ => [], act := fun _ s => { st := s } }

def seqArmSpec : CmdSpec :=
  { opcode := 0x0303
    names := tileNames
    refuse := fun r _ s =>
      let n := r.u 16 0 16
      let t := s.tile n
      [beyondTile s n, notOwner s r n, tileIsFenced s n, (t.seq.mode ≠ .burst, .combination),
       (t.seq.next.isSome || t.seq.ended || t.seq.armed, .busy)]
    act := fun r s =>
      let n := r.u 16 0 16
      let s := s.modSeq n (fun q => { q with armed := true, rest := none, armEdge := s.seqEdge n (s.edge + 1) })
      if (s.tile n).converting then
        { st := s.startOp (opMark 0x0303) n r 0 0, late := true }
      else { st := s } }

/-- SEQ_ARM (R179). -/
def execSeqArm (r : Req) (s : State) : Host.Outcome State Fault Refusal := .next (seqArmSpec.run r s)

def seqTriggerSpec : CmdSpec :=
  { opcode := 0x0304
    names := tileNames
    refuse := fun r _ s =>
      let n := r.u 16 0 16
      let t := s.tile n
      [beyondTile s n, notOwner s r n, tileIsFenced s n, (t.seq.mode ≠ .triggered || t.seq.trigSrc ≠ 2, .combination)]
    act := fun r s =>
      let n := r.u 16 0 16
      let deaf := (s.tile n).deaf
      let s := s.arrive { tile := n, src := 2, at64 := 64 * r.u 24 0 64 }
      if deaf then { st := s, status := .busy }
      else { st := s.startOp { opMark 0x0304 with names := tileNames } n r 0 0, late := true } }

/-- SEQ_TRIGGER (R179): a HOST trigger; one that is not acted on completes with BUSY and counts. -/
def execSeqTrigger (r : Req) (s : State) : Host.Outcome State Fault Refusal := .next (seqTriggerSpec.run r s)

/-- The record of SEQ_STATUS (R180). DESIGN CHOICE (log 79): of a pass of more than 65,535 edges EDGES shows the low 16 bits. -/
def State.seqRecord (s : State) (n : Nat) : Nat :=
  let t := s.tile n
  let q := t.seq
  let mode := match q.mode with
    | .static => 0
    | .scan => 1
    | .burst => 2
    | .triggered => 3
  let st := if !t.converting then 0 else if q.next.isSome then 1 else 2
  mkRec [⟨0, 0, 16, n⟩, ⟨2, 0, 2, mode⟩, ⟨2, 2, 2, st⟩, ⟨2, 4, 1, b2n q.commit.isSome⟩, ⟨3, 0, 5, q.slot⟩,
    ⟨4, 0, 16, q.pass⟩, ⟨6, 0, 16, if mode = 0 then 1 else passEdges q.active⟩, ⟨8, 0, 32, q.trigCnt.n⟩,
    ⟨12, 0, 16, q.trigMiss.n⟩, ⟨14, 0, 16, q.lateTrig.n⟩, ⟨16, 0, 64, q.lastTrig⟩, ⟨24, 0, 1, b2n q.trigCnt.sat⟩,
    ⟨24, 1, 1, b2n q.trigMiss.sat⟩, ⟨24, 2, 1, b2n q.lateTrig.sat⟩]

def seqStatusSpec : CmdSpec :=
  { opcode := 0x0305
    names := tileNames
    read := true
    data := fun r _ => resultAt r 24 64
    refuse := fun r _ s => [beyondTile s (r.u 16 0 16), notOwner s r (r.u 16 0 16)]
    act := fun r s => reply s r 24 64 (s.seqRecord (r.u 16 0 16)) }

/-- SEQ_STATUS (R180). -/
def execSeqStatus (r : Req) (s : State) : Host.Outcome State Fault Refusal := .next (seqStatusSpec.run r s)

end Sys2Proof.Machine
end

