-- ==== Sys2Proof/Machine/CalBase.lean ====
section
/-! DEFINITION. The calibration state of a core, by core number (a tile index, or 1024 + group for a reserve core), and what
other chapters do to a calibration in progress (R250, R266). -/

set_option Elab.async false

namespace Sys2Proof.Machine

def State.calCore (s : State) (c : Nat) : CalCore := if c < 1024 then (s.tile c).cal else (s.group (c - 1024)).cal
def State.modCal (s : State) (c : Nat) (f : CalCore → CalCore) : State :=
  if c < 1024 then s.modTile c (fun t => { t with cal := f t.cal })
  else s.modGroup (c - 1024) (fun g => { g with cal := f g.cal })
def State.modSched (s : State) (g : Nat) (f : GroupCal → GroupCal) : State :=
  s.modGroup g (fun x => { x with sched := f x.sched })

/-- A core changed, by its number. -/
def State.modCore (s : State) (c : Nat) (f : Core → Core) : State :=
  if c < 1024 then s.modTile c (fun t => { t with core := f t.core })
  else s.modGroup (c - 1024) (fun g => { g with core := f g.core })
def State.core (s : State) (c : Nat) : Core := if c < 1024 then (s.tile c).core else (s.group (c - 1024)).core

/-- INSTANCE of a core: bit 16 marks a reserve core, named by the first tile of its group (R513). -/
def coreInst (c : Nat) : Nat := if c < 1024 then c else 8 * (c - 1024) + 65536

/-- k conversions of a core with `forced` forced decisions, which are counted; 64 or more within 1 ms report CORE_LATE (R90, R113, R516). -/
def State.converted (s : State) (c k forced : Nat) : State :=
  let s := s.modCore c (fun x => { x with convCnt := x.convCnt + k })
  if forced = 0 then s
  else
    let l := (List.replicate (min forced 64) s.now ++ (s.core c).lateTimes).take 64
    let s := s.modCore c (fun x => { x with late := x.late.add 16 forced, lateTimes := l })
    if l.length = 64 && s.now ≤ l.getD 63 0 + 1000000 then
      (s.modCore c (fun x => { x with lateTimes := [] })).report 0x01 (coreInst c) 0
    else s

/-- The group of a core. -/
def coreGroup (c : Nat) : Nat := if c < 1024 then groupOfTile c else c - 1024

/-- What the reserve of a group does changes. Where it stops converting alongside a tile, the blocks of the tile's span streams close
(R110, R262). -/
def State.setUse (s : State) (g : Nat) (u : ReserveUse) : State :=
  let s := match (s.group g).sched.use with
    | .tracking n | .handingBack n => s.closeTile n (fun k => keySpan k = 1)
    | _ => s
  s.modSched g (fun x => { x with use := u, tracked := [], diffs := [], started := s.now })

/-- The conversions that a core has made of the pass, or of the coarse search, that it is in (R113, R243, R251). -/
def State.passMade (s : State) (x : CalRun) : Nat := min (if x.coarse then 40960 else 245760) ((s.node.up - x.startUp) / 3125)

/-- A pass that is cut short: its conversions count, and their forced decisions, of which no event tells, are a free number of at most
20 for each conversion (R90, R113). -/
def State.passCut (s : State) (c : Nat) (x : CalRun) : State :=
  let k := s.passMade x
  let f := s.free
  if k = 0 then s else f.2.converted c k (f.1 % (20 * k + 1))

/-- A calibration in progress ends with cause ABORTED: the trims in force before it return (R266). A CAL_RUN that waits for it ends with
CAL_DISAGREE (log 37). -/
def State.calAbort (s : State) (c : Nat) : State :=
  match (s.calCore c).run with
  | none => s
  | some x =>
    ((s.passCut c x).modCal c (fun k => { k with trims := x.before, run := none, cause := 7, state := x.was, stale := false })).endOp 0x0502 c
      .calDisagree 0

/-- The reserve of a group leaves what it does for tile n, when it is for tile n: its tile stops converting, or goes into force (R262). The
commands that wait for it end (log 37). -/
def State.calLeave (s : State) (n : Nat) : State :=
  let g := groupOfTile n
  match (s.group g).sched.use with
  | .tracking m => if m = n then ((s.setUse g .free).endOp 0x0502 n .calDisagree 0).endOp 0x0506 n .calDisagree 0 else s
  | .covering m => if m = n then (s.calAbort n).setUse g .free else s
  | .handingBack m => if m = n then (s.setUse g .free).endOp 0x0506 n .ok 0 else s
  | _ => s

/-- What a calibration of tile n does when its tile goes into a force mode: it gives way; CAL_SUBST and a fault substitution stay (R141, R142). -/
def State.calYield (s : State) (n : Nat) : State :=
  let x := (s.group (groupOfTile n)).sched
  if x.purpose = .manual || x.purpose = .fault then s.calAbort n else (s.calLeave n).calAbort n

/-- The reserve delivers the words of tile n (R262, R265). -/
def State.covered (s : State) (n : Nat) : Bool :=
  match (s.group (groupOfTile n)).sched.use with
  | .covering m | .handingBack m | .substituting m => m = n
  | _ => false

/-- The reserve converts alongside tile n (R262). -/
def State.trackedBy (s : State) (n : Nat) : Bool :=
  match (s.group (groupOfTile n)).sched.use with
  | .tracking m | .handingBack m => m = n
  | _ => false

/-- Power-up calibration of a core has ended: its STATE is no longer 0 (R253, R272). -/
def State.calUp (s : State) (c : Nat) : Bool := (s.calCore c).state ≠ 0

/-- The cores of a die: its tiles and its reserves. -/
def dieCores (d : Nat) : List Nat :=
  (List.range 32).map (fun t => 32 * d + t) ++ (List.range 4).map (fun g => 1024 + 4 * d + g)

/-- READY is set once every die is KINDLED or fenced, every lane due is kindled, power-up calibration has ended on every core not fenced,
the trust record is loaded, metering restore has ended and the fault manager has passed its self-test; never under FATAL (R558, R564). -/
def State.checkReady (s : State) : State :=
  let n := s.node
  let dies := List.range n.dies
  let up := dies.all (fun d => s.dieFenced d || (tget {} n.kindle d).kindled)
  let lanes := (s.isWorker || n.pcieLanes = 8) && (s.isAlone || n.ringLanes = 8)
  let cal := dies.all (fun d => s.dieFenced d || (dieCores d).all (fun c =>
    s.coreFenced c || s.groupFenced (coreGroup c) || (decide (c < 1024) && s.tileFenced c) || s.calUp c))
  if up && lanes && cal && n.trustLoaded && n.meterRestored && s.faults.selfTest && !s.faults.fatal && !n.inReset then
    { s with node := { n with ready := true } }
  else s

end Sys2Proof.Machine
end

