-- ==== Sys2Proof/Machine/AgeBase.lean ====
section
/-! DEFINITION. The soot gauges: their margins, thresholds, events and hours left (R569 to R572). -/

set_option Elab.async false

namespace Sys2Proof.Machine

def State.dieAge (s : State) (d : Nat) : DieAge := tget {} s.age.dies d
def DieAge.gauge (a : DieAge) (i : Nat) : Gauge := tget {} a.gauges i
def DieAge.step (a : DieAge) (g : Nat) : Nat := tget 7 a.groupStep g

/-- Operating time in seconds (R573). -/
def State.opSeconds (s : State) : Nat := s.meter.opSeconds + s.node.up / 64000000000

/-- Gauges 11 to 13 exist on die 0 only (R569). -/
def gaugeThere (d i : Nat) : Bool := decide (i < 16) && (d = 0 || i < 11 || 13 < i)

/-- The island cycle at step 7 in fs of the islands that gauges 0 to 6 cover (R27). -/
def gaugeCycle (i : Nat) : Nat := if i = 4 || i = 5 then 1000000 else 2000000

/-- The step in force of the islands of gauges 0 to 6. -/
def State.gaugeStep (s : State) (d i : Nat) : Nat :=
  if i < 4 then (s.dieAge d).step i
  else if i = 4 then tget 7 s.node.stoveStep d
  else if i = 5 then s.engineStep d
  else (s.dieAge d).fabricStep

/-- The decision window of a bit-time level in fs (R576). -/
def btWindow (bt : Nat) : Nat := [1400000, 1500000, 1600000, 2400000].getD bt 2400000

/-- 1 - delay / span, in 0.01 %, rounded down. -/
def marginOf (delay : Int) (num den : Nat) : Int := 10000 + (-(10000 * delay * (num : Int))) / (den : Int)

/-- The margin of gauges 0 to 6 at a step, and of gauge 7 at a bit-time level. -/
def stepMargin (i : Nat) (raw : Int) (step : Nat) : Int := marginOf raw (step + 1) (8 * gaugeCycle i)
def btMargin (raw : Int) (bt : Nat) : Int := marginOf raw 1 (btWindow bt)

/-- The margin of a gauge from its raw measure, at the steps in force. -/
def State.gaugeMargin (s : State) (d i : Nat) (raw : Int) : Int :=
  if i < 7 then stepMargin i raw (s.gaugeStep d i)
  else if i = 7 then btMargin raw (s.dieAge d).bt
  else raw

/-- The thresholds of R569: warn, act (none where the gauge has none), exhausted. -/
def gaugeLimits (i : Nat) : Int × Option Int × Int :=
  if i < 7 then (1200, some 800, 300)
  else if i = 7 then (1500, some 1000, 300)
  else if i = 8 then (6000, some 5000, 0)
  else if i = 9 then (5000, some 2500, 0)
  else if i = 10 then (1500, none, 500)
  else if i < 13 then (6250, some 5000, 5000)
  else if i = 13 then (6250, none, 5000)
  else (5000, none, 2500)

/-- The lowest step of the islands of a gauge (R575). -/
def gaugeFloor (i : Nat) : Nat := if i < 4 || i = 6 then 4 else 0

/-- A lowering of the islands of a gauge is held pending (R575). -/
def DieAge.pends (a : DieAge) (i : Nat) : Bool := (i = 4 && a.stovePend) || (i = 5 && a.filtPend) || (i = 6 && a.fabricPend)

/-- The oblyn port of gauges 11 and 12. -/
def State.gaugePort (s : State) (i : Nat) : RingPort := if i = 11 then s.ring.east else s.ring.west

/-- The exhausted condition of a gauge (R569, R575). -/
def State.exhausted (s : State) (d i : Nat) (margin : Int) : Bool :=
  let a := s.dieAge d
  if i < 7 then decide (margin < 300) && (s.gaugeStep d i = gaugeFloor i || a.pends i)
  else if i = 7 then decide (margin < 300) && s.node.derated.contains d
  else if i = 8 then a.drift.any (fun e => decide (180000 < e.2))
  else if i = 9 then decide (margin < 0) ||
    (decide (16 ≤ a.triad.length) && (match a.triad.head? with
      | some (_, some m) => a.triad.all (fun e => e.2 = some m)
      | _ => false))
  else if i = 11 || i = 12 then decide (margin < 5000) && (s.gaugePort i).rate
  else decide (margin < (gaugeLimits i).2.2)

/-- The numerator and denominator of the least-squares slope of a list of hourly means, newest first (R572). -/
def slopeOf (l : List Int) : Int × Int :=
  let n : Int := l.length
  let t := l.foldl (fun (a : Int × Int × Int) y => (a.1 + a.2.2 * y, a.2.1 + y, a.2.2 - 1)) (0, 0, 0)
  let sx : Int := -(n * (n - 1) / 2)
  let sxx : Int := n * (n - 1) * (2 * n - 1) / 6
  (n * t.1 - sx * t.2.1, n * sxx - sx * sx)

/-- Hours left of a gauge (R572). -/
def State.hoursLeft (s : State) (d i : Nat) : Nat :=
  let a := s.dieAge d
  let g := a.gauge i
  let all := g.hours.take 1000
  let l := if i = 11 || i = 12 then all.take g.sinceRate else all
  let raw := if g.read then g.raw else l.headD 0
  let margin := if g.read then g.margin else raw
  if (if g.read then s.exhausted d i g.margin else g.alarm) then 0
  else if l.length < 24 then 0xFFFFFFFF
  else
    let b := slopeOf l
    if i < 8 then
      let span : Int := if i < 7 then 8 * gaugeCycle i else btWindow a.bt
      let k : Int := if i < 7 then s.gaugeStep d i + 1 else 1
      if b.1 ≤ 0 then 0xFFFFFFFF else min 0xFFFFFFFF ((97 * span - 100 * k * raw) * b.2 / (100 * k * b.1)).toNat
    else if 0 ≤ b.1 then 0xFFFFFFFF
    else min 0xFFFFFFFF ((margin - (gaugeLimits i).2.2) * b.2 / (-b.1)).toNat

/-- An event of a gauge to the PF's default event queue of the manager (R588). -/
def State.sootEvent (s : State) (code d i : Nat) : State :=
  s.raise code 15 (d + 256 * i) (toU 16 ((s.dieAge d).gauge i).margin + s.hoursLeft d i * 2 ^ 32)

/-- A threshold was not met within the last 24 h. -/
def dayPassed (now : Nat) (t : Option Nat) : Bool :=
  match t with
  | none => true
  | some x => decide (x + 86400000000000 ≤ now)

/-- A new reading of a gauge: its margin, its marks and what crossing a threshold raises (R571). -/
def State.gaugeUpdate (s : State) (d i : Nat) (raw : Int) : State :=
  let m := s.gaugeMargin d i raw
  let old := (s.dieAge d).gauge i
  let lim := gaugeLimits i
  let ex := s.exhausted d i m
  let below := fun (t : Int) => decide (m < t) && (!old.read || decide (t ≤ old.margin))
  let acts := match lim.2.1 with
    | some t => below t
    | none => false
  let warnNow := below lim.1 && dayPassed s.now old.lastWarn
  let actNow := acts && dayPassed s.now old.lastAct
  let s := s.modAge d (fun a => { a with
    lastSample := s.stamp
    gauges := tmod {} a.gauges i (fun g => { g with
      read := true, raw := raw, margin := m, lastRead := some s.now, sum := g.sum + raw, count := g.count + 1,
      warn := decide (m < lim.1), alarm := g.alarm || ex,
      lastWarn := if warnNow then some s.now else g.lastWarn, lastAct := if actNow then some s.now else g.lastAct }) })
  let s := if warnNow then s.sootEvent 0x0E01 d i else s
  let s := if actNow then s.sootEvent 0x0E02 d i else s
  if ex && !old.alarm then s.report 0x2C d i else s

/-- A triad check of a die: the divergence in 0.01 ppm and the member outvoted (R246, R569). -/
def State.triadCheck (s : State) (d div : Nat) (out : Option Nat) : State :=
  s.modAge d (fun a => { a with triad := ((div, out) :: a.triad).take 16 })

/-- Gauges 8, 9 and 10 of a die at a successful calibration: `worst` is the largest product of drift in nV per hour and ROLL_PERIOD of
CAL_CONFIG, `anchor` is TRIAD_ANCHOR in 0.1 ppm, `headroom` the largest of the die in per cent (R570). -/
def State.gaugesOfCal (s : State) (d worst anchor headroom : Nat) : State :=
  let t := (s.dieAge d).triad
  let div : Int := if t.isEmpty then 0 else ((t.foldl (fun a e => a + e.1) 0) / t.length : Nat)
  let s := s.gaugeUpdate d 8 (marginOf worst 1 10800000)
  let s := s.gaugeUpdate d 9 (if anchor = 0 then 0 else marginOf div 1 (10 * anchor))
  s.gaugeUpdate d 10 (10000 - 100 * (headroom : Int))

end Sys2Proof.Machine
end

