-- ==== Sys2Proof/Machine/Crypto.lean ====
section
/-! DEFINITION. The check codes: CRC-32C, the Tirwin CRC (R284, R500), SHA-256 and HMAC-SHA-256 (R472, R478). -/

set_option Elab.async false

namespace Sys2Proof.Machine

/-- The low n bits of v in reverse order. -/
def revBits (v : Nat) : Nat → Nat
  | 0 => 0
  | n + 1 => v % 2 * 2 ^ n + revBits (v / 2) n

/-- One byte into a reflected 32-bit CRC of reflected polynomial p. -/
def crcByte (p c b : Nat) : Nat :=
  (List.range 8).foldl (fun c _ => if c % 2 = 1 then (c / 2) ^^^ p else c / 2) (c ^^^ b)

/-- The raw CRC-32C register over bytes. -/
def crc32cRaw (c : Nat) (l : List Byte) : Nat := l.foldl (fun c b => crcByte 0x82F63B78 c b.toNat) c

/-- CRC-32C. -/
def crc32c (l : List Byte) : Nat := crc32cRaw 0xFFFFFFFF l ^^^ 0xFFFFFFFF

/-- The raw Tirwin CRC register over bytes, and the Tirwin CRC (R500). -/
def tirwinRaw (c : Nat) (l : List Byte) : Nat := l.foldl (fun c b => crcByte 0xC8DF352F c b.toNat) c
def tirwinCrc (l : List Byte) : Nat := tirwinRaw 0xFFFFFFFF l ^^^ 0xFFFFFFFF

/-- The n bytes of a little-endian number. -/
def leBytes (v : Nat) : Nat → List Byte
  | 0 => []
  | n + 1 => BitVec.ofNat 8 v :: leBytes (v / 256) n

/-- The n bytes of a big-endian number. -/
def beBytes (v n : Nat) : List Byte := (leBytes v n).reverse

/-! ### SHA-256 -/

def w32 (v : Nat) : Nat := v % 2 ^ 32

/-- The greatest r below 2^n more than r0 whose k-th power does not exceed x, bit by bit from the highest. -/
def rootFrom (k x : Nat) : Nat → Nat → Nat
  | 0, r => r
  | n + 1, r => rootFrom k x n (if (r + 2 ^ n) ^ k ≤ x then r + 2 ^ n else r)

/-- The primes below 312: the first 64. -/
def primes : List Nat := (List.range 312).filter (fun p => 2 ≤ p && [2, 3, 5, 7, 11, 13, 17].all (fun d => p = d || p % d ≠ 0))

/-- The first 32 bits of the fraction of the k-th root of p: SHA-256 takes its constants from the roots of the primes. -/
def rootBits (k p : Nat) : Nat := w32 (rootFrom k (p * 2 ^ (32 * k)) 37 0)

/-- The exclusive or of x turned right by each of these distances. -/
def turns (x : Nat) (l : List Nat) : Nat := l.foldl (fun a n => a ^^^ (x >>> n ||| w32 (x <<< (32 - n)))) 0

/-- One of the 64 steps over two chains of four words, newest first, and the window of the next 16 message words, oldest first. -/
def shaStep (x : (List Nat × List Nat) × List Nat) (k : Nat) : (List Nat × List Nat) × List Nat :=
  let win := fun (i : Nat) => x.2.getD i 0
  let grown := win 0 + win 9 + (turns (win 1) [7, 18] ^^^ win 1 >>> 3) + (turns (win 14) [17, 19] ^^^ win 14 >>> 10)
  let hi := fun (i : Nat) => x.1.1.getD i 0
  let lo := fun (i : Nat) => x.1.2.getD i 0
  let pick := (lo 0 &&& lo 1) ||| (lo 2 &&& (lo 0 ^^^ (2 ^ 32 - 1)))
  let most := (hi 0 &&& hi 1) ||| (hi 2 &&& (hi 0 ||| hi 1))
  let t := lo 3 + turns (lo 0) [6, 11, 25] + pick + k + win 0
  ((w32 (t + turns (hi 0) [2, 13, 22] + most) :: x.1.1.take 3, w32 (hi 3 + t) :: x.1.2.take 3), x.2.drop 1 ++ [w32 grown])

def beNat (l : List Byte) : Nat := l.foldl (fun a b => 256 * a + b.toNat) 0

/-- A message in blocks of 64 bytes, folded into the eight words. -/
def shaFold (ks : List Nat) : Nat → List Byte → List Nat → List Nat
  | 0, _, h => h
  | n + 1, m, h =>
    let win := (List.range 16).map (fun i => beNat ((m.drop (4 * i)).take 4))
    let r := (ks.foldl shaStep ((h.take 4, h.drop 4), win)).1
    shaFold ks n (m.drop 64) (List.zipWith (fun a b => w32 (a + b)) h (r.1 ++ r.2))

/-- SHA-256 of a message: 32 bytes (FIPS 180-4). -/
def sha256 (m : List Byte) : List Byte :=
  let blocks := (m.length + 72) / 64
  let pad := (0x80 : Byte) :: List.replicate (64 * blocks - m.length - 9) 0 ++ beBytes (8 * m.length) 8
  (shaFold (primes.map (rootBits 3)) blocks (m ++ pad) ((primes.take 8).map (rootBits 2))).flatMap (fun w => beBytes w 4)

/-- HMAC-SHA-256 with a key of at most 64 bytes. -/
def hmacSha256 (key m : List Byte) : List Byte :=
  let k := key ++ List.replicate (64 - key.length) 0
  sha256 (k.map (· ^^^ 0x5c) ++ sha256 (k.map (· ^^^ 0x36) ++ m))

end Sys2Proof.Machine
end

