-- ==== Sys2Proof/Machine/ClogBase.lean ====
section
/-! DEFINITION. The change log's entries: their bytes, the chain of digests, the marks CLOG_HIGH and CLOG_FULL (R477 to R480). -/

set_option Elab.async false

namespace Sys2Proof.Machine

/-- The first 16 B of the SHA-256 of an entry (R478). -/
def clogDigest (e : BitVec 512) : Nat := leNat ((sha256 (leBytes e.toNat 64)).take 16)

/-- The 64 B of an entry (R478). -/
def ClogStaged.entry (x : ClogStaged) (boot lseq prev : Nat) : BitVec 512 :=
  BitVec.ofNat 512 (mkRec [⟨0, 0, 32, lseq⟩, ⟨4, 0, 16, x.action⟩, ⟨6, 0, 8, x.status.code⟩, ⟨7, 0, 2, x.role⟩, ⟨8, 0, 64, x.time⟩,
    ⟨16, 0, 32, boot⟩, ⟨20, 0, 6, x.node⟩, ⟨21, 0, 4, x.func⟩, ⟨22, 0, 16, x.serial⟩, ⟨24, 0, 192, x.detail⟩, ⟨48, 0, 128, prev⟩])

/-- A log-queue copy of an entry for the PF: two entries, PART 0 and PART 1 (R398); on a worker it travels in a LOG frame (R434). -/
def State.copyEntry (s : State) (e : BitVec 512) : State :=
  if s.isWorker then s.sendFrame { type := .log, dst := some 0, aux := 1, body := e.toNat }
  else
    let c : LogCopy := {
      time := bits e.toNat 64 64, lseq := bits e.toNat 0 32, source := 1, part := 0, body := e.toNat % 2 ^ 384 }
    let put := fun (s : State) (c : LogCopy) =>
      match (s.fn 0).logQid with
      | none => s
      | some q =>
        if (s.fn 0).logStage.length < 64 then s.modFn 0 (fun x => { x with logStage := x.logStage ++ [c] })
        else if (s.queue q).policy then (s.modFn 0 (fun x => { x with logStage := x.logStage.drop 1 ++ [c] })).queueLost q 1
        else s.queueLost q 1
    put (put s c) { c with part := 1, body := e.toNat / 2 ^ 384 }

/-- An entry is programmed: it takes LSEQ and PREV and is in the log; CLOG_HIGH at 3,584 entries in use, CLOG_FULL at 4,080 (R480). -/
def State.clogAppend (s : State) (x : ClogStaged) : State :=
  let c := s.clog
  let prev := match c.entries.getLast? with
    | some e => clogDigest e
    | none => 0
  let e := x.entry s.node.bootCnt c.nextLseq prev
  let s := { s with clog := { c with entries := c.entries ++ [e], nextLseq := c.nextLseq + 1 } }
  let s := s.copyEntry e
  let n := s.clog.entries.length
  if n = 3584 then s.raise 0x0B03 15 n c.nextLseq
  else if n = 4080 then s.raise 0x0B04 15 n c.nextLseq
  else s

/-- A device entry waits for its programming (R477, R625). -/
def State.stageDevice (s : State) (action detail : Nat) : State :=
  s.stage { action := action, status := .ok, role := 3, time := s.now, node := s.ring.nodeNo, func := 15, serial := 0,
            detail := detail, why := .device }

end Sys2Proof.Machine
end

