-- ==== Sys2Proof/Machine/Force.lean ====
section
/-! DEFINITION. Reversible tiles: modes, the slew generator, limits and shorts, safe actions, loopback, and their
commands (R115 to R153). -/

set_option Elab.async false

namespace Sys2Proof.Machine

def TileMode.forcing (m : TileMode) : Bool := m = .force || m = .forceSense
def TileMode.code : TileMode → Nat
  | .off => 0 | .acq => 1 | .force => 2 | .forceSense => 3
def modeOf (c : Nat) : TileMode :=
  match c with
  | 0 => .off
  | 1 => .acq
  | 2 => .force
  | _ => .forceSense

/-- The force and return switches are closed (R116). -/
def Force.driving (f : Force) : Bool :=
  f.mode.forcing && (f.phase = .normal || f.phase = .limit || f.phase = .foldback)

/-! ### The slew generator (R127, R128) -/

/-- The sign of an integer. -/
def sgn (i : Int) : Int := if i < 0 then -1 else if 0 < i then 1 else 0

/-- v moved toward zero by x, stopping there. -/
def towardZero (v x : Int) : Int := if v < 0 then min (v + x) 0 else max (v - x) 0

/-- One update of R128 toward tgt; k is 1 in FORCE and 2 in FORCE_SENSE. Position in 1/(2^15 x 10^8) V, rate in
1/(64 x 10^5) V/us, so that a x dt is ACC x 3125 x k and v x dt is v x 25000 x k, both exact (log 9). -/
def slewUpdate (vmax acc : Nat) (k : Int) (tgt pos v : Int) : Int × Int :=
  let adt := (acc : Int) * 3125 * k
  let vm := (vmax : Int) * 6400
  let d := tgt - pos
  if d = 0 && v = 0 then (pos, v)
  else
    let v1 :=
      if v ≠ 0 && sgn d ≠ sgn v then towardZero v adt
      else if (d.natAbs : Int) * acc ≤ 4 * v * v + v.natAbs * 25000 * k * acc then towardZero v adt
      else clampI (-vm) vm (v + sgn d * adt)
    if sgn d = sgn v1 && d.natAbs ≤ (v1.natAbs : Int) * 25000 * k && (v1.natAbs : Int) ≤ 2 * adt then (tgt, 0)
    else (pos + v1 * 25000 * k, v1)

/-- Where the generator is heading: a ramp-down to 0 V before all, HOLD where it stands, else the target (R123, R128, R143). -/
def Force.goal (f : Force) : Int :=
  if f.ramp then 0 else if f.hold && f.held = 1 then f.pos else forcePos f.range f.target

/-- One update of a force path that drives and is not frozen (R128, R131, R143). HOLD brings the generator to rest under its limits; a
ramp-down goes on under it (log 79). -/
def Force.step (f : Force) (k : Int) : Force :=
  if f.phase = .limit then { f with v := 0 }
  else if f.hold && f.held = 1 && !f.ramp then
    if f.slew then
      let v := towardZero f.v ((f.acc : Int) * 3125 * k)
      { f with v := v, pos := f.pos + v * 25000 * k }
    else f
  else if f.slew then
    let r := slewUpdate f.vmax f.acc k f.goal f.pos f.v
    { f with pos := r.1, v := r.2 }
  else { f with pos := f.goal, v := 0 }

/-- An update takes the latest target that reached the register at least 8 ns before (R126). -/
def Force.take (f : Force) (clock : Nat) : Force :=
  let got := f.inbox.filter (fun e => e.1 + 512 ≤ clock)
  { f with inbox := f.inbox.filter (fun e => clock < e.1 + 512), target := (got.getLast?.map (·.2)).getD f.target }

/-- FORCE_UPDATE: at a draught edge in FORCE, at a refresh edge (even E) in FORCE_SENSE, once an edge; frozen in limit,
fold-back, Hi-Z, latch, and until a retry is found good (R124, R128, R131, R135). -/
def execForceUpdate (n : Nat) (s : State) : Host.Outcome State Fault Refusal :=
  let f := (s.tile n).force
  if s.nTiles ≤ n then .fault (.absentUnit "tile" n)
  else if !f.mode.forcing || f.phase = .measuring || (f.mode = .forceSense && s.edge % 2 = 1) || f.updEdge = s.edge + 1 then .next s
  else .next (s.modForce n (fun f =>
    let g := { f.take s.node.clock with updEdge := s.edge + 1 }
    if !(f.phase = .normal || f.phase = .limit) || f.closedAt.isSome then g
    else g.step (if f.mode = .forceSense then 2 else 1)))

/-! ### Targets (R120, R150, R603) -/

/-- A target that is discarded counts (R120). -/
def State.rejectTarget (s : State) (n : Nat) : State := s.modForce n (fun f => { f with rejCnt := f.rejCnt.bump 16 })

/-- A target in the force register: in FORCE with STEP the output updates at it, elsewhere the updates take it (R117, R126, R127). -/
def Force.receive (f : Force) (clock : Nat) (w : Word) : Force :=
  if f.mode = .force && !f.slew && f.phase = .normal && f.closedAt.isNone then
    { f with target := w, inbox := [], pos := forcePos f.range w, v := 0 }
  else { f with inbox := f.inbox ++ [(clock, w)] }

/-- A target from the tile's writer: received, unless a ramp-down or a safe action stands (R123, R143). -/
def State.takeTarget (s : State) (n : Nat) (w : Word) : State :=
  let f := (s.tile n).force
  if f.ramp || f.hold then s.rejectTarget n else s.modForce n (fun f => f.receive s.node.clock w)

/-- A target released by a stove (R603): the tile must be in a force mode and name the stove, and not be latched, nor held by a loopback. -/
def State.stoveTarget (s : State) (sv n : Nat) (w : Word) : State :=
  let f := (s.tile n).force
  if f.mode.forcing && f.writerStove && f.stove = sv && f.phase ≠ .latched && !s.loopbacks.any (fun e => e.1 = n) then s.takeTarget n w
  else s.rejectTarget n

/-! ### Entering and leaving (R121 to R123) -/

/-- The path into force from OFF or ACQ: at rest at the INIT value; MEASURED waits for one conversion (R122). -/
def State.enterForce (s : State) (n : Nat) : State :=
  s.modForce n (fun f =>
    let w : Word := if f.init = 1 then f.initTarget else 0
    let p := if f.init = 2 then ForcePhase.measuring else .normal
    { f with pos := forcePos f.range w, v := 0, target := w, inbox := [], enteredAt := s.node.clock, phase := p, hold := false,
             ramp := false, retry := 0, closedAt := none, cleanSince := none })

/-- The path out of force: the switches open (R123); OFF and ACQ release the force latch (R136). -/
def State.leaveForce (s : State) (n : Nat) : State :=
  s.modForce n (fun f => { f with phase := .none, v := 0, inbox := [], hold := false, ramp := false, retry := 0, closedAt := none, cleanSince := none })

def State.setMode (s : State) (n : Nat) (m : TileMode) : State := s.modForce n (fun f => { f with mode := m })

/-- Conversions begin at a draught edge, from slot 0 with recovery and fresh chains (R96, R169, R222). -/
def State.beginConverting (s : State) (n at_ : Nat) : State :=
  ((s.recoverTile n).modTile n (·.freshAll)).seqEnter n at_

/-- A force mode that follows another, or is named again: the output goes on; a safe action ends, and after its Hi-Z the switches close
at the frozen position, with the word in force as the target (R121, R143, log 36). -/
def State.forceOn (s : State) (n : Nat) (m : TileMode) : State :=
  s.modForce n (fun f => { f with mode := m, hold := false, phase := if f.phase = .safe then .normal else f.phase })

/-- A change of tile mode takes effect, with its first conversion edge at or after draught edge `at_` (R121, R158, R169). -/
def State.enterMode (s : State) (n : Nat) (m : TileMode) (at_ : Nat) : State :=
  let o := (s.tile n).force.mode
  let rest := s.seqRest n
  let s := if (o = .acq || o = .forceSense) && (m = .off || m = .force) then
      ((s.closeTile n (fun _ => true)).seqStop n (m = .force)).calLeave n
    else s
  let s := if m.forcing && !o.forcing then s.calYield n else s
  match o, m with
  | .off, .off | .acq, .acq => s
  | .off, .acq => (s.setMode n .acq).beginConverting n at_
  | .off, .force | .acq, .force => (s.setMode n .force).enterForce n
  | .off, .forceSense => ((s.setMode n .forceSense).enterForce n).beginConverting n at_
  | .acq, .forceSense =>
    (((((s.closeTile n (fun _ => true)).setMode n .forceSense).enterForce n).modTile n (·.freshAll))).seqAcross n at_ rest
  | .acq, .off => s.setMode n .off
  | .force, .force | .forceSense, .forceSense | .forceSense, .force => s.forceOn n m
  | .force, .forceSense => (s.forceOn n m).beginConverting n at_
  | .force, .acq => ((((s.leaveForce n).setMode n .acq).recoverTile n).modTile n (·.freshAll)).seqResume n at_
  | .forceSense, .acq =>
    (((((s.closeTile n (fun _ => true)).leaveForce n).setMode n .acq).recoverTile n).modTile n (·.freshAll)).seqAcross n at_ rest
  | .force, .off | .forceSense, .off => (s.leaveForce n).setMode n .off

/-- The completion of a TILE_MODE, unless the generator still waits for its MEASURED start (R122, R148). -/
def State.modeDone (s : State) (n : Nat) : State :=
  if (s.tile n).force.phase = .measuring then s else s.endOp 0x0207 n .ok 0

/-- RAMP_DOWN_DONE: the generator has come to rest at 0 V; the switches open (R123). -/
def execRampDownDone (n : Nat) (s : State) : Host.Outcome State Fault Refusal :=
  let f := (s.tile n).force
  if s.nTiles ≤ n then .fault (.absentUnit "tile" n)
  else if !(f.ramp && f.pos = 0 && f.v = 0) then .next s
  else .next ((s.enterMode n f.rampTo (s.edge + 1)).endOp 0x0207 n .ok 0)

/-! ### Safe actions and fences (R143, R144) -/

/-- A ramp-down whose switches something else has opened ends there (R123, log 67). -/
def State.rampCut (s : State) (n : Nat) : State :=
  let f := (s.tile n).force
  if f.ramp then (s.enterMode n f.rampTo (s.edge + 1)).endOp 0x0207 n .ok 0 else s

/-- The force output goes to Hi-Z for a fence, FATAL or loss of supply; a ramp-down and an entry that still measures end there, and a
loopback of the tile aborts (R116, R144, R146, log 79). -/
def State.forceLost (s : State) (n : Nat) : State :=
  let s := s.loopbackAbort n
  let f := (s.tile n).force
  if !f.mode.forcing then s
  else if f.ramp then s.rampCut n
  else
    let s := s.modForce n (fun f => { f with
      phase := if f.phase = .latched then .latched else .fenceLost, v := 0, closedAt := none })
    if f.phase = .measuring then s.endOp 0x0207 n .ok 0 else s

/-- SAFE_ACTION: HIZ opens the switches, HOLD brings the generator to rest, SAFE_TARGET goes to the word (R143). A latch, a
short sequence or a fence that holds Hi-Z stays (R606). A ramp-down goes on under HOLD and SAFE_TARGET (log 79); the switches opened by
HIZ end it, and an entry that still measures (R122, R123). A loopback of the tile aborts (log 79). -/
def State.safeAction (s : State) (n : Nat) : State :=
  let s := s.loopbackAbort n
  let f := (s.tile n).force
  if !f.mode.forcing then s
  else
    let hiz := f.safeAction = 0 && (f.phase = .normal || f.phase = .limit || f.phase = .foldback || f.phase = .measuring)
    let s := s.modForce n (fun f => { f with
      hold := true, held := f.safeAction, phase := if hiz then .safe else f.phase, v := if hiz then 0 else f.v, inbox := [],
      target := if f.safeAction = 2 then f.safeTarget else f.target })
    if !hiz then s else if f.phase = .measuring then s.endOp 0x0207 n .ok 0 else s.rampCut n

/-- The force tiles that name a stove as their writer (R144). -/
def State.writerTiles (s : State) (sv : Nat) : List Nat :=
  (s.tiles.filter (fun e => e.2.force.mode.forcing && e.2.force.writerStove && e.2.force.stove = sv)).map (fun e => e.1)
/-- The writer stove stopped or fenced, or a hearth fenced or reset (R144). -/
def State.safeActions (s : State) (l : List Nat) : State := l.foldl (fun s n => s.safeAction n) s
def State.forceTilesOf (s : State) (h : Nat) : List Nat :=
  (s.tiles.filter (fun e => e.2.force.mode.forcing && s.tileOwner e.1 = h)).map (fun e => e.1)

/-- The generator is at rest: at its goal with rate zero, or frozen where it stands (R131, R134, R135, R137, R149). -/
def Force.atRest (f : Force) : Bool := f.v = 0 && (f.phase ≠ .normal || f.closedAt.isSome || f.pos = f.goal)

/-! ### Limits, shorts and contention (R133 to R140) -/

/-- A force event of a tile to its owner, when enabled. -/
def State.forceEvent (s : State) (n code detail : Nat) (on : Bool) : State :=
  if on then s.raise code (s.tileOwner n) n detail else s

/-- An event of the force path on tile n that its guard allows. -/
def forceRow (n : Nat) (s : State) (ok : Force → Bool) (f : State → State) : Host.Outcome State Fault Refusal :=
  if s.nTiles ≤ n then .fault (.absentUnit "tile" n)
  else if !ok (s.tile n).force then .next s else .next (f s)

/-- LIMIT_EPISODE_START (R133). -/
def execLimitEpisodeStart (n : Nat) (s : State) : Host.Outcome State Fault Refusal :=
  forceRow n s (fun f => f.mode.forcing && f.phase = .normal) (fun s =>
    let s := s.modForce n (fun f => { f with
      phase := .limit, limitStart := s.now, v := 0, limitCnt := f.limitCnt.bump 16, lastLimit := s.stamp })
    let f := (s.tile n).force
    if f.limitEv then s.raiseLim n 0x0601 (s.tileOwner n) n f.limitCnt.n else s)

/-- LIMIT_EPISODE_END: the current has stayed below the limit for 2 us (R133). -/
def execLimitEpisodeEnd (n : Nat) (s : State) : Host.Outcome State Fault Refusal :=
  forceRow n s (fun f => f.phase = .limit) (fun s => s.modForce n (fun f => { f with phase := .normal, v := 0 }))

/-- The fold-back step: the limit drops to 5 mA (R134, event 2). -/
def State.foldBack (s : State) (n : Nat) (contention : Bool) : State :=
  let s := s.modForce n (fun f => { f with
    phase := .foldback, v := 0, foldAt := s.now, foldCnt := f.foldCnt.bump 16, closedAt := none, cleanSince := none,
    contention := if contention then true else if f.retry = 0 then false else f.contention })
  let f := (s.tile n).force
  s.forceEvent n 0x0602 f.retry f.foldEv

/-- FOLD_BACK: a limit episode has lasted 20 us (R134). -/
def execFoldBack (n : Nat) (s : State) : Host.Outcome State Fault Refusal :=
  forceRow n s (fun f => f.phase = .limit && f.limitStart + 20000 ≤ s.now) (fun s => (s.foldBack n false).loopbackAbort n)

/-- CONTENTION: the condition of R137 has held for 2 us at rest; the sequence starts at fold-back. iOut is the current in uA. -/
def execContention (n : Nat) (iOut : Int) (s : State) : Host.Outcome State Fault Refusal :=
  forceRow n s (fun f => f.mode.forcing && f.phase = .normal && f.atRest) (fun s =>
    let s := s.forceEvent n 0x0606 (toU 32 iOut) (s.tile n).force.contEv
    (s.foldBack n true).loopbackAbort n)

/-- HIZ_STEP: 200 us after fold-back the switches open; after retry 8 the latch sets (R134, R136, R140). -/
def execHizStep (n : Nat) (s : State) : Host.Outcome State Fault Refusal :=
  forceRow n s (fun f => f.phase = .foldback && f.foldAt + 200000 ≤ s.now) (fun s =>
    let s := s.modForce n (fun f => { f with phase := .hiz, hizAt := s.now, lastHiz := s.stamp })
    let f := (s.tile n).force
    let s := s.forceEvent n 0x0603 f.retry f.foldEv
    if f.retry < 8 then s.rampCut n
    else
      let s := s.modForce n (fun f => { f with phase := .latched, latchCnt := f.latchCnt.bump 16 })
      let k := (s.tile n).force.latchCnt.n
      let s := s.forceEvent n 0x0605 k f.foldEv
      ((s.logEv 0x0605 (s.tileOwner n) n k).report 0x07 n 0).rampCut n)

/-- The phase in which the switches would close again: a safe action that names Hi-Z keeps them open (R116, R606). -/
def Force.reclose (f : Force) : ForcePhase := if f.hold && f.held = 0 then .safe else .normal

/-- FORCE_RETRY: 10 ms after Hi-Z the switches close at the frozen position (R134). -/
def execForceRetry (n : Nat) (s : State) : Host.Outcome State Fault Refusal :=
  forceRow n s (fun f => f.phase = .hiz && f.hizAt + 10000000 ≤ s.now) (fun s =>
    s.modForce n (fun f => { f with phase := f.reclose, v := 0, retry := f.retry + 1, closedAt := some s.now }))

/-- RETRY_OK: 20 us after the switches closed without fold-back (R135). -/
def execRetryOk (n : Nat) (s : State) : Host.Outcome State Fault Refusal :=
  forceRow n s (fun f => match f.closedAt with
      | some t => t + 20000 ≤ s.now && f.driving
      | none => false) (fun s =>
    let s := s.modForce n (fun f => { f with cleanSince := f.closedAt, closedAt := none })
    let f := (s.tile n).force
    s.forceEvent n 0x0604 f.retry f.foldEv)

/-- RETRY_COUNT_RESET: the output has run 100 ms without fold-back (R135). -/
def execRetryCountReset (n : Nat) (s : State) : Host.Outcome State Fault Refusal :=
  forceRow n s (fun f => match f.cleanSince with
      | some t => t + 100000000 ≤ s.now && f.driving
      | none => false) (fun s => s.modForce n (fun f => { f with retry := 0, cleanSince := none }))

/-! ### The kindling queue of a die (R562) -/

def State.modKindle (s : State) (d : Nat) (f : KindleDie → KindleDie) : State :=
  { s with node := { s.node with kindle := tmod {} s.node.kindle d f } }
/-- Enters a tile in the queue of its die, in ascending order. -/
def insertSorted (x : Nat) : List Nat → List Nat
  | [] => [x]
  | y :: t => if x < y then x :: y :: t else if x = y then y :: t else y :: insertSorted x t
def State.kindleTile (s : State) (n : Nat) : State :=
  s.modKindle (dieOfTile n) (fun k => { k with queue := insertSorted n k.queue })
/-- A tile that waits to be powered. -/
def State.kindleWaits (s : State) (n : Nat) : Bool := (tget {} s.node.kindle (dieOfTile n)).queue.contains n

/-- The force output of a tile cannot drive: the tile or its core fenced, its power off or its kindling still due (R116, R144, R562). -/
def State.forceOff (s : State) (n : Nat) : Bool :=
  s.tileFenced n || s.coreFenced n || s.node.va5Off || s.kindleWaits n || !s.unitUp (dieOfTile n) (2 + 9 * (groupOfTile n % 4) + n % 8)

/-- The force output of a tile after a fence or a power-fail, once nothing else holds it off: at its INIT value as on entry (R535, R562,
log 35); a force latch and a safe action stay (R136, R143). -/
def State.resumeForce (s : State) (n : Nat) : State :=
  let old := (s.tile n).force
  if !old.mode.forcing || old.phase = .latched || s.forceOff n then s
  else
    let s := s.enterForce n
    if old.hold then s.modForce n (fun f => { f with
      hold := true, held := old.held, target := old.target, phase := if old.held = 0 then .safe else f.phase })
    else s

/-- A tile that no fence holds any more returns to its committed mode after a fence or a power-fail: conversions with recovery, chains
afresh (R535, R562). -/
def State.resumeTile (s : State) (n : Nat) : State :=
  let m := (s.tile n).force.mode
  let s := s.resumeForce n
  if s.tileFenced n then s
  else if m = .acq || m = .forceSense then s.beginConverting n (s.edge + 1) else s

/-! ### What the next draught edge brings into effect (R86, R121) -/

/-- A TILE_MODE at its effective edge: a ramp-down begins, and holds nothing that another TILE_MODE would wait for (R123, log 68), or the
mode is entered (R121). Where the force output cannot drive it is lost at once (R116, R144). -/
def State.modeEdge (s : State) (n : Nat) (m : TileMode) (ramp : Bool) : State :=
  let f := (s.tile n).force
  if (s.findOp 0x0207 n).isNone then s
  else if f.mode.forcing && !m.forcing && ramp && f.driving then
    let s := s.modForce n (fun f => { f with ramp := true, rampTo := m })
    { s with host := { s.host with ops := s.host.ops.map (fun o => if o.opcode = 0x0207 && o.key = n then { o with names := [] } else o) } }
  else
    let s := s.enterMode n m s.edge
    (if s.forceOff n then s.forceLost n else s).modeDone n

def State.edgeAct (s : State) : EdgeAct → State
  | .fe n chop refsel cmxEv ovpEv => s.modTile n (fun t =>
      { t with fe := { t.fe with chop := chop, refsel := refsel, cmxEv := cmxEv, ovpEv := ovpEv } })
  | .feGroup g auxPair aux => s.modGroup g (fun x => { x with fe := { x.fe with auxPair := auxPair, aux := aux } })
  | .mode n m ramp => s.modeEdge n m ramp

/-- A draught edge: what was accepted since the last one takes effect. -/
def State.edgeActs (s : State) : State := s.due.foldl (fun s a => s.edgeAct a) { s with due := [] }

/-- KINDLE_QUEUE_SLOT: at most every 25 us the queue of a die serves its lowest tile: a TILE_MODE from OFF is accepted there, and
other tiles resume (R562). -/
def execKindleQueueSlot (die : Nat) (s : State) : Host.Outcome State Fault Refusal :=
  if s.node.dies ≤ die then .fault (.absentUnit "die" die)
  else
    let k := tget {} s.node.kindle die
    let early := match k.lastSlot with
      | some t => s.now < t + 25000
      | none => false
    match k.queue with
    | [] => .next s
    | n :: rest =>
      if early || s.node.va5Off then .next s
      else
        let s := s.modKindle die (fun k => { k with queue := rest, lastSlot := some s.now })
        match s.findOp 0x0207 n with
        | some o => .next (s.atNextEdge (.mode n (modeOf (o.req.u 18 0 2)) false))
        | none => .next (s.resumeTile n)

/-! ### Commands (R147 to R153) -/

/-- TILE_MODE: accepted; in effect at the next draught edge (R121), out of OFF when the queue of the die serves the tile (R562). BUSY out of
OFF on a die that is not KINDLED: DESIGN CHOICE (log 79). -/
def tileModeSpec : CmdSpec :=
  { opcode := 0x0207
    names := tileNames
    opLogged := fun r s => (modeOf (r.u 18 0 2)).forcing ≠ (s.tile (r.u 16 0 16)).force.mode.forcing
    refuse := fun r _ s =>
      let n := r.u 16 0 16
      let m := modeOf (r.u 18 0 2)
      let t := s.tile n
      let slots := t.seq.active ++ (match t.seq.commit with
        | some c => c.list
        | none => [])
      [beyondTile s n, notOwner s r n, (m.forcing && !s.isForcePort n, .rights), tileIsFenced s n,
       (m.forcing && (s.seal (s.tileOwner n) ≠ .never || s.granted n), .combination),
       (m ≠ .forceSense && slots.any (fun d => dSrc d = 5), .combination),
       (m = .forceSense && s.node.derated.contains (dieOfTile n), .combination),
       (t.force.ramp, .busy), (m ≠ .off && s.noStreams, .busy), (m ≠ .off && !s.awake (s.tileOwner n), .busy),
       (m ≠ .off && !(tget {} s.node.kindle (dieOfTile n)).kindled, .busy), (m.forcing && !s.calUp n, .busy)]
    act := fun r s =>
      let n := r.u 16 0 16
      let m := modeOf (r.u 18 0 2)
      let f := (s.tile n).force
      let s := if f.mode = .off && m ≠ .off then s.kindleTile n else s.atNextEdge (.mode n m (r.b 18 2))
      { st := s.startOp { opMark 0x0207 with names := tileNames } n r 0 0, late := true } }

/-- TILE_MODE (R121, R148). -/
def execTileMode (r : Req) (s : State) : Host.Outcome State Fault Refusal := .next (tileModeSpec.run r s)

def forceConfigSpec : CmdSpec :=
  { opcode := 0x0601
    names := fun r => tileNames r ++ (if r.b 19 7 then [nStove (r.u 19 0 5)] else [])
    refuse := fun r w s =>
      let n := r.u 16 0 16
      let f := (s.tile n).force
      let same := f.range = r.u 18 0 2 && f.init = r.u 18 3 2 && f.slew = r.b 18 2 && f.writerStove = r.b 19 7 && (!r.b 19 7 || f.stove = r.u 19 0 5)
      [beyondTile s n, (r.u 18 0 2 = 3 || r.u 18 3 2 = 3 || r.u 18 5 2 = 3, .badParam),
       (r.b 18 2 && (r.u 20 0 16 = 0 || 20000 < r.u 20 0 16 || r.u 22 0 16 = 0 || 10000 < r.u 22 0 16), .badParam),
       (r.b 19 7 && s.nStoves ≤ r.u 19 0 5, .badParam), needs w 1, notOwner s r n,
       (r.b 19 7 && s.stoveOwner (r.u 19 0 5) ≠ s.tileOwner n, .rights), tileIsFenced s n, tileSealed s n,
       (f.mode.forcing && !(f.atRest && same), .busy)]
    act := fun r s =>
      { st := s.modForce (r.u 16 0 16) (fun f => { f with
          range := r.u 18 0 2, slew := r.b 18 2, init := r.u 18 3 2, safeAction := r.u 18 5 2, stove := r.u 19 0 5,
          writerStove := r.b 19 7, vmax := r.u 20 0 16, acc := r.u 22 0 16, initTarget := BitVec.ofNat 32 (r.u 24 0 32),
          safeTarget := BitVec.ofNat 32 (r.u 28 0 32), limitEv := r.b 32 0, foldEv := r.b 32 1, contEv := r.b 32 2 }) } }

/-- FORCE_CONFIG (R149). -/
def execForceConfig (r : Req) (s : State) : Host.Outcome State Fault Refusal := .next (forceConfigSpec.run r s)

def forceTargetSpec : CmdSpec :=
  { opcode := 0x0602
    names := tileNames
    refuse := fun r _ s =>
      let n := r.u 16 0 16
      let f := (s.tile n).force
      [beyondTile s n, notOwner s r n, tileIsFenced s n, (!f.mode.forcing, .combination), (f.writerStove, .busy)]
    act := fun r s => { st := s.takeTarget (r.u 16 0 16) (BitVec.ofNat 32 (r.u 20 0 32)) } }

/-- FORCE_TARGET (R150). -/
def execForceTarget (r : Req) (s : State) : Host.Outcome State Fault Refusal := .next (forceTargetSpec.run r s)

def forceRestartSpec : CmdSpec :=
  { opcode := 0x0603
    names := tileNames
    opLogged := fun _ _ => true
    refuse := fun r _ s =>
      let n := r.u 16 0 16
      [beyondTile s n, ((s.tile n).force.phase ≠ .latched, .badParam), notOwner s r n, tileIsFenced s n]
    act := fun r s =>
      let n := r.u 16 0 16
      if s.forceOff n then { st := s.modForce n (fun f => { f with phase := .fenceLost, v := 0, retry := 0, closedAt := none }) }
      else { st := s.modForce n (fun f => { f with phase := f.reclose, v := 0, retry := 0, closedAt := some s.now }) } }

/-- FORCE_RESTART: releases the latch, closes at the frozen position as a retry does (R151), unless the output cannot drive (R116). -/
def execForceRestart (r : Req) (s : State) : Host.Outcome State Fault Refusal := .next (forceRestartSpec.run r s)

/-- STATE of R152. DESIGN CHOICE (log 79): where several hold, a fence shows before a latch and the short sequence, these before a safe
action, and an entry that still measures shows as normal. -/
def Force.stateCode (f : Force) (fenced : Bool) : Nat :=
  if !f.mode.forcing then 0
  else if fenced then 7
  else match f.phase with
    | .limit => 2 | .foldback => 3 | .hiz => 4 | .latched => 5 | .safe => 6 | .fenceLost => 7
    | _ => if f.hold then 6 else 1

/-- The record of FORCE_STATUS (R152); RATE is rounded half up to whole uV/us (DESIGN CHOICE, log 79); I_OUT is a measured current: a free value of 16 bits (log 16). -/
def State.forceRecord (s : State) (n iOut : Nat) : Nat :=
  let f := (s.tile n).force
  let cfg := f.range + 4 * b2n f.slew + 8 * f.init + 32 * f.safeAction
  mkRec [⟨0, 0, 16, n⟩, ⟨2, 0, 3, f.stateCode (s.tileFenced n || s.coreFenced n)⟩, ⟨2, 3, 1, b2n f.contention⟩, ⟨2, 4, 4, f.retry⟩, ⟨3, 0, 1, b2n f.limitCnt.sat⟩,
    ⟨3, 1, 1, b2n f.foldCnt.sat⟩, ⟨3, 2, 1, b2n f.rejCnt.sat⟩, ⟨4, 0, 16, f.limitCnt.n⟩, ⟨6, 0, 16, f.foldCnt.n⟩,
    ⟨8, 0, 32, f.target.toNat⟩, ⟨12, 0, 32, (forceWord f.range f.pos).toNat⟩, ⟨16, 0, 16, iOut⟩, ⟨18, 0, 16, f.rejCnt.n⟩,
    ⟨20, 0, 32, toU 32 (divHalfUp (f.v * 10) 64)⟩, ⟨24, 0, 64, f.lastLimit⟩, ⟨32, 0, 64, f.lastHiz⟩, ⟨40, 0, 16, f.latchCnt.n⟩,
    ⟨42, 0, 8, cfg⟩]

def forceStatusSpec : CmdSpec :=
  { opcode := 0x0604
    names := tileNames
    read := true
    data := fun r _ => resultAt r 24 64
    refuse := fun r _ s => [beyondTile s (r.u 16 0 16), notOwner s r (r.u 16 0 16)]
    act := fun r s => reply s.free.2 r 24 64 (s.forceRecord (r.u 16 0 16) s.free.1) }

/-- FORCE_STATUS (R152). -/
def execForceStatus (r : Req) (s : State) : Host.Outcome State Fault Refusal := .next (forceStatusSpec.run r s)

/-- The code of level i of R146. -/
def loopbackLevel (i levels : Nat) : Int := -117964 + ((i * 235928 / (levels - 1) : Nat) : Int)

/-- The forcing tile of a loopback steps to level i (R146). -/
def State.loopbackStep (s : State) (n i levels : Nat) : State :=
  let w : Word := BitVec.ofNat 32 (toU 18 (loopbackLevel i levels) * 16384)
  s.modForce n (fun f => { f with target := w, pos := forcePos f.range w, v := 0 })

def forceLoopbackSpec : CmdSpec :=
  { opcode := 0x0605
    names := fun r => [nTile (r.u 16 0 16), nTile (r.u 16 0 16 ^^^ 1)]
    data := fun r _ => resultAt r 24 64
    refuse := fun r w s =>
      let n := r.u 16 0 16
      let m := n ^^^ 1
      [beyondTile s n, (r.u 18 0 8 < 2 || 24 < r.u 18 0 8 || r.u 19 0 2 = 3 || r.u 20 0 16 = 0 || 1000 < r.u 20 0 16
        || r.u 22 0 16 = 0 || 1000 < r.u 22 0 16, .badParam), needs w 1, notOwner s r n,
       (s.tileOwner n ≠ s.tileOwner m || !s.isForcePort n, .rights), tileIsFenced s n, tileIsFenced s m,
       (s.seal (s.tileOwner n) ≠ .never, .combination),
       ((s.tile n).force.mode ≠ .off || (s.tile m).force.mode ≠ .off, .busy)]
    act := fun r s =>
      let n := r.u 16 0 16
      let f := (s.tile n).force
      let b : Loopback := { range := f.range, slew := f.slew, start := s.now, levelAt := s.now, errs := [] }
      let s := { s with loopbacks := tset s.loopbacks n b }
      let s := s.modForce n (fun f => { f with
        mode := .force, phase := .normal, range := r.u 19 0 2, slew := false, inbox := [], hold := false, ramp := false, retry := 0,
        closedAt := none, cleanSince := none })
      let s := (s.loopbackStep n 0 (r.u 18 0 8)).startOp
          { opMark 0x0605 with names := fun r => [nTile (r.u 16 0 16), nTile (r.u 16 0 16 ^^^ 1)] } n r 0 0
      { st := if s.forceOff n then s.loopbackAbort n else s, late := true } }

/-- FORCE_LOOPBACK (R146, R153). -/
def execForceLoopback (r : Req) (s : State) : Host.Outcome State Fault Refusal := .next (forceLoopbackSpec.run r s)

/-- LOOPBACK_LEVEL_DONE: a level of the loopback of forcing tile n has dwelt, and the sensing tile's 256 conversions are averaged
(R146). The mean less c_i rounds half up: DESIGN CHOICE (log 79). -/
def execLoopbackLevelDone (n : Nat) (l : LevelSum) (s : State) : Host.Outcome State Fault Refusal :=
  match s.loopbacks.find? (fun e => e.1 = n), s.findOp 0x0605 n with
  | some (_, b), some o =>
    let r := o.req
    if s.now < b.levelAt + r.u 20 0 16 * 1000 + 12500 then .next s
    else
      let s := s.converted (n ^^^ 1) 256 l.forced
      let e := clampI (-32767) 32767 (divHalfUp (l.sum - 256 * loopbackLevel b.errs.length (r.u 18 0 8)) 256)
      let errs := b.errs ++ [e]
      if errs.length = r.u 18 0 8 then .next (s.loopbackEnd n errs false)
      else
        let s := s.loopbackStep n errs.length (r.u 18 0 8)
        .next { s with loopbacks := tset s.loopbacks n { b with errs := errs, levelAt := s.now } }
  | _, _ => .next s

end Sys2Proof.Machine
end

