-- ==== Sys2Proof/Machine/Chains.lean ====
section
/-! DEFINITION. The filter chains: stage A, stage B and the engine's jobs, DC blocking, bank swaps, and their commands
(R184 to R230, R235 to R238). -/

set_option Elab.async false

namespace Sys2Proof.Machine

def State.modChain (s : State) (n c : Nat) (f : Chain → Chain) : State := s.modTile n (fun t => t.modChain c f)

/-- The key of a chain's operations. -/
def chainKey (n c : Nat) : Nat := 2 * n + c

/-- Rounded up to a natural number. -/
def ratCeil (q : Rat) : Nat := q.ceil.toNat

/-! ### Stage A (R187 to R189) -/

/-- Four integrators in 54-bit wrap-around arithmetic. -/
def Ctx.integrate (x : Ctx) (v : Int) : Ctx :=
  let w := fun (i : Int) => i % (2 ^ 54 : Nat)
  let a := w (x.i1 + v)
  let b := w (x.i2 + a)
  let c := w (x.i3 + b)
  { x with i1 := a, i2 := b, i3 := c, i4 := w (x.i4 + c) }

/-- Four combs over the last integrator: the new registers, and S as a 54-bit two's complement value. -/
def Ctx.comb (x : Ctx) : Ctx × Int :=
  let w := fun (i : Int) => i % (2 ^ 54 : Nat)
  let a := w (x.i4 - x.z1)
  let b := w (a - x.z2)
  let c := w (b - x.z3)
  let d := w (c - x.z4)
  ({ x with z1 := x.i4, z2 := a, z3 := b, z4 := c }, toI 54 d.toNat)

/-- x_A of S (R188): exact for D_A = 1, 2, 4, a rounding shift for the other native ratios, and for every other ratio the
quotient to within one unit, its last unit left open (log 10). -/
def scaleA (da : Nat) (S : Int) : Int :=
  if 2 ^ da.log2 = da then
    if da ≤ 4 then S * (1024 / da ^ 4 : Nat) else divHalfUp S (da ^ 4 / 1024)
  else
    let q := S * 1024 / (da ^ 4 : Nat)
    if S * 1024 % (da ^ 4 : Nat) = 0 then q else q + Config.stageALast da S % 2

/-! ### Stage B (R190 to R196) -/

/-- The sum of R190 in order: the accumulator, or the sign of the first partial sum outside 59 bits (R196). -/
def stageBSum : List Int → List Int → Int → Int × Int
  | c :: cs, x :: xs, acc =>
    let a := acc + c * x
    if a < -288230376151711744 then (a, -1) else if 288230376151711743 < a then (a, 1) else stageBSum cs xs a
  | _, _, acc => (acc, 0)

/-- The output of stage B before the clamp, or the sign of a guard-bit overflow (R192, R196). -/
def stageB (b : Bank) (n : Nat) (xs : List Int) : Int × Int :=
  let r := stageBSum (b.taps n) (xs ++ List.replicate (n - xs.length) 0) 0
  (divHalfUp r.1 67108864, r.2)

/-! ### The output of a chain (R192, R193, R197, R228 to R230) -/

def State.chainEvent (s : State) (n c code : Nat) (on : Bool) (cnt : Nat) : State :=
  if on then s.raiseLim (chainKey n c) code (s.chainHolder n c) n (c + 65536 * cnt) else s

/-- A guard-bit overflow: counted, raised and logged under one 10 ms limit each (R196). DESIGN CHOICE (log 79): LAST_GOVF is the time-stamp
of the output that overflows, at least 1, not the instant at which its job ends (R211). -/
def State.guardOverflow (s : State) (n c time : Nat) : State :=
  let s := s.modChain n c (fun x => { x with govf := x.govf.bump 16, lastGovf := max time 1 })
  let x := (s.tile n).chain c
  let s := s.chainEvent n c 0x0402 x.govfEv x.govf.n
  let k := 0x10402 * 2 ^ 40 + chainKey n c
  let due := match (tget {} s.host.limits k).last with
    | none => true
    | some t => decide (t + 10000000 ≤ s.now)
  if due then
    { s with host := { s.host with limits := tset s.host.limits k { last := some s.now } } }.logEv 0x0402
      (s.chainHolder n c) n (c + 65536 * x.govf.n)
  else s

/-- An entry into filter clamping (R193, R197). -/
def State.filterClamp (s : State) (n c : Nat) : State :=
  let s := s.modChain n c (fun x => { x with fclamp := x.fclamp.bump 16 })
  let x := (s.tile n).chain c
  s.chainEvent n c 0x0401 x.fclampEv x.fclamp.n

/-- An output stamped at a time is computed with the bank of a pending swap (R226). -/
def Chain.swapped (ch : Chain) (time : Nat) : Bool :=
  match ch.swap with
  | some t => decide (t ≤ time)
  | none => false

/-- One chain output: y before the clamp or the sign g of an overflow, the flags of its memory, its stamp, its number in the stream and
whether GAP is due on it. Rounded, clamped, DC-blocked and delivered to the holder's consumers; `bad`: its parity fails at the metering
pairs (R104, R192, R193, R204, R223, R224, R228 to R230, R332). -/
def State.chainOut (s : State) (n c slot : Nat) (y g : Int) (flags edge time seq : Nat) (gap bad : Bool) : State :=
  let ch := (s.tile n).chain c
  let x := tget {} ch.ctx slot
  let key := streamKey s.ring.nodeNo n slot c 0
  let new := ch.swapped time
  let swapU := decide (0 < if new then x.swapNext else x.swapUns)
  let uns := bitAt flags 2 || swapU || (ch.dcbEnable && ch.dcbUns && decide (0 < x.settle))
  let ovr := bitAt flags 0
  let y1 := if g ≠ 0 then (if 0 < g then 8388607 else -8388608) else clampI (-8388608) 8388607 y
  let clamped := g = 0 && y1 ≠ y && !ovr
  let d := y1 * 16777216 - x.est
  let o := divHalfUp d 16777216
  let out := if ch.dcbEnable then clampI (-8388608) 8388607 o else y1
  let dcClamp := ch.dcbEnable && out ≠ o && !ovr
  let fovf := g ≠ 0 || clamped || dcClamp
  let entry := (clamped || dcClamp) && !x.clamped
  let f := flags % 4 / 1 % 2 + 2 * b2n fovf + 4 * b2n uns + flags / 8 % 8 * 8
  let skip := ovr || uns || bitAt flags 4 || bitAt flags 3 || gap || fovf || ch.dcbFreeze
  let est := if ch.dcbEnable && !skip then x.est + d / (2 ^ ch.dcbK : Nat) else x.est
  let s := s.modChain n c (fun z => z.modCtx slot (fun x => { x with
    clamped := clamped || dcClamp, est := est, lastCode := out, swapUns := if new then x.swapUns else x.swapUns - 1, swapNext := if new then x.swapNext - 1 else x.swapNext,
    settle := if ch.dcbEnable then x.settle - 1 else x.settle }))
  let s := if g ≠ 0 then s.guardOverflow n c time else s
  let s := if entry then s.filterClamp n c else s
  let w := filteredWord out f
  let s := s.bring key w seq time gap
  if c = 1 then s.toPairs n slot edge (if gap then setFlag w fGAP else w) time bad else s

/-! ### A raw word into a chain (R105, R214, R222 to R224) -/

/-- The grid index of a conversion: within a run its count, else floor ((E - E_ref) / p) (R214). -/
def State.gridIndex (s : State) (n e : Nat) : Int :=
  let q := (s.tile n).seq
  match q.mode with
  | .burst | .triggered => (q.rep : Int)
  | _ => ((e : Int) - (s.sync.eRef : Int)) / (s.spacing n : Nat)

/-- Inserts a job in the order of release: ties by tile, chain, slot (R199). -/
def insertJob (j : Job) : List Job → List Job
  | [] => [j]
  | x :: t =>
    let k := fun (z : Job) => (chainKey z.tile z.chain) * 32 + z.slot
    if x.edge = j.edge && k j < k x then j :: x :: t else x :: insertJob j t

/-- A flag was carried within the memory. -/
def within (last : Option Nat) (n mem : Nat) : Bool :=
  match last with
  | some l => decide (n - l < mem)
  | none => false

/-- A lost raw input: the context starts afresh at the next delivered conversion, a stamp edge that passes is a lost sample, and the first
output formed afterwards carries GAP (R224). -/
def State.chainMiss (s : State) (n c slot e time : Nat) : State :=
  let ch := (s.tile n).chain c
  let key := streamKey s.ring.nodeNo n slot c 0
  let s := s.modChain n c (fun z => z.modCtx slot (fun x => { x with gapOut := true }))
  if (s.gridIndex n e + 1) % (ch.ratio : Int) = 0 then s.loseSample key time else s.modStream key (fun z => { z with gapDue := true })

/-- A raw word of a slot enters a chain at draught edge e. An output takes its number in the stream, and GAP where it is due, when it is
formed: stage B bypassed at once, else as its job is released (R109, R199, R224). -/
def State.chainFeed (s : State) (n c slot : Nat) (w : Word) (e time : Nat) (bad : Bool) : State :=
  let key := streamKey s.ring.nodeNo n slot c 0
  let ch := (s.tile n).chain c
  let q := (s.tile n).seq
  let x := tget {} ch.ctx slot
  let again := x.gapOut || ((q.mode = .burst || q.mode = .triggered) && q.rep = 0)
  let x := if again then x.fresh false else x
  let i := s.gridIndex n e
  let k := x.n + 1
  let mark := fun (f : Nat) (o : Option Nat) => if hasFlag w f then some k else o
  let x := { x.integrate (code18 w) with
    n := k, started := true, lastOvr := mark fOVR x.lastOvr, lastUns := mark fUNS x.lastUns, lastStl := mark fSTL x.lastStl,
    lastDis := mark fDIS x.lastDis, lastSpr := mark fSPR x.lastSpr }
  let nt := if ch.bypassB then 1 else ch.ntaps
  let x := if (i + 1) % (ch.da : Int) = 0 then
      let r := x.comb
      { r.1 with delay := (scaleA ch.da r.2 :: r.1.delay).take nt }
    else x
  let s := s.modChain n c (fun z => { z with ctx := tset z.ctx slot x })
  if (i + 1) % (ch.ratio : Int) ≠ 0 then s
  else
    let m := ch.mem
    let flags := b2n (within x.lastOvr k m) + 4 * b2n (within x.lastUns k m || decide (k < m)) + 8 * b2n (within x.lastStl k m)
      + 16 * b2n (within x.lastDis k m) + 32 * b2n (within x.lastSpr k m)
    let t := s.takeSample key time
    if ch.bypassB then t.2.chainOut n c slot ((x.delay.headD 0 + 8) / 16) 0 flags e time t.1.1 t.1.2 bad
    else { t.2 with jobs := insertJob { tile := n, chain := c, slot := slot, edge := e, time := time, n := k, xs := x.delay, flags := flags,
                                        seq := t.1.1, gap := t.1.2 } t.2.jobs }

/-- The jobs that the 16 lanes of a die have taken or take next: the earliest released (R199). -/
def State.laneJobs (s : State) (d : Nat) : List Job := (s.jobs.filter (fun j => dieOfTile j.tile = d)).take 16

/-- The jobs that p picks are lost with their outputs: the blocks close, and the next output carries GAP (R109, R224, R523). -/
def State.dropJobs (s : State) (p : Job → Bool) : State :=
  (s.jobs.filter p).foldl (fun (s : State) j =>
    let k := streamKey s.ring.nodeNo j.tile j.slot j.chain 0
    (s.closeBlocks k).modStream k (fun x => { x with gapDue := true })) { s with jobs := s.jobs.filter (fun j => !p j) }

/-- ENGINE_JOB: a lane job of a die completes, in whatever order the lanes finish, the jobs of one stream in their own; an output stamped at
or after a pending t_s takes the new bank; the last job of a visit or a grid closes the block (R110, R199, R226). -/
def execEngineJob (e : LaneEnd) (s : State) : Host.Outcome State Fault Refusal :=
  if s.node.dies ≤ e.die then .fault (.absentUnit "die" e.die)
  else match (s.laneJobs e.die)[e.lane]? with
    | none => .next s
    | some j =>
      let key := streamKey s.ring.nodeNo j.tile j.slot j.chain 0
      if s.jobs.find? (s.jobOf key) ≠ some j then .next s
      else if s.dieFenced e.die || s.node.inReset then .next (s.dropJobs (fun x => x = j))
      else
        let s := { s with jobs := s.jobs.erase j }
        let ch := (s.tile j.tile).chain j.chain
        let r := stageB (if ch.swapped j.time then ch.shadow else ch.active) ch.ntaps j.xs
        let s := s.chainOut j.tile j.chain j.slot r.1 r.2 j.flags j.edge j.time j.seq j.gap e.bad
        .next (if j.ends then (s.postBlock key false).postBlock key true else s)

/-! ### Bank swap (R226, R227) -/

/-- A change to the context of every slot. -/
def Chain.allCtx (c : Chain) (f : Ctx → Ctx) : Chain := (List.range 32).foldl (fun (c : Chain) i => c.modCtx i f) c

/-- A swap is set for t_s: in every slot the first outputs of the new bank will carry UNS (R223, R226). -/
def Chain.startSwap (c : Chain) (t : Nat) : Chain :=
  { c.allCtx (fun x => { x with swapNext := (c.taps + 2 ^ c.rbLog2 - 1) / 2 ^ c.rbLog2 }) with swap := some t, swapGo := false }

def filtSwapSpec : CmdSpec :=
  { opcode := 0x0405
    names := chainNames
    endLogged := true
    refuse := fun r w s =>
      let n := r.u 16 0 16
      let c := r.u 18 0 1
      let ch := (s.tile n).chain c
      [beyondTile s n, (!ch.shadowAdmitted || ch.bypassB, .badParam), (s.now + 10000000000 < r.u 24 0 64, .badParam), needs w 1,
       (!r.for (s.chainHolder n c), .rights), tileIsFenced s n, (s.intact (s.chainHolder n c), .sealed), (ch.swap.isSome, .busy)]
    act := fun r s =>
      let n := r.u 16 0 16
      let c := r.u 18 0 1
      let s1 := s.modChain n c (fun x => x.startSwap (max (r.u 24 0 64) s.now))
      { st := s1.startOp (opMark 0x0405) (chainKey n c) r 0 (s.whoNote r), late := true } }

/-- FILT_SWAP (R226, R236). -/
def execFiltSwap (r : Req) (s : State) : Host.Outcome State Fault Refusal := .next (filtSwapSpec.run r s)

/-- SWAP_INSTANT: device time reaches t_s (R226). -/
def execSwapInstant (n c : Nat) (s : State) : Host.Outcome State Fault Refusal :=
  let ch := (s.tile n).chain c
  if s.nTiles ≤ n then .fault (.absentUnit "tile" n)
  else match ch.swap with
    | some t =>
      if t ≤ s.now && !ch.swapGo then .next (s.modChain n c (fun x => { x with swapGo := true })) else .next s
    | none => .next s

/-- The banks exchanged, the counts of R223 with them. -/
def Chain.endSwap (c : Chain) : Chain :=
  { c with
    swap := none, swapGo := false, active := c.shadow, shadow := c.active
    ctx := c.ctx.map (fun e => (e.1, { e.2 with swapUns := e.2.swapNext, swapNext := 0 })) }

/-- SWAP_COMPLETE: every job stamped before t_s has finished; the banks are exchanged (R226). -/
def execSwapComplete (n c : Nat) (s : State) : Host.Outcome State Fault Refusal :=
  let ch := (s.tile n).chain c
  if s.nTiles ≤ n then .fault (.absentUnit "tile" n)
  else match ch.swap with
    | some t =>
      if ch.swapGo && !s.jobs.any (fun j => j.tile = n && j.chain = c && j.time < t) then
        let s := s.modChain n c (·.endSwap)
        .next (s.endOpLogged filtSwapSpec (chainKey n c) .ok 0)
      else .next s
    | none => .next s

/-! ### Commands (R206 to R212) -/

/-- Centred unity of n taps (R208). -/
def unityBank (n : Nat) : Bank :=
  let h := (n + 1) / 2
  { coefs := List.replicate (h - 1) 0 ++ [if n % 2 = 1 then 4194304 else 2097152] }

/-- The bytes of a bank's stored half (R210). -/
def Bank.bytes (b : Bank) (n : Nat) : List Byte :=
  (List.range ((n + 1) / 2)).flatMap (fun i => leBytes (toU 24 (b.coefs.getD i 0)) 3)
def Bank.crc (b : Bank) (n : Nat) : Nat := crc32c (b.bytes n)

/-- No output of a swapped bank is left to mark: the bank is replaced or bypassed (R223). -/
def Chain.forgetSwap (c : Chain) : Chain := { c with ctx := c.ctx.map (fun e => (e.1, { e.2 with swapUns := 0, swapNext := 0 })) }

/-- What FILT_CONFIG leaves in a chain (R207, R208): contexts start afresh when next fed. -/
def Chain.configure (c : Chain) (da rb : Nat) (bypass : Bool) (ntaps : Nat) : Chain :=
  let c1 := { c with da := da, rbLog2 := rb, bypassB := bypass, ctx := c.ctx.map (fun e => (e.1, e.2.fresh false)) }
  if bypass then c1.forgetSwap
  else if ntaps = c.ntaps then c1
  else { c1.forgetSwap with ntaps := ntaps, active := unityBank ntaps, shadow := unityBank ntaps, shadowAdmitted := true }

/-- The refusals of FILT_CONFIG and FILT_PRESET for a chain as configured by f (R201, R206, R208, R221). -/
def chainConfigRefusals (r : Req) (w : Nat) (s : State) (bad : Bool) (f : Chain → Chain) : List (Bool × Status) :=
  let n := r.u 16 0 16
  let c := r.u 18 0 1
  let t := s.tile n
  [beyondTile s n, (bad, .badParam), needs w 1, (!r.for (s.chainHolder n c), .rights), tileIsFenced s n,
   (s.intact (s.chainHolder n c), .sealed), (t.converting && !(t.seq.feeding c).isEmpty, .busy), ((t.chain c).swap.isSome, .busy),
   (s.budgetBad (s.modChain n c f) n, .budget)]

def filtConfigSpec : CmdSpec :=
  { opcode := 0x0401
    names := fun r => nNode 1 :: chainNames r
    budget := true
    refuse := fun r w s =>
      let da := r.u 20 0 10
      let rb := r.u 19 0 2
      let bad := da = 0 || 512 < da || 4096 < da * 2 ^ rb || (r.b 18 1 && rb ≠ 0)
        || (!r.b 18 1 && (r.u 22 0 9 = 0 || 384 < r.u 22 0 9))
      chainConfigRefusals r w s bad (fun x => x.configure da rb (r.b 18 1) (r.u 22 0 9))
    act := fun r s =>
      let s := s.modChain (r.u 16 0 16) (r.u 18 0 1) (fun x =>
        { x.configure (r.u 20 0 10) (r.u 19 0 2) (r.b 18 1) (r.u 22 0 9) with fclampEv := r.b 18 2, govfEv := r.b 18 3 })
      { st := s.takePending (dieOfTile (r.u 16 0 16)) } }

/-- FILT_CONFIG (R207, R208). -/
def execFiltConfig (r : Req) (s : State) : Host.Outcome State Fault Refusal := .next (filtConfigSpec.run r s)

/-- The presets of R219: D_A, RB_LOG2, N. -/
def presetOf (p : Nat) : Nat × Nat × Nat :=
  match p with
  | 1 => (8, 1, 48)
  | 2 => (32, 2, 96)
  | 3 => (128, 2, 128)
  | 4 => (256, 3, 192)
  | _ => (512, 3, 256)

/-- What R220 fixes of a stock bank: 24-bit coefficients that sum to 2^22 over all taps, normed. -/
def stockFits (l : List Int) : Bool :=
  l.all (fun c => decide (-8388608 ≤ c) && decide (c ≤ 8388607)) && decide (l.sum = 2097152)
  && decide ((l.map Int.natAbs).sum ≤ 536870912)

/-- The stock bank of a preset: the spec lists no coefficient; any list of free values that R220 allows, symmetric as every bank (log 12). -/
def stockBank (p : Nat) : Bank :=
  let l := (List.range ((presetOf p).2.2 / 2)).map (fun k => Config.stockCoef p k)
  if stockFits l then { coefs := l } else unityBank (presetOf p).2.2

/-- What FILT_PRESET leaves in a chain (R221). -/
def Chain.preset (c : Chain) (p : Nat) : Chain :=
  let x := presetOf p
  { (c.configure x.1 x.2.1 false x.2.2).forgetSwap with active := stockBank p, shadow := stockBank p, shadowAdmitted := true }

def filtPresetSpec : CmdSpec :=
  { opcode := 0x0406
    names := fun r => nNode 1 :: chainNames r
    budget := true
    refuse := fun r w s =>
      let p := r.u 19 0 3
      chainConfigRefusals r w s (p = 0 || 6 ≤ p) (fun x => x.preset p)
    act := fun r s =>
      { st := (s.modChain (r.u 16 0 16) (r.u 18 0 1) (fun x => x.preset (r.u 19 0 3))).takePending (dieOfTile (r.u 16 0 16)) } }

/-- FILT_PRESET (R221). -/
def execFiltPreset (r : Req) (s : State) : Host.Outcome State Fault Refusal := .next (filtPresetSpec.run r s)

def filtCoefSpec : CmdSpec :=
  { opcode := 0x0402
    names := chainNames
    refuse := fun r w s =>
      let n := r.u 16 0 16
      let c := r.u 18 0 1
      let ch := (s.tile n).chain c
      let k := r.u 21 0 4
      [beyondTile s n, (k = 0 || 12 < k || (ch.ntaps + 1) / 2 < r.u 20 0 8 + k, .badParam), needs w 1,
       (!r.for (s.chainHolder n c), .rights), tileIsFenced s n, (s.intact (s.chainHolder n c), .sealed), (ch.swap.isSome, .busy)]
    act := fun r s =>
      { st := s.modChain (r.u 16 0 16) (r.u 18 0 1) (fun x =>
          let l := (List.range (r.u 21 0 4)).foldl (fun (l : List Int) i => l.set (r.u 20 0 8 + i) (r.i (24 + 3 * i) 24)) x.shadow.coefs
          { x with shadow := { coefs := l }, shadowAdmitted := false }) } }

/-- FILT_COEF (R209). -/
def execFiltCoef (r : Req) (s : State) : Host.Outcome State Fault Refusal := .next (filtCoefSpec.run r s)

def filtAdmitSpec : CmdSpec :=
  { opcode := 0x0403
    names := chainNames
    refuse := fun r w s =>
      let n := r.u 16 0 16
      let c := r.u 18 0 1
      let ch := (s.tile n).chain c
      [beyondTile s n, (ch.shadow.crc ch.ntaps ≠ r.u 20 0 32, .badParam),
       (!r.b 18 1 && 1073741824 < ch.shadow.l1 ch.ntaps, .badParam), needs w 1,
       (!r.for (s.chainHolder n c), .rights), tileIsFenced s n, (s.intact (s.chainHolder n c), .sealed), (ch.swap.isSome, .busy)]
    act := fun r s =>
      { st := s.modChain (r.u 16 0 16) (r.u 18 0 1) (fun x =>
          { x with shadowAdmitted := true, shadow := { x.shadow with unnormed := 1073741824 < x.shadow.l1 x.ntaps } }) } }

/-- FILT_ADMIT (R210). -/
def execFiltAdmit (r : Req) (s : State) : Host.Outcome State Fault Refusal := .next (filtAdmitSpec.run r s)

/-- The record of FILT_STATUS (R211). LB_NS is in whole nanoseconds, rounded down, as the example of the margin plan has it (R574). -/
def State.filtRecord (s : State) (n c : Nat) : Nat :=
  let x := (s.tile n).chain c
  let d := dieOfTile n
  let l := s.engineStreams d
  let mine := l.filter (fun e => e.1 = n && e.2.1 = c)
  let lb := mine.foldl (fun a e => if e.2.2.1 = 0 then a else max a (engineLb (s.engineStep d) (tapSum l) e.2.2.1).floor.toNat) 0
  mkRec [⟨0, 0, 16, n⟩, ⟨2, 0, 1, c⟩, ⟨2, 1, 1, b2n x.bypassB⟩, ⟨2, 2, 1, b2n x.shadowAdmitted⟩, ⟨2, 3, 1, b2n x.active.unnormed⟩,
    ⟨2, 4, 1, b2n (x.shadowAdmitted && x.shadow.unnormed)⟩, ⟨2, 5, 1, b2n x.swap.isSome⟩, ⟨2, 6, 1, b2n x.fclamp.sat⟩,
    ⟨2, 7, 1, b2n x.govf.sat⟩, ⟨3, 0, 3, s.chainHolder n c⟩, ⟨3, 3, 1, b2n (c = 1 && s.granted n)⟩, ⟨4, 0, 16, x.da⟩,
    ⟨6, 0, 16, x.ntaps⟩, ⟨8, 0, 8, x.rbLog2⟩, ⟨9, 0, 8, ((s.tile n).seq.feeding c).length⟩, ⟨10, 0, 16, x.fclamp.n⟩,
    ⟨12, 0, 16, x.govf.n⟩, ⟨16, 0, 32, x.active.l1 x.ntaps⟩, ⟨20, 0, 32, if x.shadowAdmitted then x.shadow.l1 x.ntaps else 0⟩,
    ⟨24, 0, 32, x.active.crc x.ntaps⟩, ⟨28, 0, 32, x.shadow.crc x.ntaps⟩, ⟨32, 0, 64, x.lastGovf⟩,
    ⟨40, 0, 32, ratCeil (macSum mine / 1000)⟩, ⟨44, 0, 32, ratCeil (macSum l / 1000)⟩,
    ⟨48, 0, 32, 2000000 * (s.engineStep d + 1)⟩, ⟨52, 0, 16, lb⟩]

def filtStatusSpec : CmdSpec :=
  { opcode := 0x0404
    names := chainNames
    read := true
    data := fun r _ => resultAt r 24 64
    refuse := fun r _ s => [beyondTile s (r.u 16 0 16), (!r.for (s.chainHolder (r.u 16 0 16) (r.u 18 0 1)), .rights)]
    act := fun r s => reply s r 24 64 (s.filtRecord (r.u 16 0 16) (r.u 18 0 1)) }

/-- FILT_STATUS (R211). -/
def execFiltStatus (r : Req) (s : State) : Host.Outcome State Fault Refusal := .next (filtStatusSpec.run r s)

/-! ### DC blocking (R228, R229, R237, R238) -/

/-- FILT_DCB changes nothing but FREEZE (R235). -/
def dcbOnlyFreeze (r : Req) (x : Chain) : Bool :=
  r.b 18 1 = x.dcbEnable && r.b 18 5 = x.dcbUns && r.u 20 0 5 = x.dcbK && !r.b 18 3 && !r.b 18 4

def filtDcbSpec : CmdSpec :=
  { opcode := 0x0407
    names := chainNames
    refuse := fun r w s =>
      let n := r.u 16 0 16
      let c := r.u 18 0 1
      let t := s.tile n
      let x := t.chain c
      let busy := (t.converting && !(t.seq.feeding c).isEmpty) || x.swap.isSome
      [beyondTile s n, (r.u 20 0 5 < 6 || 24 < r.u 20 0 5, .badParam),
       (r.b 18 4 && !(t.seq.feeding c).contains (r.u 19 0 5), .badParam), (w ≠ 1 && !dcbOnlyFreeze r x, .rights),
       (!r.for (s.chainHolder n c), .rights), tileIsFenced s n, (s.intact (s.chainHolder n c), .sealed),
       ((r.b 18 1 ≠ x.dcbEnable || r.u 20 0 5 ≠ x.dcbK) && busy, .busy)]
    act := fun r s =>
      let n := r.u 16 0 16
      let c := r.u 18 0 1
      let x := (s.tile n).chain c
      let zero := r.b 18 3 || (r.b 18 1 && !x.dcbEnable)
      let s := s.modChain n c (fun x => { x with
        dcbEnable := r.b 18 1, dcbFreeze := r.b 18 2, dcbUns := r.b 18 5, dcbK := r.u 20 0 5 })
      let s := if zero then
          s.modChain n c (fun x => x.allCtx (fun z => { z with est := 0, settle := 4 * 2 ^ (r.u 20 0 5) }))
        else s
      { st := if r.b 18 4 then s.modChain n c (fun x => x.modCtx (r.u 19 0 5) (fun z => { z with est := r.i 24 48 })) else s } }

/-- FILT_DCB (R237). -/
def execFiltDcb (r : Req) (s : State) : Host.Outcome State Fault Refusal := .next (filtDcbSpec.run r s)

/-- The record of FILT_DCB_READ (R238). -/
def State.dcbRecord (s : State) (n c : Nat) : Nat :=
  let x := (s.tile n).chain c
  let l := (s.tile n).seq.feeding c
  let k := min l.length 8
  mkRec ([⟨0, 0, 16, n⟩, ⟨2, 0, 1, c⟩, ⟨2, 1, 1, b2n x.dcbEnable⟩, ⟨2, 2, 1, b2n x.dcbFreeze⟩, ⟨2, 3, 1, b2n x.dcbUns⟩,
    ⟨3, 0, 5, x.dcbK⟩, ⟨4, 0, 4, k⟩]
    ++ (List.range k).map (fun i => ⟨8 + i, 0, 5, l.getD i 0⟩)
    ++ (List.range k).map (fun i => ⟨16 + 6 * i, 0, 48, toU 48 (tget {} x.ctx (l.getD i 0)).est⟩))

def filtDcbReadSpec : CmdSpec :=
  { opcode := 0x0408
    names := chainNames
    read := true
    data := fun r _ => resultAt r 24 64
    refuse := fun r _ s => [beyondTile s (r.u 16 0 16), (!r.for (s.chainHolder (r.u 16 0 16) (r.u 18 0 1)), .rights)]
    act := fun r s => reply s r 24 64 (s.dcbRecord (r.u 16 0 16) (r.u 18 0 1)) }

/-- FILT_DCB_READ (R238). -/
def execFiltDcbRead (r : Req) (s : State) : Host.Outcome State Fault Refusal := .next (filtDcbReadSpec.run r s)

end Sys2Proof.Machine
end

