-- ==== Sys2Proof/Machine/Float.lean ====
section
/-! DEFINITION. The FP32 unit of a stove (R283): IEEE 754 binary32, nearest even, subnormals flushed. Every operation
answers its 32-bit result and the STICKY flags it sets (R285). -/

set_option Elab.async false

namespace Sys2Proof.Machine

/-- STICKY flags (R285). -/
def kSat32 : Nat := 16
def kFinv : Nat := 32
def kFdz : Nat := 64
def kFof : Nat := 128

/-- A binary32 number taken apart: value m x 2^e, subnormals read as zero. -/
structure Fp where
  nan : Bool := false
  snan : Bool := false
  inf : Bool := false
  neg : Bool := false
  m : Nat := 0
  e : Int := 0

def fpOf (x : Nat) : Fp :=
  let neg := bitAt x 31
  let ex := bits x 23 8
  let fr := bits x 0 23
  if ex = 0 then { neg := neg }
  else if ex = 255 then { nan := fr ≠ 0, snan := fr ≠ 0 && !bitAt x 22, inf := fr = 0, neg := neg }
  else { neg := neg, m := 8388608 + fr, e := (ex : Int) - 150 }

def Fp.zero (x : Fp) : Bool := !x.nan && !x.inf && x.m = 0
def fpNan : Nat := 0x7FC00000
def fpSigned (neg : Bool) (v : Nat) : Nat := v + 2147483648 * b2n neg
def fpInf (neg : Bool) : Nat := fpSigned neg 0x7F800000

/-- The rounding of (m + s) x 2^e, s in (0, 1) when `sticky`, else 0; a result below the normal range is zero (R283, log 22). -/
def fpRound (neg : Bool) (m : Nat) (e : Int) (sticky : Bool) : Nat × Nat :=
  if m = 0 then (fpSigned neg 0, 0)
  else
    let m2 := 2 * m + b2n sticky
    let len := m2.log2 + 1
    let q :=
      if len ≤ 24 then m2 * 2 ^ (24 - len)
      else
        let k := len - 24
        let r := m2 % 2 ^ k
        let t := m2 / 2 ^ k
        if 2 ^ (k - 1) < r || (r = 2 ^ (k - 1) && t % 2 = 1) then t + 1 else t
    let ex := e - 1 + ((len : Int) - 24) + 150 + (if q = 16777216 then 1 else 0)
    if 255 ≤ ex then (fpInf neg, kFof)
    else if ex ≤ 0 then (fpSigned neg 0, 0)
    else (fpSigned neg (ex.toNat * 8388608 + q % 8388608), 0)

/-- The signed value of a finite number in units of 2^u, u at most its exponent. -/
def Fp.int (x : Fp) (u : Int) : Int :=
  let v : Int := ((x.m * 2 ^ (x.e - u).toNat : Nat) : Int)
  if x.neg then -v else v

/-- The sum of two finite values, rounded once. -/
def fpSum (x y : Fp) : Nat × Nat :=
  if x.m = 0 && y.m = 0 then (fpSigned (x.neg && y.neg) 0, 0)
  else
    let u := if x.m = 0 then y.e else if y.m = 0 then x.e else min x.e y.e
    let v := x.int u + y.int u
    if v = 0 then (0, 0) else fpRound (decide (v < 0)) v.natAbs u false

def fpInvalid : Nat × Nat := (fpNan, kFinv)
/-- A NaN result of a NaN operand; a signalling one is an invalid operation (log 22). -/
def fpQuiet (s : Bool) : Nat × Nat := (fpNan, if s then kFinv else 0)

def Fp.add (x y : Fp) : Nat × Nat :=
  if x.nan || y.nan then fpQuiet (x.snan || y.snan)
  else if x.inf && y.inf then (if x.neg = y.neg then (fpInf x.neg, 0) else fpInvalid)
  else if x.inf then (fpInf x.neg, 0)
  else if y.inf then (fpInf y.neg, 0)
  else fpSum x y

def Fp.negate (x : Fp) : Fp := { x with neg := !x.neg }

/-- The exact product of two finite numbers. -/
def Fp.times (x y : Fp) : Fp := { neg := x.neg ≠ y.neg, m := x.m * y.m, e := x.e + y.e }

def Fp.mul (x y : Fp) : Nat × Nat :=
  let neg := x.neg ≠ y.neg
  if x.nan || y.nan then fpQuiet (x.snan || y.snan)
  else if (x.inf && y.zero) || (x.zero && y.inf) then fpInvalid
  else if x.inf || y.inf then (fpInf neg, 0)
  else fpRound neg (x.m * y.m) (x.e + y.e) false

/-- z + x y, rounded once. -/
def Fp.fma (z x y : Fp) : Nat × Nat :=
  let neg := x.neg ≠ y.neg
  if (x.inf && y.zero) || (x.zero && y.inf) then fpInvalid
  else if x.nan || y.nan || z.nan then fpQuiet (x.snan || y.snan || z.snan)
  else if x.inf || y.inf then (if z.inf && z.neg ≠ neg then fpInvalid else (fpInf neg, 0))
  else if z.inf then (fpInf z.neg, 0)
  else fpSum z (x.times y)

def Fp.div (x y : Fp) : Nat × Nat :=
  let neg := x.neg ≠ y.neg
  if x.nan || y.nan then fpQuiet (x.snan || y.snan)
  else if (x.inf && y.inf) || (x.zero && y.zero) then fpInvalid
  else if x.inf then (fpInf neg, 0)
  else if y.inf then (fpSigned neg 0, 0)
  else if y.m = 0 then (fpInf neg, kFdz)
  else fpRound neg (x.m * 2 ^ 50 / y.m) (x.e - y.e - 50) (x.m * 2 ^ 50 % y.m ≠ 0)

def Fp.sqrt (x : Fp) : Nat × Nat :=
  if x.nan then fpQuiet x.snan
  else if x.zero then (fpSigned x.neg 0, 0)
  else if x.neg then fpInvalid
  else if x.inf then (fpInf false, 0)
  else
    let m := (if x.e % 2 = 0 then x.m else 2 * x.m) * 2 ^ 40
    let e := (if x.e % 2 = 0 then x.e else x.e - 1) - 40
    let r := isqrt m 40
    fpRound false r (e / 2) (r * r ≠ m)

/-- x below y, neither a NaN. -/
def Fp.lt (x y : Fp) : Bool :=
  if x.inf || y.inf then (x.inf && x.neg && !(y.inf && y.neg)) || (y.inf && !y.neg && !(x.inf && !x.neg))
  else
    let u := if x.m = 0 then y.e else if y.m = 0 then x.e else min x.e y.e
    decide (x.int u < y.int u)

/-- The relation of FCMP: 0 LT, 1 LE, 2 EQ; any NaN gives 0 (R281). -/
def Fp.cmp (k : Nat) (x y : Fp) : Bool :=
  if x.nan || y.nan then false
  else if k = 0 then x.lt y else if k = 1 then !y.lt x else !x.lt y && !y.lt x

/-- A number as its word, subnormals flushed. -/
def fpFlush (x : Nat) : Nat := if bits x 23 8 = 0 then x / 2147483648 * 2147483648 else x

/-- FMIN and FMAX; of one NaN operand, and of two zeros of unlike sign, the spec states no result: `free` (log 22). -/
def fpPick (mx : Bool) (a b free : Nat) : Nat × Nat :=
  let x := fpOf a
  let y := fpOf b
  if x.nan && y.nan then fpQuiet (x.snan || y.snan)
  else if x.nan || y.nan then (free % 2 ^ 32, b2n (x.snan || y.snan) * kFinv)
  else if x.zero && y.zero && x.neg ≠ y.neg then (fpSigned (free % 2 = 1) 0, 0)
  else (fpFlush (if x.lt y = mx then b else a), 0)

/-- float (v) x 2^(-k) of a signed word (R281). -/
def fpFromInt (v : Int) (k : Nat) : Nat × Nat := fpRound (decide (v < 0)) v.natAbs (-(k : Int)) false

/-- The rounding of m x 2^e to an integer, nearest even. -/
def roundEven (m : Nat) (e : Int) : Nat :=
  if 0 ≤ e then m * 2 ^ e.toNat
  else
    let d := 2 ^ (-e).toNat
    let q := m / d
    if d < 2 * (m % d) || (d = 2 * (m % d) && q % 2 = 1) then q + 1 else q

/-- sat32 of an exact integer: the 32-bit code and SAT32 (R283). -/
def sat32 (v : Int) : Nat × Nat :=
  if v < -2147483648 then (2147483648, kSat32) else if 2147483647 < v then (2147483647, kSat32) else (toU 32 v, 0)

/-- FCVTWS: sat32 of the nearest even of x x 2^k; a NaN gives 0 and sets FINV (R283). -/
def fpToInt (a k : Nat) : Nat × Nat :=
  let x := fpOf a
  if x.nan then (0, kFinv)
  else if x.inf then (if x.neg then 2147483648 else 2147483647, kSat32)
  else
    let v : Int := (roundEven x.m (x.e + k) : Int)
    sat32 (if x.neg then -v else v)

def fpIsNan (a : Nat) : Bool := (fpOf a).nan
def fpIsFinite (a : Nat) : Bool := bits a 23 8 ≠ 255

/-- FABS and FNEG: the sign bit as given; a NaN gives the one NaN, and a subnormal is flushed (R281, R283, log 22). -/
def fpWithSign (a : Nat) (neg : Bool) : Nat :=
  if fpIsNan a then fpNan else fpSigned neg (fpFlush a % 2147483648)

/-! ### Operations in the form the loop unit uses: a value with the flags of the operations it came from (R283, R316) -/

abbrev FpV := Nat × Nat
/-- A value that no operation of the step made. -/
def fpv (a : Nat) : FpV := (a, 0)
def fadd (a b : FpV) : FpV :=
  let r := (fpOf a.1).add (fpOf b.1)
  (r.1, a.2 ||| b.2 ||| r.2)
def fsub (a b : FpV) : FpV :=
  let r := (fpOf a.1).add (fpOf b.1).negate
  (r.1, a.2 ||| b.2 ||| r.2)
def fmul (a b : FpV) : FpV :=
  let r := (fpOf a.1).mul (fpOf b.1)
  (r.1, a.2 ||| b.2 ||| r.2)
def flt (a b : Nat) : Bool := (fpOf a).cmp 0 (fpOf b)
/-- Clamp between two bounds. -/
def fclamp (v lo hi : Nat) : Nat := if flt v lo then lo else if flt hi v then hi else v

end Sys2Proof.Machine
end

