-- ==== Sys2Proof/Machine/LoopBase.lean ====
section
/-! DEFINITION. Loop records and what changes a loop between runs (R312 to R324), and TRIP_N (R494, R495). -/

set_option Elab.async false

namespace Sys2Proof.Machine

/-! ### Stove SRAM (R279) -/

def dLoopBase : Nat := 0xF000
def Stove.dGet (v : Stove) (a : Nat) : Nat := memGetLE 0 v.dsram a 4
def Stove.dSet (v : Stove) (a w : Nat) : Stove := { v with dsram := memSetLE 0 v.dsram a 4 w }

/-! ### Loop records (R314): 32 words -/

abbrev LoopRec := List Nat

def Stove.loopRec (v : Stove) (k : Nat) : LoopRec := (List.range 32).map (fun i => v.dGet (dLoopBase + 512 * k + 4 * i))
def Stove.putLoop (v : Stove) (k : Nat) (r : LoopRec) : Stove :=
  (List.range 32).foldl (fun v i => v.dSet (dLoopBase + 512 * k + 4 * i) (r.getD i 0)) v

/-- Word 16 holds STATE, FIRST, LIM_HI, LIM_LO, RATE, CAUSE and the SAT bits. -/
def lrField (r : LoopRec) (i lo w : Nat) : Nat := bits (r.getD i 0) lo w
def lrPut (r : LoopRec) (i lo w v : Nat) : LoopRec :=
  let x := r.getD i 0
  r.set i (x - bits x lo w * 2 ^ lo + v % 2 ^ w * 2 ^ lo)
def lrState (r : LoopRec) : Nat := lrField r 16 0 2
def lrFirst (r : LoopRec) : Bool := lrField r 16 2 1 = 1

/-- One more in a counter of the record, saturating with its SAT bit (R318). -/
def lrBump (r : LoopRec) (i lo w sat : Nat) : LoopRec :=
  let v := lrField r i lo w
  if v + 1 < 2 ^ w then lrPut r i lo w (v + 1) else lrPut (lrPut r i lo w (2 ^ w - 1)) 16 sat 1 1

/-- The entry into HOLD (R320): HOLD_CNT counts it. -/
def lrHold (cause : Nat) (r : LoopRec) : LoopRec := lrBump (lrPut (lrPut r 16 0 2 3) 16 8 4 cause) 25 0 16 12

/-- The entry into MAN with a manual target, and into AUTO: FIRST is set (R317, R320). -/
def lrMan (target : Nat) (r : LoopRec) : LoopRec := (lrPut (lrPut r 16 0 2 1) 16 2 1 1).set 9 target
def lrAuto (r : LoopRec) : LoopRec := lrPut (lrPut r 16 0 2 2) 16 2 1 1
def lrOff (cause : Nat) (r : LoopRec) : LoopRec := lrPut (lrPut r 16 0 2 0) 16 8 4 cause

/-- AUTO goes to HOLD: OVERRUN, LAW, STOP (R320). -/
def lrAutoHold (cause : Nat) (r : LoopRec) : LoopRec := if lrState r = 2 then lrHold cause r else r
/-- A trap or a NaN holds MAN and AUTO (R320). -/
def lrTrap (cause : Nat) (r : LoopRec) : LoopRec := if lrState r = 1 || lrState r = 2 then lrHold cause r else r
/-- TRIP_N asserted: TRIP_ACTION HOLD or SAFE (R320, R322). -/
def lrTrip (r : LoopRec) : LoopRec :=
  if lrField r 7 3 2 = 1 then lrAutoHold 6 r
  else if lrField r 7 3 2 = 2 && lrState r ≠ 0 then lrPut (lrMan (r.getD 6 0) r) 16 8 4 6
  else r

/-- The event of a change of state: LOOP_HOLD on an entry into HOLD, LOOP_MODE_CHG on another change (R314). -/
def State.loopEvent (s : State) (sv k old new cfg cause : Nat) : State :=
  if old = new then s
  else if new = 3 then
    if bitAt cfg 6 then s.raise 0x0704 (s.stoveOwner sv) sv (k + 256 * cause) else s
  else if bitAt cfg 7 then s.raise 0x0705 (s.stoveOwner sv) sv (k + 256 * new) else s

/-- A trip, an overrun or a trap has fallen in the present gap between two runs. -/
def Stove.gapHit (v : Stove) : Bool := v.tripPend || v.ovrPend ≠ 0 || v.trapPend ≠ 0

/-- The record of loop k that a command of the present gap acts on: before the trip, overruns and traps of the gap (R323). -/
def Stove.loopBase (v : Stove) (k : Nat) : LoopRec := tget (v.loopRec k) v.gapLoops k

/-- The trip of the gap takes a record to SAFE_OUT. -/
def Stove.tripsSafe (v : Stove) (r : LoopRec) : Bool := v.tripPend && lrField r 7 3 2 = 2 && lrState r ≠ 0

/-- What the trip, overruns and traps of the gap make of a record, in the order of R323. -/
def Stove.lrReact (v : Stove) (k : Nat) (r : LoopRec) : LoopRec :=
  let r := if v.tripPend then lrTrip r else r
  let r := if bitAt v.ovrPend k then lrAutoHold 2 r else r
  if bitAt v.trapPend k then lrTrap 3 r else r

/-- A loop's record changed by f between runs: f acts as a command, then what has hit the stove in this gap acts on the result (R323). A loop
that is not in MAN after it no longer owes the step to SAFE_OUT (R320). -/
def State.modLoop (s : State) (sv k : Nat) (f : LoopRec → LoopRec) : State :=
  let v := s.stove sv
  let old := v.loopRec k
  let r := f (v.loopBase k)
  let x := v.lrReact k r
  let due := v.safeJump ||| 2 ^ k * b2n (v.tripsSafe r)
  let jump := if lrState x = 1 then due else due - (due &&& 2 ^ k)
  let gap := if v.gapHit then tset v.gapLoops k r else v.gapLoops
  (s.modStove sv (fun v => { v.putLoop k x with safeJump := jump, gapLoops := gap })).loopEvent sv k (lrState old) (lrState x)
    (x.getD 7 0) (lrField x 16 8 4)

/-- The loops of a mask changed by f. -/
def State.modLoops (s : State) (sv mask : Nat) (f : LoopRec → LoopRec) : State :=
  (List.range 8).foldl (fun s k => if bitAt mask k then s.modLoop sv k f else s) s

/-! ### Stopping (R144, R293, R309) -/

def Stove.modLaw (v : Stove) (i : Nat) (f : Law → Law) : Stove := { v with laws := tmod {} v.laws i f }
def Stove.law (v : Stove) (i : Nat) : Law := tget {} v.laws i

/-- A pending trigger of a law, with what TRIG would show of it, is dropped (R306, R309). -/
def Law.unpend (l : Law) : Law := { l with pending := false, alignFirst := none, alignTimeout := false, compInfo := 0 }

/-- The stove no longer runs: pending triggers are dropped, its tiles take SAFE_ACTION. -/
def State.stopStove (s : State) (sv : Nat) : State :=
  let s := s.modStove sv (fun v => { v with
    state := .stopped, stopping := false, run := none,
    laws := v.laws.map (fun e => (e.1, e.2.unpend)) })
  s.safeActions (s.writerTiles sv)

/-! ### TRIP_N (R494, R495) -/

/-- TRIP_N is low. -/
def State.tripLow (s : State) : Bool :=
  s.node.inReset || s.faults.fatal || s.trust.protHearth.isNone || s.prot.state ≠ .armed || s.prot.latch || s.prot.pulse

/-! ### Loop commands at the moment they act (R320, R321, R324 to R330) -/

/-- The state refuses a loop command. -/
def loopRefusal (r : Req) (s : State) : Option Status :=
  let x := (s.stove (r.u 16 0 5)).loopBase (r.u 17 0 3)
  if r.opcode = 0x0707 then (if lrState x = 2 || lrState x = 3 then some .loopClosed else none)
  else if r.opcode = 0x0708 && r.u 18 0 2 = 2 then
    if lrState x = 0 then some .combination
    else if s.tripLow && lrField x 7 3 2 ≠ 0 && lrState x ≠ 2 then some .combination
    else none
  else none

/-- Clamp of INIT_OUT to the limits of a record. -/
def lrClamp (r : LoopRec) (v : Nat) : Nat := fclamp v (r.getD 2 0) (r.getD 3 0)

/-- LOOP_MODE on a record (R320). -/
def lrMode (mode init : Nat) (r : LoopRec) : LoopRec :=
  match mode with
  | 0 => lrOff 1 r
  | 1 =>
    if lrState r = 0 then (lrMan init r).set 18 (lrClamp r init)
    else if lrState r = 1 then r
    else lrMan (r.getD 18 0) r
  | 2 => if lrState r = 2 then r else lrAuto r
  | _ => lrAutoHold 1 r

/-- What a command that waits for the stove to be between runs does: a loop command to the record, LOOP_STATUS writes it out, and
STOVE_CTRL STOP stops the stove. -/
def State.loopAct (s : State) (r : Req) : State :=
  let sv := r.u 16 0 5
  let k := r.u 17 0 3
  match r.opcode with
  | 0x0705 => (s.stopStove sv).modLoops sv 255 (lrAutoHold 5)
  | 0x0707 =>
    let coef := (List.range 8).map (fun i => r.u (20 + 4 * i) 0 (if i = 7 then 8 else 32))
    s.modLoop sv k (fun x => lrPut (coef ++ x.drop 8) 16 2 1 1)
  | 0x0708 => s.modLoop sv k (lrMode (r.u 18 0 2) (r.u 20 0 32))
  | 0x0709 =>
    s.modLoop sv k (fun x =>
      let x := if r.b 18 0 then x.set 8 (r.u 20 0 32) else x
      let x := if r.b 18 1 then x.set 9 (r.u 24 0 32) else x
      if r.b 18 2 then lrPut (((x.set 24 0).set 25 0).set 26 0) 16 12 4 0 else x)
  | _ =>
    let x := (s.stove sv).loopRec k
    s.writeResult r (r.u 24 0 64) 128 (mkRec ((List.range 32).map (fun i => ⟨4 * i, 0, 32, x.getD i 0⟩)))

/-! ### Between two runs (R323) -/

/-- A waiting loop command acts and completes. -/
def State.loopDone (s : State) (r : Req) : State :=
  match loopRefusal r s with
  | some x => s.finish r x 0
  | none => (s.loopAct r).finish r .ok 0

/-- Between runs the trip, overruns and traps act on the loops at once; a command that comes later in the same gap acts before them on the
records they found (R323). -/
def State.settleFree (s : State) (sv : Nat) : State :=
  if (s.stove sv).run.isNone && (s.stove sv).gapHit then s.modLoops sv 255 id else s

/-- What waits for the stove to be between runs, in the order of R323: commands, TRIP, OVERRUN and TRAP. -/
def State.settle (s : State) (sv : Nat) : State :=
  let wait := (s.stove sv).loopWait
  let s := s.modStove sv (fun v => { v with loopWait := [] })
  let s := { s with host := { s.host with ops := s.host.ops.filter (fun o => !wait.contains o.req) } }
  (wait.foldl (fun s r => s.loopDone r) s).settleFree sv

/-- The gap between two runs is over: the next run starts from the records as they stand, or the stove is fenced (R323). -/
def State.endGap (s : State) (sv : Nat) : State :=
  s.modStove sv (fun v => { v with gapLoops := [], tripPend := false, ovrPend := 0, trapPend := 0 })

/-- TRIP_N has gone low where it was high (R322). -/
def State.tripEdge (s : State) (before : Bool) : State :=
  if before || !s.tripLow then s
  else s.stoveTab.foldl (fun s e => (s.modStove e.1 (fun v => { v with tripPend := true })).settleFree e.1) s

end Sys2Proof.Machine
end

