-- ==== Sys2Proof/Machine/Protect.lean ====
section
/-! DEFINITION. The Tirwin safety layer: the trip latch, the start-up proof, PDUs and connections, and their events and
commands (R492 to R512). -/

set_option Elab.async false

namespace Sys2Proof.Machine

/-- The protection hearth's code, 0xF where none is designated. -/
def State.protCode (s : State) : Nat := s.trust.protHearth.getD 15
def State.conn (s : State) (c : Nat) : Conn := tget {} s.prot.conns c
def State.modProt (s : State) (f : Prot → Prot) : State := { s with prot := f s.prot }
def State.modConn (s : State) (c : Nat) (f : Conn → Conn) : State :=
  s.modProt (fun p => { p with conns := tmod {} p.conns c f })
def ProtState.code : ProtState → Nat
  | .notProven => 0 | .proven => 1 | .armed => 2 | .tripped => 3

/-! ### Trip sources (R496) -/

/-- The trip reaction is in force, or the protection hearth is fenced. -/
def State.faultSource (s : State) : Bool :=
  s.prot.faultHeld || s.faults.recs.any (fun e => e.2.used && e.2.isOpen && e.2.reaction = 7)
  || (match s.trust.protHearth with
      | some h => s.hearthFenced h
      | none => false)

/-- Some trip comparator of the protection hearth with the TRIP action is asserted. -/
def State.comparatorSource (s : State) : Bool :=
  match s.trust.protHearth with
  | none => false
  | some h => s.tiles.any (fun e => s.tileOwner e.1 = h
      && [e.2.tc0, e.2.tc1].any (fun c => c.state = .asserted && bitAt c.actions 2))

/-- Some protection stove's trip request stands. -/
def State.stoveSource (s : State) : Bool :=
  match s.trust.protHearth with
  | none => false
  | some h => s.stoveTab.any (fun e => s.stoveOwner e.1 = h && e.2.tripReq)

/-- ACTIVE: the mask of R496. -/
def State.tripActive (s : State) : Nat :=
  let rx := fun (p : Conn → Bool) => s.prot.conns.any (fun e => e.2.enable && !e.2.dir && p e.2)
  b2n s.comparatorSource + 2 * b2n s.stoveSource + 4 * b2n (rx (fun c => c.acceptTrip && c.remote))
    + 8 * b2n (rx (fun c => c.onExpire && c.state ≠ 3)) + 16 * b2n (s.prot.loopTrip && s.prot.loop = some false)
    + 32 * b2n s.prot.command + 64 * b2n s.faultSource

/-! ### PDUs (R499 to R502) -/

def PduBody.len (b : PduBody) : Nat := b.payload.length

/-- A PDU: header, payload padded to four bytes, CRC. -/
def pduBytes (ident seq ts : Nat) (b : PduBody) : List Byte :=
  let n := (b.len + 3) / 4 * 4
  let head := leBytes ident 4 ++ leBytes seq 4 ++ leBytes ts 4 ++ leBytes b.kind 1 ++ leBytes b.len 1 ++ leBytes 0 2
    ++ b.payload ++ List.replicate (n - b.len) 0
  head ++ leBytes (tirwinCrc head) 4

/-- Microseconds of device time, and TSTAMP. -/
def State.us (s : State) : Nat := s.now / 1000
def State.nowUs (s : State) : Nat := s.us % 2 ^ 32

/-- One entry of a PDU toward the host: PART 0 bytes 0 to 39, PART 1 the rest (R502). -/
def State.pduEvent (s : State) (node c qid part : Nat) (bytes : List Byte) : State :=
  let e : EventRec :=
    { time := s.now, code := 0x0C10, node := node, hearth := s.protCode, subject := c + part * 2 ^ 31, held := 0,
      detail := leNat bytes, dest := some qid }
  let f := fnOfHearth s.protCode
  if s.hearthFenced s.protCode then s
  else if (s.fn f).evStage.length < 64 then s.modFn f (fun x => { x with evStage := x.evStage ++ [e] })
  else s.replaceEvent f qid e

def State.pduToHost (s : State) (node c qid : Nat) (pdu : List Byte) : State :=
  (s.pduEvent node c qid 0 (pdu.take 40)).pduEvent node c qid 1 (pdu.drop 40)

/-- The connection's PDUs travel the ring, and the node may not form them (R506). -/
def State.ringMute (s : State) : Bool := s.isWorker && s.ring.state ≠ .locked

/-- A PDU is formed and sent (R501, R502). -/
def State.emitPdu (s : State) (c : Nat) (b : PduBody) : State :=
  let x := s.conn c
  let seq := if x.formed then (x.lastSeq + 1) % 2 ^ 32 else 0
  let pdu := pduBytes x.ident seq s.nowUs b
  let s := s.modConn c (fun x => { x with
    formed := true, lastSeq := seq, lastTs := s.nowUs, lastUs := some s.us, holding := none,
    tripUs := if b.kind = 2 then some s.us else x.tripUs })
  if x.host && !s.isWorker then s.pduToHost s.ring.nodeNo c x.qid pdu
  else
    let f : FrameOut :=
      { type := .tirwin, dst := some (if x.host then 0 else x.peer), aux := pdu.length + (if x.host then 256 * (c + 64) else 0),
        body := leNat pdu }
    if x.dual then s.sendBoth f (if x.host then 0 else x.peer) else s.sendFrame f

/-- Content is released on a transmit connection: at most one PDU in a microsecond, one more held, the others dropped (R501). -/
def State.formPdu (s : State) (c : Nat) (b : PduBody) : State :=
  let x := s.conn c
  if !x.enable || !x.dir || s.ringMute then s
  else if x.lastUs = some s.us then
    s.modConn c (fun x => { x with
      holding := some b, txDrop := if x.holding.isSome then x.txDrop.bump 16 else x.txDrop })
  else s.emitPdu c b

/-- A TRIP PDU: the ACTIVE mask. -/
def State.tripBody (s : State) : PduBody := { kind := 2, payload := leBytes (s.tripActive % 128) 4 }

/-! ### The latch (R494, R496) -/

/-- SAFE_STATE to the protection hearth and to the PF (R512). -/
def State.safeState (s : State) : State :=
  let d := s.tripActive + 256 * s.prot.first
  let s' := s.raise 0x0C01 15 s.prot.state.code d
  if s.protCode = 15 then s' else s'.raise 0x0C01 s.protCode s.prot.state.code d

/-- The latch is set by the sources of a mask. -/
def State.latchTrip (s : State) (mask : Nat) : State :=
  let low := s.tripLow
  let armed := s.prot.state = .armed
  let s := s.modProt (fun p => { p with
    latch := true, pulse := true, first := mask, latchAt := s.stamp, pulseAt := s.now, trips := p.trips.bump 16,
    state := if armed then .tripped else p.state })
  let s := s.logEv 0x0C01 s.protCode s.prot.state.code (s.tripActive + 256 * mask)
  let s := if armed then s.safeState else s
  let s := s.prot.conns.foldl (fun s e => if e.2.dir && e.2.enable && e.2.tripFwd then s.formPdu e.1 s.tripBody else s) s
  s.tripEdge low

/-- The sources are looked at again: one that has become active sets the latch while ARMED, FAULT in every state (R496). -/
def State.tripCheck (s : State) : State :=
  let a := s.tripActive
  let new := a - (a &&& s.prot.was)
  let s := s.modProt (fun p => { p with was := a })
  if !s.prot.latch && ((s.prot.state = .armed && new ≠ 0) || 64 ≤ new) then s.latchTrip new else s

/-! ### Timed events of transmit connections -/

/-- HEARTBEAT_TIMER: PERIOD without a PDU forms a HEARTBEAT; with TRIP_FWD, while the latch is set, a TRIP every PERIOD (R501). -/
def execHeartbeatTimer (c : Nat) (s : State) : Host.Outcome State Fault Refusal :=
  let x := s.conn c
  let past := fun (t : Option Nat) => match t with
    | some u => decide (u + x.period ≤ s.us)
    | none => true
  if !x.enable || !x.dir || x.period = 0 || s.node.inReset then .next s
  else if s.prot.latch && x.tripFwd then
    if past x.tripUs then .next (s.formPdu c s.tripBody) else .next s
  else if past x.lastUs then .next (s.formPdu c { kind := 1, payload := [] })
  else .next s

/-- PDU_HOLD_RELEASE: the next microsecond of TSTAMP forms the PDU held (R501). -/
def execPduHoldRelease (c : Nat) (s : State) : Host.Outcome State Fault Refusal :=
  let x := s.conn c
  match x.holding with
  | some b => if x.enable && !s.ringMute && x.lastUs ≠ some s.us then .next (s.emitPdu c b) else .next s
  | none => .next s

/-! ### Receiving (R504, R505) -/

/-- A write into a stove's data SRAM that falls between two runs (R435, R505). -/
def State.stoveWrite (s : State) (sv addr : Nat) (l : List Byte) : State :=
  s.modStove sv (fun v =>
    if v.run.isNone then { v with dsram := memSetBytes 0 v.dsram addr l }
    else { v with dueWrites := v.dueWrites ++ [(addr, l)] })

def connWord0 (x : Conn) : Nat := x.state + 4 * x.kind + 256 * x.payload.length

/-- The record of R505 after an acceptance. -/
def State.connRecord (s : State) (c : Nat) : State :=
  let x := s.conn c
  if !x.destEn then s
  else s.stoveWrite x.stove x.addr (leBytes (connWord0 x) 4 ++ leBytes x.lastSeq 4 ++ leBytes x.lastTs 4 ++ leBytes 0 4
    ++ x.payload ++ List.replicate (48 - x.payload.length) 0)

/-- A rejected PDU changes nothing but its counter; CRC and IDENT report TIRWIN_PDU (R504, R512). -/
def State.rejectPdu (s : State) (c verdict : Nat) : State :=
  let s := s.modConn c (fun x =>
    match verdict with
    | 1 => { x with rejCrc := x.rejCrc.bump 16 }
    | 2 => { x with rejIdent := x.rejIdent.bump 16 }
    | 3 => { x with rejAge := x.rejAge.bump 16 }
    | _ => { x with rejSeq := x.rejSeq.bump 16 })
  let s := if verdict ≤ 2 then s.report 0x26 (s.protCode + 256 * c) 0 else s
  s.raiseLim c 0x0C03 s.protCode c verdict

/-- An arriving PDU on a receive connection: the verdict of R510 (R504). -/
def State.receivePdu (s : State) (c : Nat) (pdu : List Byte) : State × Nat :=
  let x := s.conn c
  let at_ := fun (i n : Nat) => leNat ((pdu.drop i).take n)
  let len := at_ 13 1 % 64
  let n := 16 + (len + 3) / 4 * 4
  let kind := at_ 12 1 % 4
  let seq := at_ 4 4
  let ts := at_ 8 4
  let badForm := at_ 12 1 / 4 ≠ 0 || at_ 13 1 / 64 ≠ 0 || at_ 14 2 ≠ 0 || at_ 0 1 / 64 ≠ 0 || at_ 1 1 / 8 ≠ 0 || kind = 3
    || 48 < len || (kind = 1 && len ≠ 0) || (kind = 2 && len ≠ 4)
  let age := wrapDiff 32 s.nowUs ts
  let timeOk := !s.isWorker || s.ring.state = .locked
  if !x.enable || x.dir || x.state = 0 then (s, 6)
  else if pdu.length < n + 4 || tirwinCrc (pdu.take n) ≠ at_ n 4 then (s.rejectPdu c 1, 1)
  else if at_ 0 4 ≠ x.ident || badForm then (s.rejectPdu c 2, 2)
  else if (x.deadline : Int) < age || age < -(x.skew : Int) || !timeOk then (s.rejectPdu c 3, 3)
  else
    let d := wrapDiff 32 seq x.lastSeq
    if x.state ≠ 1 && d ≤ 0 then
      if x.dual && d = 0 then (s.modConn c (fun x => { x with dup := x.dup.bump 16 }), 5) else (s.rejectPdu c 4, 4)
    else
      let gap := x.state ≠ 1 && 1 < d
      let state := if x.state = 1 then 2 else x.state
      let good := if x.state = 1 then 1 else if state = 2 then (if gap then 1 else min 255 (x.good + 1)) else x.good
      let state := if state = 2 && x.recoverN ≤ good then 3 else state
      let s := s.modConn c (fun x => { x with
        state := state, good := good, lost := if gap then x.lost.add 32 (d - 1).toNat else x.lost, lastSeq := seq, lastTs := ts,
        lastAccept := s.stamp, kind := kind, payload := (pdu.drop 16).take len,
        remote := if x.acceptTrip then decide (kind = 2) else x.remote })
      ((s.connRecord c).tripCheck, 0)

/-- The receive connection that takes a frame's PDU: of the peer, with the PDU's identity, else the peer's first (log 38). -/
def State.connFor (s : State) (src : Nat) (pdu : List Byte) : Option Nat :=
  let l := s.prot.conns.filter (fun e => e.2.enable && !e.2.dir && !e.2.host && e.2.peer = src)
  match l.find? (fun e => e.2.ident = leNat (pdu.take 4)) with
  | some e => some e.1
  | none => l.head?.map (fun e => e.1)

/-- TIRWIN: a frame from src with a PDU; `carry` marks a worker's PDU for the manager's host: connection and queue (R502). -/
def execRxTirwin (src : Nat) (pdu : List Byte) (carry : Option (Nat × Nat)) (s : State) : Host.Outcome State Fault Refusal :=
  if s.node.inReset || s.isAlone then .next s
  else match carry with
    | some (c, q) => if s.isManager then .next (s.pduToHost src c q pdu) else .next s
    | none =>
      match s.connFor src pdu with
      | some c => .next (s.receivePdu c pdu).1
      | none => .next s

/-- TIRWIN_EXPIRY: DEADLINE has passed since the last accepted PDU of a connection in RECOVERING or VALID (R504, R505). -/
def execTirwinExpiry (c : Nat) (s : State) : Host.Outcome State Fault Refusal :=
  let x := s.conn c
  if !x.enable || x.dir || x.state < 2 || wrapDiff 32 s.nowUs x.lastTs ≤ (x.deadline : Int) then .next s
  else
    let s := s.modConn c (fun x => { x with state := 1, expires := x.expires.bump 16 })
    let x := s.conn c
    let s := if x.destEn then s.stoveWrite x.stove x.addr (leBytes (connWord0 x) 4) else s
    let s := s.raise 0x0C02 s.protCode c x.lastSeq
    .next ((s.report 0x27 (s.protCode + 256 * c) 0).tripCheck)

/-! ### The trip loop (R497, R498) -/

/-- TRIP_LOOP_CHANGE: the resistance enters the OPEN range (0), the CLOSED range (1) or the one between (2). -/
def execTripLoopChange (range : Nat) (s : State) : Host.Outcome State Fault Refusal :=
  let goal := if range = 0 then some false else if range = 1 then some true else none
  let d := match goal with
    | none => none
    | some b => if s.prot.loop = some b then none else some (b, s.now)
  .next (s.modProt (fun p => { p with debounce := d }))

/-- A judgement of the loop: the proof advances, or, after it, events, LOOP_OPEN_CNT and the LOOP source. -/
def State.loopJudged (s : State) (closed : Bool) : State :=
  let s := s.modProt (fun p => { p with loop := some closed, debounce := none })
  if s.prot.proof = 2 then
    let s := if closed then s.raise 0x0C04 s.protCode 1 s.prot.loopOpens.n
      else
        let s := s.modProt (fun p => { p with loopOpens := p.loopOpens.bump 16 })
        s.raise 0x0C04 s.protCode 0 s.prot.loopOpens.n
    s.tripCheck
  else if s.prot.proof = 1 && closed then
    ((s.modProt (fun p => { p with proof := 2, provenAt := s.stamp, state := .proven })).safeState).tripCheck
  else if !closed then (s.modProt (fun p => { p with proof := 1 })).tripCheck
  else s.tripCheck

/-- TRIP_LOOP_DEBOUNCE: a debounce of 20 ms completes, once die 0 is kindled (R497). -/
def execTripLoopDebounce (s : State) : Host.Outcome State Fault Refusal :=
  match s.prot.debounce with
  | some (closed, t) =>
    if t + 20000000 ≤ s.now && (tget {} s.node.kindle 0).kindled && !s.node.inReset then .next (s.loopJudged closed)
    else .next s
  | none => .next s

/-- MIN_PULSE_END: MIN_PULSE has passed since the latch was set (R496). -/
def execMinPulseEnd (s : State) : Host.Outcome State Fault Refusal :=
  if s.prot.pulse && s.prot.pulseAt + s.prot.minPulse * 1000000 ≤ s.now then .next (s.modProt (fun p => { p with pulse := false }))
  else .next s

/-! ### Commands (R507 to R511) -/

/-- The former protection hearth still holds a TRIP action, a trip request or a connection. -/
def State.protInUse (s : State) : Bool :=
  match s.trust.protHearth with
  | none => false
  | some h =>
    s.tiles.any (fun e => s.tileOwner e.1 = h && [e.2.tc0, e.2.tc1].any (fun c => c.state ≠ .disabled && bitAt c.actions 2))
    || s.stoveSource || s.prot.conns.any (fun e => e.2.enable)

/-- The seal of the protection hearth is INTACT. -/
def protSealed (s : State) : Bool × Status :=
  ((match s.trust.protHearth with
    | some h => s.intact h
    | none => false), .sealed)

def safeConfigSpec : CmdSpec :=
  { opcode := 0x0C01
    names := fun _ => [nNode 5]
    opLogged := fun _ _ => true
    refuse := fun r w s =>
      let h := if r.b 16 3 then some (r.u 16 0 3) else none
      [(r.b 16 3 && !s.isLive (r.u 16 0 3), .badParam), (r.u 18 0 16 = 0 || 10000 < r.u 18 0 16, .badParam), needs w 1,
       (r.fn ≠ 0, .rights), protSealed s, (s.prot.state = .armed || s.prot.state = .tripped, .busy),
       (h ≠ s.trust.protHearth && s.protInUse, .busy)]
    act := fun r s =>
      let h := if r.b 16 3 then some (r.u 16 0 3) else none
      let s := { s with trust := { s.trust with protHearth := h } }
      { st := (s.modProt (fun p => { p with loopTrip := r.b 17 0, minPulse := r.u 18 0 16 })).tripCheck } }

/-- SAFE_CONFIG (R508). -/
def execSafeConfig (r : Req) (s : State) : Host.Outcome State Fault Refusal := .next (safeConfigSpec.run r s)

/-- The configuration half of a connection as SAFE_CONN lays it out (R509). -/
def connOf (r : Req) (x : Conn) : Conn :=
  { x with
    dir := r.b 16 6, peer := r.u 17 0 6, host := r.b 17 6, dual := r.b 17 7, onExpire := r.b 18 0, acceptTrip := r.b 18 1,
    tripFwd := r.b 18 2, recoverN := r.u 19 0 8, ident := r.u 20 0 32, deadline := r.u 24 0 32, skew := r.u 28 0 16,
    period := r.u 30 0 16, stove := r.u 32 0 5, destEn := r.b 32 7, addr := r.u 34 0 16, qid := r.u 36 0 18 }

/-- A live event queue of a hearth. -/
def State.eventQueueOf (s : State) (h q : Nat) : Bool :=
  (s.queue q).live && (s.queue q).kind = 3 && s.qidOwner q = some (h + 1)

def safeConnSpec : CmdSpec :=
  { opcode := 0x0C02
    names := fun _ => [nNode 5]
    opLogged := fun _ _ => true
    refuse := fun r w s =>
      let x := s.conn (r.u 16 0 6)
      let n := connOf r {}
      let h := s.protCode
      let changed := connOf r x ≠ x
      [(n.recoverN = 0 || n.deadline = 0 || 10000 < n.deadline || 1000 < n.skew, .badParam),
       (n.dir && 10000 < n.period, .badParam),
       (!n.dir && n.destEn && (n.addr % 64 ≠ 0 || 0xEFC0 < n.addr || s.nStoves ≤ n.stove || s.stoveOwner n.stove ≠ h), .badParam),
       (n.dir && (n.ident % 256 ≠ s.ring.nodeNo || n.ident / 256 % 256 ≠ h), .badParam),
       (n.dir && n.tripFwd && n.period = 0, .badParam),
       (n.dir && n.host && !s.isWorker && !s.eventQueueOf h n.qid, .badParam),
       needs w 1, (h = 15 || !r.for h, .rights), protSealed s, (!n.host && s.isAlone, .combination),
       (x.onExpire && x.enable && (s.prot.state = .armed || s.prot.state = .tripped) && (!r.b 16 7 || changed), .combination),
       (x.enable && changed, .busy)]
    act := fun r s =>
      let c := r.u 16 0 6
      let on := r.b 16 7
      let s := s.modConn c (fun x =>
        let y := connOf r x
        if on && !x.enable then { y with
          enable := true, state := if y.dir then 0 else 1, good := 0, formed := false, lastUs := none, tripUs := none, holding := none,
          remote := false }
        else if !on then { y with enable := false, state := 0, holding := none, remote := false }
        else y)
      { st := s.tripCheck } }

/-- SAFE_CONN (R509). -/
def execSafeConn (r : Req) (s : State) : Host.Outcome State Fault Refusal := .next (safeConnSpec.run r s)

def safeArmSpec : CmdSpec :=
  { opcode := 0x0C03
    names := fun _ => [nNode 5]
    opLogged := fun _ _ => true
    refuse := fun r _ s =>
      let op := r.u 16 0 2
      let p := s.prot
      let a := s.tripActive
      let expiry := a / 8 % 2 = 1
      [(op = 0 && (p.state = .armed || p.state = .tripped), .badParam), (op = 2 && p.state ≠ .tripped, .badParam),
       (s.trust.protHearth.isSome && !r.for s.protCode, .rights),
       (op = 2 && s.hearthFenced s.protCode, .fenced),
       (op = 0 && (p.state = .notProven || expiry), .notProven), (s.trust.protHearth.isNone, .combination),
       (op = 0 && (p.latch || a ≠ 0), .busy),
       (op = 2 && (s.now < p.pulseAt + p.minPulse * 1000000 || a - a / 32 % 2 * 32 ≠ 0), .busy)]
    act := fun r s =>
      match r.u 16 0 2 with
      | 0 =>
        let s := s.modProt (fun p => { p with state := .armed })
        { st := s.safeState.tripCheck }
      | 1 =>
        let low := s.tripLow
        let leave := s.prot.state = .armed || s.prot.state = .tripped
        let s := s.modProt (fun p => { p with latch := false, command := false, was := 0, state := if leave then .proven else p.state })
        let s := if leave then s.safeState else s
        { st := (s.tripEdge low).tripCheck }
      | 2 =>
        let s := s.modProt (fun p => { p with latch := false, command := false, pulse := false, state := .armed })
        { st := s.safeState.tripCheck }
      | _ => { st := (s.modProt (fun p => { p with command := true })).tripCheck } }

/-- SAFE_ARM (R510). -/
def execSafeArm (r : Req) (s : State) : Host.Outcome State Fault Refusal := .next (safeArmSpec.run r s)

/-- The node record of SAFE_STATUS (R511). -/
def State.safeRecord (s : State) : Nat :=
  let p := s.prot
  mkRec [⟨0, 0, 2, p.state.code⟩, ⟨0, 2, 2, p.proof⟩, ⟨0, 4, 1, b2n (p.loop = some true)⟩, ⟨0, 5, 1, b2n s.trust.protHearth.isSome⟩,
    ⟨0, 6, 1, b2n p.trips.sat⟩, ⟨0, 7, 1, b2n p.loopOpens.sat⟩, ⟨1, 0, 3, s.trust.protHearth.getD 0⟩, ⟨2, 0, 8, s.tripActive⟩,
    ⟨3, 0, 8, p.first⟩, ⟨4, 0, 16, p.trips.n⟩, ⟨6, 0, 16, p.loopOpens.n⟩, ⟨8, 0, 64, p.provenAt⟩, ⟨16, 0, 64, p.latchAt⟩,
    ⟨24, 0, 64, maskOf 64 (fun c => (s.conn c).state = 3)⟩, ⟨32, 0, 64, maskOf 64 (fun c => (s.conn c).enable)⟩, ⟨40, 0, 16, p.minPulse⟩]

/-- The record of one connection (R511). -/
def State.connStatus (s : State) (c : Nat) : Nat :=
  let x := s.conn c
  let cnt := [x.rejCrc, x.rejIdent, x.rejAge, x.rejSeq, x.dup, x.expires]
  mkRec ([⟨0, 0, 6, c⟩, ⟨0, 6, 1, b2n x.dir⟩, ⟨0, 7, 1, b2n x.enable⟩, ⟨1, 0, 2, x.state⟩, ⟨2, 0, 8, x.good⟩, ⟨4, 0, 32, x.lastSeq⟩,
    ⟨8, 0, 32, x.lastTs⟩, ⟨24, 0, 32, x.lost.n⟩, ⟨28, 0, 16, x.txDrop.n⟩,
    ⟨30, 0, 8, maskOf 8 (fun i => ((cnt ++ [x.lost, x.txDrop]).getD i {}).sat)⟩, ⟨32, 0, 64, x.lastAccept⟩]
    ++ (List.range 6).map (fun i => ⟨12 + 2 * i, 0, 16, (cnt.getD i {}).n⟩))

def safeStatusSpec : CmdSpec :=
  { opcode := 0x0C04
    read := true
    data := fun r _ => resultAt r 24 64
    refuse := fun r _ s => [(r.fn ≠ 0 && some (r.fn - 1) ≠ s.trust.protHearth, .rights)]
    act := fun r s =>
      let c := r.u 16 0 6
      if r.b 17 0 then
        let s' := s.writeResult r (r.u 24 0 64) 64 (s.connStatus c)
        if r.b 17 1 then
          { st := s'.modConn c (fun x => { x with
              rejCrc := {}, rejIdent := {}, rejAge := {}, rejSeq := {}, dup := {}, expires := {}, lost := {}, txDrop := {} }) }
        else { st := s' }
      else
        let s' := s.writeResult r (r.u 24 0 64) 64 s.safeRecord
        if r.b 17 1 then { st := s'.modProt (fun p => { p with trips := {}, loopOpens := {} }) } else { st := s' } }

/-- SAFE_STATUS (R511). -/
def execSafeStatus (r : Req) (s : State) : Host.Outcome State Fault Refusal := .next (safeStatusSpec.run r s)

def tirwinPutSpec : CmdSpec :=
  { opcode := 0x0C05
    data := fun r _ => [{ addr := r.u 24 0 64, len := 68, wr := false, align := 64 }]
    refuse := fun r _ s =>
      let x := s.conn (r.u 16 0 6)
      [(x.dir || !x.host, .badParam), (s.trust.protHearth.isNone || !r.for s.protCode, .rights)]
    act := fun r s =>
      let v := s.receivePdu (r.u 16 0 6) (s.dataBytes r (r.u 24 0 64) 68)
      { st := v.1, result := v.2 } }

/-- TIRWIN_PUT (R510). -/
def execTirwinPut (r : Req) (s : State) : Host.Outcome State Fault Refusal := .next (tirwinPutSpec.run r s)

end Sys2Proof.Machine
end

