-- ==== Sys2Proof/Machine/StoveBase.lean ====
section
/-! DEFINITION. Stoves between instructions: triggers of laws, traps, runs, the execute-in-place cache, the program store's
bytes (R276 to R301). -/

set_option Elab.async false

namespace Sys2Proof.Machine

/-! ### The program store's bytes (R296 to R298) -/

def State.bank (s : State) (k : Nat) : PsBank := tget {} s.ps k
def State.modBank (s : State) (k : Nat) (f : PsBank → PsBank) : State := { s with ps := tmod {} s.ps k f }

/-- A byte of a bank: erased bytes read 0xFF; a page left undefined by a failed operation reads free values (R298, R301). -/
def PsBank.byte (b : PsBank) (a : Nat) : Byte :=
  match b.undef.find? (fun e => e.1 = a / 256) with
  | some e => BitVec.ofNat 8 (Config.freeVal (e.2 + a % 256))
  | none => memGet 0xFF b.cells a
def PsBank.word (b : PsBank) (a : Nat) : Nat :=
  leNat ((List.range 4).map (fun i => b.byte (a + i)))

/-! ### Instruction space (R279) -/

/-- The bank key and the offset of an instruction address in a program-store window; none outside, and for die-0 bank 1. -/
def psWindow (sv pc : Nat) : Option (Nat × Nat) :=
  if 0x40000000 ≤ pc && pc < 0x40800000 then
    let bank := (pc - 0x40000000) / 0x400000
    if sv / 4 = 0 && bank = 1 then none else some (2 * (sv / 4) + bank, pc % 0x400000)
  else none

/-- The word at pc. -/
def State.fetchWord (s : State) (sv pc : Nat) : Nat :=
  match psWindow sv pc with
  | some (k, off) => (s.bank k).word off
  | none => memGetLE 0 (s.stove sv).isram pc 4

def lineOf (pc : Nat) : Nat := pc / 64 * 64
def setOf (pc : Nat) : Nat := pc / 64 % 16

/-! ### The end of a run -/

/-- A run has ended: writes and disabling that waited act, the run counts as clean, a STOP completes, the loops settle
(R289, R306, R309, R323, R505). -/
def State.runEnded (s : State) (sv law : Nat) : State :=
  let s := s.modStove sv (fun v =>
    let w := v.dueWrites.foldl (fun m e => memSetBytes 0 m e.1 e.2) v.dsram
    let v : Stove := { v with run := none, dueWrites := [], dsram := w, state := if v.state = .running then .idle else v.state }
    let v := v.modLaw law (fun l =>
      if l.skipped then { l with cleanRuns := 0, skipped := false }
      else if 255 ≤ l.cleanRuns then { l with cleanRuns := 0, ovrRun := 0 } else { l with cleanRuns := l.cleanRuns + 1 })
    { v with laws := v.laws.map (fun e =>
        (e.1, if e.2.disabling then { e.2.unpend with enable := false, disabling := false } else e.2)) })
  if (s.stove sv).stopping then s.settle sv else s.settleFree sv

/-- A trap (R292, R293): no staged output is released, the law's loops go to HOLD. -/
def State.trapRun (s : State) (sv cause : Nat) : State :=
  match (s.stove sv).run with
  | none => s
  | some x =>
    let s := s.modStove sv (fun v =>
      let v := { v with run := none, lastCause := cause, trapPend := v.trapPend ||| (v.law x.law).loops }
      v.modLaw x.law (fun l => { l with traps := l.traps.bump 16, lastTrap := s.stamp }))
    let s := s.raiseLim (8 * sv + x.law) 0x0703 (s.stoveOwner sv) sv (x.law + 256 * cause)
    let s := s.runEnded sv x.law
    if (s.stove sv).trapAction = 1 && (s.stove sv).state ≠ .stopped then s.stopStove sv else s

/-! ### Fetching (R279, R292, R295) -/

/-- The fetch at the run's pc: a trap, a hit, or a miss that stalls the stove. -/
def State.beginFetch (s : State) (sv : Nat) : State :=
  let v := s.stove sv
  match v.run with
  | none => s
  | some x =>
    if x.pc % 4 ≠ 0 then s.trapRun sv 2
    else if x.pc < 65536 then s
    else match psWindow sv x.pc with
      | none => s.trapRun sv 2
      | some _ =>
        let l := tget [] v.cache (setOf x.pc)
        if l.contains (lineOf x.pc) then
          s.modStove sv (fun v => { v with cache := tset v.cache (setOf x.pc) (lineOf x.pc :: l.erase (lineOf x.pc)) })
        else s.modStove sv (fun v => { v with run := some { x with stalled := true }, cacheMiss := v.cacheMiss.bump 32 })

/-- CACHE_FILL_DONE: the line fill of a stalled stove completes after `cycles` of stall; a bank in operation fills nothing (R295, R300). -/
def execCacheFillDone (sv cycles : Nat) (s : State) : Host.Outcome State Fault Refusal :=
  if s.nStoves ≤ sv then .fault (.absentUnit "stove" sv)
  else
    let v := s.stove sv
    match v.run with
    | none => .next s
    | some x =>
      match psWindow sv x.pc with
      | none => .next s
      | some (k, _) =>
        if !x.stalled || (s.bank k).running then .next s
        else
          let l := tget [] v.cache (setOf x.pc)
          let s := s.modBank k (fun b => { b with lastFill := some s.now })
          .next (s.modStove sv (fun v => { v with
            run := some { x with stalled := false, cycle := x.cycle + cycles },
            cache := tset v.cache (setOf x.pc) ((lineOf x.pc :: l).take 4) }))

/-- TRAP_CYCLES: CYCLE, with `stall` cycles of a stall in progress, has reached MAX_CYCLES before END (R292, R295). -/
def execTrapCycles (sv stall : Nat) (s : State) : Host.Outcome State Fault Refusal :=
  if s.nStoves ≤ sv then .fault (.absentUnit "stove" sv)
  else
    let v := s.stove sv
    match v.run with
    | none => .next s
    | some x =>
      if (v.law x.law).maxCycles ≤ x.cycle + (if x.stalled then stall else 0) then .next (s.trapRun sv 4) else .next s

/-! ### Triggers (R287 to R289) -/

/-- A trigger of law i: pending, with what `mark` notes of it for TRIG, or skipped and counted while the law runs or is pending. -/
def State.lawTrigger (s : State) (sv i time seq : Nat) (mark : Law → Law := id) : State :=
  let v := s.stove sv
  let l := v.law i
  let running := match v.run with
    | some x => x.law = i
    | none => false
  if v.state = .stopped || s.stoveFenced sv || !l.enable then s
  else if running || l.pending then
    let s := s.modStove sv (fun v => v.modLaw i (fun l => { l with
      overruns := l.overruns.bump 16, ovrRun := satInc 8 l.ovrRun, cleanRuns := 0, skipped := true }))
    let l := (s.stove sv).law i
    if l.ovrLimit ≠ 0 && l.ovrLimit ≤ l.ovrRun then
      let s := s.raise 0x0701 (s.stoveOwner sv) sv (i + 65536 * l.overruns.n)
      (s.modStove sv (fun v => { (v.modLaw i (fun l => { l with ovrRun := 0 })) with ovrPend := v.ovrPend ||| l.loops })).settleFree sv
    else s
  else s.modStove sv (fun v => v.modLaw i (fun l => { mark l with pending := true, trigTime := time, trigSeq := seq }))

/-- The assertion of a comparator whose STOVE action names the stove (R287, R173). -/
def State.comparatorTrigger (s : State) (sv tile tc time : Nat) : State :=
  (List.range 8).foldl (fun s i =>
    let l := (s.stove sv).law i
    if l.enable && l.trigKind = 2 then
      s.lawTrigger sv i time 0 (fun l => { l with compInfo := 131072 + 262144 * tc + 16777216 * (tile % 256) })
    else s) s

/-- A word on port p for law i: what arrived, and the trigger of ANY and ALIGNED laws (R287). -/
def State.portLaw (s : State) (sv p i time seq : Nat) : State :=
  let s := s.modStove sv (fun v => v.modLaw i (fun l => { l with arrived := l.arrived ||| 2 ^ p }))
  let v := s.stove sv
  let l := v.law i
  if !l.enable || !bitAt l.trigMask p then s
  else if l.trigKind = 0 then s.lawTrigger sv i time seq
  else if l.trigKind = 1 then
    let all := (List.range 16).all (fun q => !bitAt l.trigMask q ||
      (let x := tget {} v.ports q
       x.got && x.time = time))
    if all then (s.modStove sv (fun v => v.modLaw i (fun l => { l with alignFirst := none }))).lawTrigger sv i time seq
    else if l.alignFirst.isSome then s
    else s.modStove sv (fun v => v.modLaw i (fun l => { l with alignFirst := some s.now, alignTime := time, alignSeq := seq }))
  else s

/-- The stove input that the fabric of a die serves next: of those that have asked longest the next in the round of the tiles (R32). The
levels above, trip and fault messages and force targets, have acted when a row ends; the levels below come after (log 20). -/
def State.fabricNext (s : State) (d : Nat) : Option FabricWord :=
  let l := s.fabric.filter (fun w => w.stove / 4 = d)
  let first := l.foldl (fun m w => min m w.since) ((l.head?.map (·.since)).getD 0)
  let rank := fun (w : FabricWord) => (keyTile w.src + 65536 - tget 0 s.fabricTurn d) % 65536
  match l.filter (fun w => w.since = first) with
  | [] => none
  | w :: t => some (t.foldl (fun b x => if rank x < rank b then x else b) w)

/-- A word for an input port is lost on its way: the next one the port takes carries GAP (R14). -/
def State.portMiss (s : State) (w : FabricWord) : State :=
  s.modStove w.stove (fun v =>
    let x := tget {} v.ports w.port
    if x.bound = some w.src then { v with ports := tset v.ports w.port { x with gapDue := true } } else v)

/-- The words on their way through the fabric that p picks are flushed. -/
def State.flushFabric (s : State) (p : FabricWord → Bool) : State :=
  (s.fabric.filter p).foldl (fun (s : State) w => s.portMiss w) { s with fabric := s.fabric.filter (fun w => !p w) }

/-- PORT_WORD_ARRIVAL: the word that the fabric of the die serves next arrives at port p of stove sv, when it is for that port; `bad`: it
fails PAR (R30, R32, R104, R287). -/
def execPortWordArrival (sv p : Nat) (bad : Bool) (s : State) : Host.Outcome State Fault Refusal :=
  if s.nStoves ≤ sv then .fault (.absentUnit "stove" sv)
  else match (s.fabricNext (sv / 4)).filter (fun w => w.stove = sv && w.port = p) with
    | none => .next s
    | some w =>
      let s := { s with fabric := s.fabric.erase w, fabricTurn := tset s.fabricTurn (sv / 4) (keyTile w.src + 1) }
      let x : InPort := tget {} (s.stove sv).ports p
      if s.stoveFenced sv || x.bound ≠ some w.src then .next (s.portMiss w)
      else if bad then
        let s := s.portMiss w
        .next (s.report 0x05 (keyTile (x.bound.getD 0)) 0)
      else
        let word := if x.gapDue then setFlag w.word fGAP else w.word
        let s := s.modStove sv (fun v => { v with
          ports := tset v.ports p { x with word := word, seq := w.seq, time := w.time, gapDue := false, got := true } })
        .next ((List.range 8).foldl (fun s i => s.portLaw sv p i w.time w.seq) s)

/-- ALIGN_WAIT_TIMEOUT: ALIGN_WAIT has passed since the first arrival of an ALIGNED law (R287). -/
def execAlignWaitTimeout (sv i : Nat) (s : State) : Host.Outcome State Fault Refusal :=
  if s.nStoves ≤ sv then .fault (.absentUnit "stove" sv)
  else
    let l := (s.stove sv).law i
    match l.alignFirst with
    | some t =>
      if t + l.alignWait ≤ s.now then
        .next ((s.modStove sv (fun v => v.modLaw i (fun l => { l with alignFirst := none }))).lawTrigger sv i l.alignTime l.alignSeq
          (fun l => { l with alignTimeout := true }))
      else .next s
    | none => .next s

/-- LAW_RUN_START: a free stove starts the run of its pending law of lowest index (R288); TRIG is taken. -/
def execLawRunStart (sv : Nat) (s : State) : Host.Outcome State Fault Refusal :=
  if s.nStoves ≤ sv then .fault (.absentUnit "stove" sv)
  else if (s.stove sv).state ≠ .idle || s.stoveFenced sv || (s.stove sv).run.isSome then .next s
  else
    let s := s.settle sv
    let v := s.stove sv
    match (List.range 8).find? (fun i => (v.law i).pending && (v.law i).enable) with
    | none => .next s
    | some i =>
      let s := s.endGap sv
      let l := v.law i
      let info := l.arrived % 65536 + 65536 * b2n l.alignTimeout + l.compInfo
      let s := s.modStove sv (fun v =>
        { (v.modLaw i (fun l => { l with
              pending := false, arrived := 0, alignTimeout := false, compInfo := 0, runCnt := l.runCnt.bump 32 })) with
          state := .running, run := some { law := i, pc := l.entry, trigTime := l.trigTime, trigSeq := l.trigSeq, trigInfo := info } })
      .next (s.beginFetch sv)

end Sys2Proof.Machine
end

