-- ==== Sys2Proof/Machine/RawPath.lean ====
section
/-! DEFINITION. The raw path: trip comparators, a conversion's word and its consumers, the core's counters and their commands
(R87 to R114, R171 to R183, R623). -/

set_option Elab.async false

namespace Sys2Proof.Machine

/-! ### Trip comparators (R171 to R175) -/

def State.modTc (s : State) (n c : Nat) (f : Tc → Tc) : State := s.modTile n (fun t => t.modTc c f)

/-- The actions of an assertion, where they are not withdrawn: the hearth's fence withdraws EVENT and STOVE (R173, R522). -/
def State.tcAsserted (s : State) (n c : Nat) (w : Word) (e time : Nat) : State :=
  let s := s.modTc n c (fun x => { x with
    state := .asserted, count := x.count + 1, releaseRun := 0, hits := x.hits.bump 16, last := max time 1, word := w })
  let x := (s.tile n).tc c
  let h := s.tileOwner n
  let s := if bitAt x.actions 2 then s.logEv 0x0301 h n (c + w.toNat * 2 ^ 32) else s
  let s := if bitAt x.actions 0 && !s.hearthFenced h then s.raiseLim (2 * n + c) 0x0301 h n (c + w.toNat * 2 ^ 32) else s
  let s := if bitAt x.actions 1 && !s.hearthFenced h then s.comparatorTrigger x.stove n c time else s
  let s := s.sendTriggers 4 (s.edgeClock e) (fun m q => dieOfTile m = dieOfTile n && q.trigArg % 64 = n % 32 + 32 * c)
  s.tripCheck

/-- The release of an asserted comparator: back to WATCHING. -/
def State.tcReleased (s : State) (n c : Nat) : State :=
  let x := (s.tile n).tc c
  let s := s.modTc n c (fun x => { x with state := .watching, count := 0, releaseRun := 0, resetPending := false })
  let h := s.tileOwner n
  let s := if bitAt x.actions 2 then s.logEv 0x0302 h n c else s
  let s := if bitAt x.actions 0 && !s.hearthFenced h then s.raiseLim (2 * n + c) 0x0302 h n c else s
  s.tripCheck

/-- The word is evaluated by the comparator (R172). -/
def Tc.evaluates (x : Tc) (w : Word) : Bool := !hasFlag w fSTL && !(x.disHold && hasFlag w fDIS)

/-- A raw word of the bound slot reaches a comparator. -/
def State.tcWord (s : State) (n c : Nat) (w : Word) (e time : Nat) : State :=
  let x := (s.tile n).tc c
  if x.state = .disabled || !x.evaluates w then s
  else
    let s := if x.resetPending && x.state = .asserted then s.tcReleased n c else s
    let x := (s.tile n).tc c
    let v := code18 w
    if x.state = .asserted then
      if x.latch then s
      else
        let inside := x.lo + (x.hyst : Int) ≤ v && v ≤ x.hi - (x.hyst : Int)
        let run := if inside then x.releaseRun + 1 else 0
        if x.release ≤ run then s.tcReleased n c else s.modTc n c (fun x => { x with releaseRun := run })
    else if x.hi < v || v < x.lo then
      if x.persist ≤ x.count + 1 then s.tcAsserted n c w e time
      else s.modTc n c (fun x => { x with state := .counting, count := x.count + 1 })
    else s.modTc n c (fun x => { x with state := .watching, count := 0 })

/-! ### One conversion (R87 to R106) -/

/-- The fine correction of a result at a gain code: r (1 + g / 10^8) + o / 512, rounded half up (R91, R240, log 30). -/
def Trims.correct (t : Trims) (gain : Nat) (r : Int) : Int :=
  divHalfUp ((r * 100000000 + r * t.fineGain.getD gain 0) * 512 + t.fineOffset.getD gain 0 * 100000000) 51200000000

/-- The result of a core, negated in the swapped chop phase, corrected (R91, R62). -/
def State.corrected (s : State) (core gain : Nat) (swapped : Bool) (r : Int) : Int :=
  (s.calCore core).trims.correct gain (if swapped then -r else r)

/-- A conversion of the input r by a core whose register of the slot holds x: the result with the residue added, shaped, and the new residue.
Beyond 1.0625 FS the loop filter saturates, and the register is held at its bound (R87, R88, R95, log 78). -/
def SlotState.load (x : SlotState) (r : Int) : Int × Int :=
  let b : Int := (Config.residueBound : Nat)
  if 139264 < r then (139264, b) else if r < -139264 then (-139264, -b)
  else (clampI (-139264) 139264 (r + if x.residue = 0 then 0 else Config.shaped x.residue), clampI (-b) b (Config.residueAfter x.residue r))

/-- The code of a conversion and whether it carries OVR: an open source sets it, else the clamp (R75, R93). -/
def State.codeOf (s : State) (n d t64 : Nat) (res : Int) : Int × Bool :=
  let pins := dPins n (s.group (groupOfTile n)).fe.auxPair d
  match s.openSource pins t64 with
  | some p => (s.openCode pins p, true)
  | none => clampRaw res

/-- The recovery count after a conversion, and whether it is the clean sample 24 (R96). -/
def SlotState.recover (x : SlotState) (ovr : Bool) : Nat × Bool :=
  if ovr then (0, false)
  else if x.starting || x.inOvr then (1, false)
  else if x.recov = 23 then (0, true)
  else if 0 < x.recov then (x.recov + 1, false)
  else (0, false)

/-- A raw word at comparator c of its tile: one whose parity fails is not used, and the next accepted one carries GAP (R104, R172). -/
def State.tcFeed (s : State) (n c slot : Nat) (w : Word) (e time : Nat) (bad : Bool) : State :=
  let x := (s.tile n).tc c
  if x.slot ≠ slot || x.state = .disabled then s
  else if bad then s.modTc n c (fun x => { x with gapDue := true })
  else if x.gapDue then (s.modTc n c (fun x => { x with gapDue := false })).tcWord n c (setFlag w fGAP) e time
  else s.tcWord n c w e time

/-- A raw word goes to the comparators, the raw stream and the chains of its slot, in the order of R32: what the comparators trip, stove
inputs, filter inputs, pond writes. `bad` names the consumers at which a parity fails: bits 0 and 1 the chains, bit 2 the comparators, bit 3
the metering pairs, for a word that chain 1 makes of it without stage B (R100, R104). -/
def State.rawOut (s : State) (n slot d : Nat) (w : Word) (e time bad : Nat) : State :=
  let s := if bad % 8 = 0 then s else s.report 0x05 n 0
  let s := (s.tcFeed n 0 slot w e time (bitAt bad 2)).tcFeed n 1 slot w e time (bitAt bad 2)
  let key := streamKey s.ring.nodeNo n slot kRaw 0
  let x := if dRaw d then s.takeSample key time else ((0, false), s)
  let w1 := if x.1.2 then setFlag w fGAP else w
  let s := if dRaw d then x.2.bringPorts key w1 x.1.1 time else s
  let chain := fun (s : State) (c : Nat) =>
    if !dChain d c then s
    else if bitAt bad c then s.chainMiss n c slot e time
    else s.chainFeed n c slot w e time (bitAt bad 3)
  let s := chain (chain s 0) 1
  if dRaw d then s.bringPonds key w1 x.1.1 time else s

/-- A conversion that delivers no word: every stream of the slot loses a sample (R14, R523). -/
def State.missConversion (s : State) (n slot d e time : Nat) : State :=
  let s := if dRaw d then s.loseSample (streamKey s.ring.nodeNo n slot kRaw 0) time else s
  let s := if dChain d 0 then s.chainMiss n 0 slot e time else s
  let s := if dChain d 1 then s.chainMiss n 1 slot e time else s
  let l := tmod {} (s.tile n).core.slots slot (fun x => { x with lost := true })
  (s.modTile n (fun t => { t with core := { t.core with slots := l } })).seqAdvance n e

/-- The words of the slot are held values: power-up calibration, a stale hold, no valid row, a fenced neighbour (R58, R253, R258, R267). -/
def State.holds (s : State) (n d : Nat) : Bool :=
  (!s.covered n && (!s.calUp n || (s.tile n).cal.stale)) || !(tget {} s.rows (dieOfTile n)).rowOk
  || (dSrc d = 1 && s.tileFenced (n ^^^ 1))

/-- No unit delivers the tile's words: the tile fenced, its core fenced with no reserve on it, or just back from a calibration given up, VA5
off, or its kindling still due (R266, R562). -/
def State.silent (s : State) (n : Nat) : Bool :=
  s.tileFenced n || (s.coreFenced n && !s.covered n) || decide (s.node.clock < (s.tile n).core.resumeAt) || s.node.va5Off || s.kindleWaits n

/-- What tracking keeps of a slot: the count and the last 32 differences, reserve less tile core (R262). -/
def State.trackSlot (s : State) (n slot : Nat) (diff : Int) : State :=
  s.modSched (groupOfTile n) (fun g => { g with
    tracked := tmod 0 g.tracked slot (· + 1), diffs := tmod [] g.diffs slot (fun l => (diff :: l).take 32) })

/-- What a conversion of one core makes: its code and OVR, its recovery count and whether it is the clean sample 24, the flags of its word
but SPR and GAP, and what its slot register keeps (R74, R88, R93, R96, R105). -/
structure CoreWord where
  code : Int
  ovr : Bool
  clean : Bool
  flags : Nat
  slot : SlotState

/-- A core, by its number, converts a slot of tile n whose register holds x, in the chop phase of the tile, which the reserve copies. A
word without OVR after one with OVR is recovery sample 1: its conversion leaves the residue of a register that was zeroed (R96, log 78). -/
def State.coreWord (s : State) (core n d t64 : Nat) (x : SlotState) (swapped : Bool) (r : Int) : CoreWord :=
  let l := x.load r
  let out := s.codeOf n d t64 (s.corrected core (dGain d) swapped l.1)
  let rec_ := x.recover out.2
  let left := if x.inOvr && !out.2 then ({ x with residue := 0 }.load r).2 else l.2
  { code := out.1, ovr := out.2, clean := rec_.2
    flags := b2n out.2 + 4 * b2n (0 < rec_.1) + 16 * b2n (!out.2 && s.disturbed (groupOfTile n) t64)
    slot := { x with residue := left, recov := rec_.1, starting := false, inOvr := out.2 } }

/-- The tile core converts a slot: unless the reserve covers it (R262). -/
def State.byTile (s : State) (n : Nat) : Bool := !s.covered n || s.trackedBy n

/-- The span stream of a slot: what the reserve converts alongside the tile core (R108, R262). SPR marks its words only while they stand
in for the tile core's (R105). -/
def State.spanOut (s : State) (n slot time : Nat) (w : CoreWord) : State :=
  let k := streamKey s.ring.nodeNo n slot kRaw 1
  if (s.stream k).sample.qid.isSome then s.deliver k (rawWord w.code (w.flags + fSPR * b2n (s.covered n))) time else s

/-- k conversions on a tile, by the cores that convert for it, with the forced decisions of each (R90, R262). -/
def State.convertedFor (s : State) (n k : Nat) (f : Forced) : State :=
  let s := if s.byTile n then s.converted n k f.tile else s
  if s.covered n || s.trackedBy n then s.converted (reserveCore (groupOfTile n)) k f.reserve else s

/-- A real conversion: r the tile core's input, q the reserve core's. Each core that converts uses its own register of the slot; the word is
that of the core which delivers for the tile (R88, R262, R265). Forced decisions count on the core that converts (log 78). -/
def State.convert (s : State) (n slot d e time t64 : Nat) (r q : Int) (forced : Forced) (bad : Nat) : State :=
  let g := groupOfTile n
  let x := tget {} (s.tile n).core.slots slot
  let chop := decide ((s.tile n).fe.chop = 0)
  let own := s.coreWord n n d t64 x (chop && x.swapped) r
  let res := s.coreWord (reserveCore g) n d t64 (tget {} (s.group g).core.slots slot) (chop && x.swapped) q
  let spr := s.covered n
  let byTile := s.byTile n
  let out := if spr then res else own
  let w := rawWord out.code (out.flags + fSPR * b2n spr + fGAP * b2n x.lost)
  let entry := out.ovr && !x.outOvr
  let y : SlotState := { (if byTile then own.slot else x) with lastCode := out.code, lost := false, outOvr := out.ovr, swapped := chop && !x.swapped }
  let s := s.modTile n (fun t => { t with core := { t.core with
    slots := tset t.core.slots slot y, ovr := if entry then t.core.ovr.bump 16 else t.core.ovr,
    lastOvr := if entry then max time 1 else t.core.lastOvr, lastClean := if out.clean then max time 1 else t.core.lastClean } })
  let s := s.convertedFor n 1 forced
  let s := if spr || s.trackedBy n then s.modCore (reserveCore g) (fun c => { c with slots := tset c.slots slot res.slot }) else s
  let s := if s.trackedBy n then (s.trackSlot n slot (res.code - own.code)).spanOut n slot time res else s
  s.rawOut n slot d w e time bad

/-- The measured start of a force output, 98 ns after the entry: the code of the port, whose switches are still open, in the direct chop
phase, becomes the generator's value; a SAFE_TARGET that was asked for meanwhile stays the target (R122, R143). -/
def State.measured (s : State) (n : Nat) (r : Int) (forced : Nat) : State :=
  let f := (s.tile n).force
  let code := (s.codeOf n 0 s.node.clock (s.corrected n (f.range + 1) false (clampI (-139264) 139264 r))).1
  let w : Word := BitVec.ofNat 32 (toU 18 code * 16384)
  ((s.converted n 1 forced).modForce n (fun f => { f with
    pos := forcePos f.range w, v := 0, target := if f.hold && f.held = 2 then f.target else w, phase := .normal })).modeDone n

/-- CONVERSION on tile n: at its edge a conversion completes with the unclamped results of the tile core and of the reserve
(log 16), the forced decisions of each, and the consumers at which the word's parity fails (R89 to R106). -/
def execConversion (n : Nat) (r q : Int) (forced : Forced) (bad : Nat) (s : State) : Host.Outcome State Fault Refusal :=
  if s.nTiles ≤ n then .fault (.absentUnit "tile" n)
  else
    let t := s.tile n
    if s.node.inReset then .next s
    else if t.force.phase = .measuring && !s.silent n then
      .next (if t.force.enteredAt + 6250 ≤ s.node.clock then s.measured n r forced.tile else s)
    else match t.seq.next with
      | none => .next s
      | some e =>
        let early := match s.commitEdge n with
          | some c => decide (c ≤ e)
          | none => false
        let beforeSync := match s.sync.pending with
          | some p => decide (p.actEdge ≤ e)
          | none => false
        if !t.converting || s.edge < e || early || beforeSync then .next s
        else
          let slot := t.seq.slot
          let d := t.seq.active.getD slot 0
          let time := s.edgeTime e
          if s.silent n then .next (s.missConversion n slot d e time)
          else if s.holds n d then
            let w := rawWord (tget {} t.core.slots slot).lastCode (fSTL + fGAP * b2n (tget {} t.core.slots slot).lost)
            let l := tmod {} t.core.slots slot (fun x => { x with lost := false, outOvr := false })
            let s := s.convertedFor n 0 forced
            let s := s.modTile n (fun t => {
              t with core := { t.core with slots := l }
                     cal := { t.cal with staleCnt := if t.cal.stale then t.cal.staleCnt.add 26 1 else t.cal.staleCnt } })
            .next ((s.rawOut n slot d w e time bad).seqAdvance n e)
          else .next ((s.convert n slot d e time (s.edgeClock e) r q forced bad).seqAdvance n e)

/-- FLUSH_EXPIRY: the flush interval of queue q has passed for its open blocks (R44). -/
def execFlushExpiry (q : Nat) (s : State) : Host.Outcome State Fault Refusal :=
  let f := (s.queue q).flush * 100
  if f = 0 then .next s
  else
    let due := fun (x : Share) => x.qid = some q && x.openBlock.isSome && decide (x.openAt + f ≤ s.now)
    .next (s.host.streams.foldl (fun s e =>
      let s := if due e.2.sample then s.postBlock e.1 false else s
      if due e.2.capture then s.postBlock e.1 true else s) s)

/-! ### Commands (R113, R114, R176, R181 to R183) -/

/-- The record of CORE_STATUS (R113). DESIGN CHOICE (log 78): a slot whose recovery has been started and which has made no recovery sample
yet is not in recovery in REC_NOW; while the reserve covers the tile, REC_NOW shows the recovery of the reserve's slots, whose words the
tile delivers. -/
def State.coreRecord (s : State) (n : Nat) : Nat :=
  let c := (s.tile n).core
  let now := if s.covered n then s.core (reserveCore (groupOfTile n)) else c
  mkRec [⟨0, 0, 16, n⟩, ⟨2, 0, 16, c.ovr.n⟩, ⟨4, 0, 16, c.late.n⟩, ⟨6, 0, 1, b2n c.ovr.sat⟩, ⟨6, 1, 1, b2n c.late.sat⟩,
    ⟨6, 2, 1, b2n (s.covered n)⟩, ⟨8, 0, 32, maskOf 32 (fun i => (tget {} c.slots i).outOvr)⟩,
    ⟨12, 0, 32, maskOf 32 (fun i => 0 < (tget {} now.slots i).recov)⟩, ⟨16, 0, 64, c.lastOvr⟩, ⟨24, 0, 64, c.lastClean⟩,
    ⟨32, 0, 64, c.convCnt⟩]

def coreStatusSpec : CmdSpec :=
  { opcode := 0x0205
    names := tileNames
    read := true
    data := fun r _ => resultAt r 24 64
    refuse := fun r _ s => [beyondTile s (r.u 16 0 16), notOwner s r (r.u 16 0 16)]
    act := fun r s => reply s r 24 64 (s.coreRecord (r.u 16 0 16)) }

/-- CORE_STATUS (R113). -/
def execCoreStatus (r : Req) (s : State) : Host.Outcome State Fault Refusal := .next (coreStatusSpec.run r s)

/-- What CORE_CLEAR_COUNTS does to a tile by its selection bits (R623). -/
def Tile.clearCounts (r : Req) (t : Tile) : Tile :=
  let t := if r.b 18 0 then { t with core := { t.core with ovr := {}, lastOvr := 0 } } else t
  let t := if r.b 18 1 then { t with core := { t.core with late := {} } } else t
  let t := if r.b 18 2 then { t with force := { t.force with limitCnt := {} } } else t
  let t := if r.b 18 3 then { t with force := { t.force with foldCnt := {}, latchCnt := {} } } else t
  let t := if r.b 18 4 then { t with force := { t.force with rejCnt := {} } } else t
  let t := if r.b 18 5 then { t with seq := { t.seq with trigCnt := {}, trigMiss := {}, lateTrig := {} } } else t
  let t := if r.b 18 6 then { t with tc0 := { t.tc0 with hits := {} }, tc1 := { t.tc1 with hits := {} } } else t
  let fc := fun (c : Chain) => { c with fclamp := {}, govf := {}, lastGovf := 0 }
  let t := if r.b 18 7 then { t with c0 := fc t.c0, c1 := fc t.c1 } else t
  if r.b 19 1 then { t with cal := { t.cal with failCnt := {}, retryCnt := {}, mismatchCnt := {}, staleCnt := {} } } else t

def coreClearCountsSpec : CmdSpec :=
  { opcode := 0x0206
    names := tileNames
    refuse := fun r w s =>
      let n := r.u 16 0 16
      [beyondTile s n, (r.u 18 0 8 = 0 && r.u 19 0 2 = 0, .badParam), needs w 1, notOwner s r n,
       tileIsFenced s n, tileSealed s n, (r.b 18 7 && s.intact (s.chain1Holder n), .sealed)]
    act := fun r s =>
      let s := s.modTile (r.u 16 0 16) (·.clearCounts r)
      { st := if r.b 19 0 then { s with sync := { s.sync with miss := {} } } else s } }

/-- CORE_CLEAR_COUNTS (R114, R623). -/
def execCoreClearCounts (r : Req) (s : State) : Host.Outcome State Fault Refusal := .next (coreClearCountsSpec.run r s)

/-- A comparator is DISABLED or is being disabled by the command (R175). -/
def tcFree (r : Req) (x : Tc) : Bool := x.state = .disabled || !r.b 18 1

def tcConfigSpec : CmdSpec :=
  { opcode := 0x0306
    names := fun r => tileNames r ++ (if !r.b 18 4 && bitAt (r.u 32 0 3) 1 then [nStove (r.u 33 0 5)] else [])
    opLogged := fun r s =>
      let x := (s.tile (r.u 16 0 16)).tc (r.u 18 0 1)
      bitAt x.actions 2 || (!r.b 18 4 && bitAt (r.u 32 0 3) 2)
    refuse := fun r w s =>
      let n := r.u 16 0 16
      let x := (s.tile n).tc (r.u 18 0 1)
      let hi := r.i 20 32
      let lo := r.i 24 32
      let range := fun (v : Int) => decide (v < -131072) || decide (131071 < v)
      let full := !r.b 18 4
      let act := r.u 32 0 3
      [beyondTile s n, (range hi || range lo || decide (hi < lo) || decide (hi - lo < 2 * (r.u 28 0 16 : Int)), .badParam),
       (full && (r.u 30 0 8 = 0 || r.u 31 0 8 = 0), .badParam),
       (full && bitAt act 1 && s.nStoves ≤ r.u 33 0 5, .badParam), needs w 1, notOwner s r n,
       (full && bitAt act 2 && s.trust.protHearth ≠ some (s.tileOwner n), .rights),
       (full && bitAt act 1 && s.stoveOwner (r.u 33 0 5) ≠ s.tileOwner n, .rights), tileIsFenced s n, tileSealed s n,
       (full && !tcFree r x, .busy)]
    act := fun r s =>
      let n := r.u 16 0 16
      let c := r.u 18 0 1
      if r.b 18 4 then
        { st := s.modTc n c (fun x => { x with
            hi := r.i 20 32, lo := r.i 24 32, hyst := r.u 28 0 16, state := if x.state = .counting then .watching else x.state,
            count := if x.state = .disabled then x.count else 0,
            releaseRun := if x.state = .disabled then x.releaseRun else 0 }) }
      else
        let s := if ((s.tile n).tc c).state = .asserted && !r.b 18 1 then s.tcReleased n c else s
        let s := s.modTc n c (fun x => { x with
          state := if r.b 18 1 then .watching else .disabled, latch := r.b 18 2, disHold := r.b 18 3, slot := r.u 19 0 5,
          hi := r.i 20 32, lo := r.i 24 32, hyst := r.u 28 0 16, persist := r.u 30 0 8, release := r.u 31 0 8,
          actions := r.u 32 0 3, stove := r.u 33 0 5, count := 0, releaseRun := 0, resetPending := false })
        { st := s.tripCheck } }

/-- TC_CONFIG (R175, R181). -/
def execTcConfig (r : Req) (s : State) : Host.Outcome State Fault Refusal := .next (tcConfigSpec.run r s)

def tcResetSpec : CmdSpec :=
  { opcode := 0x0307
    names := tileNames
    opLogged := fun _ _ => true
    refuse := fun r _ s =>
      let n := r.u 16 0 16
      let x := (s.tile n).tc (r.u 18 0 1)
      [beyondTile s n, (x.state ≠ .asserted || !x.latch, .badParam), notOwner s r n, tileIsFenced s n]
    act := fun r s => { st := s.modTc (r.u 16 0 16) (r.u 18 0 1) (fun x => { x with resetPending := true }) } }

/-- TC_RESET (R182): acts at the next evaluated word. -/
def execTcReset (r : Req) (s : State) : Host.Outcome State Fault Refusal := .next (tcResetSpec.run r s)

def TcState.code : TcState → Nat
  | .disabled => 0 | .watching => 1 | .counting => 2 | .asserted => 3

/-- The record of TC_STATUS (R183). -/
def State.tcRecord (s : State) (n : Nat) : Nat :=
  let a := (s.tile n).tc0
  let b := (s.tile n).tc1
  mkRec [⟨0, 0, 16, n⟩, ⟨2, 0, 2, a.state.code⟩, ⟨2, 2, 2, b.state.code⟩, ⟨2, 4, 1, b2n a.hits.sat⟩, ⟨2, 5, 1, b2n b.hits.sat⟩,
    ⟨4, 0, 16, a.hits.n⟩, ⟨6, 0, 16, b.hits.n⟩, ⟨8, 0, 64, a.last⟩, ⟨16, 0, 64, b.last⟩, ⟨24, 0, 32, a.word.toNat⟩,
    ⟨28, 0, 32, b.word.toNat⟩, ⟨32, 0, 8, a.count⟩, ⟨33, 0, 8, b.count⟩]

def tcStatusSpec : CmdSpec :=
  { opcode := 0x0308
    names := tileNames
    read := true
    data := fun r _ => resultAt r 24 64
    refuse := fun r _ s => [beyondTile s (r.u 16 0 16), notOwner s r (r.u 16 0 16)]
    act := fun r s => reply s r 24 64 (s.tcRecord (r.u 16 0 16)) }

/-- TC_STATUS (R183). -/
def execTcStatus (r : Req) (s : State) : Host.Outcome State Fault Refusal := .next (tcStatusSpec.run r s)

end Sys2Proof.Machine
end

