-- ==== Sys2Proof/Machine/Calibration.lean ====
section
/-! DEFINITION. Self-calibration, calibration rows and reserve cores (R240 to R275, R602). -/

set_option Elab.async false

namespace Sys2Proof.Machine

/-! ### Calibration rows (R255 to R258) -/

def State.rowsOf (s : State) (d : Nat) : Rows := tget {} s.rows d
def State.modRows (s : State) (d : Nat) (f : Rows → Rows) : State := { s with rows := tmod {} s.rows d f }

/-- The row in force: the highest verified one (R258). -/
def Rows.inForce (r : Rows) : Nat := r.verified.foldl max 0

/-- What is read of a byte: the majority of each bit's three fuses (R255). -/
def FuseByte.read (f : FuseByte) : Byte := (f.a &&& f.b) ||| (f.b &&& f.c) ||| (f.a &&& f.c)
/-- The bits whose three fuses do not all agree (R274). -/
def FuseByte.split (f : FuseByte) : Nat := ones ((f.a ^^^ f.b) ||| (f.b ^^^ f.c)).toNat 8

/-- A burn of x, which only turns bits to one (R255). Complete, at most one fuse of a bit stays behind, so the read-back matches; broken off,
some of the fuses are burnt. Which ones is a free value m. -/
def FuseByte.burn (f : FuseByte) (x : Byte) (m : Nat) (complete : Bool) : FuseByte :=
  let p := BitVec.ofNat 8 m
  let q := BitVec.ofNat 8 (m / 256)
  let r := BitVec.ofNat 8 (m / 65536)
  if complete then { a := f.a ||| (x &&& ~~~(p &&& q)), b := f.b ||| (x &&& ~~~(p &&& ~~~q)), c := f.c ||| (x &&& ~~~(~~~p &&& q)) }
  else { a := f.a ||| (x &&& p), b := f.b ||| (x &&& q), c := f.c ||| (x &&& r) }

/-- The fuses of a byte of a row: row 0 as the factory burnt it, a blank row zero (R255, log 14). -/
def Rows.fuse (x : Rows) (d row i : Nat) : FuseByte :=
  match x.fuses.find? (fun e => e.1 = row) with
  | some e => e.2.getD i {}
  | none =>
    let f := fun (copy : Nat) => BitVec.ofNat 8 (Config.factoryFuse d copy i)
    if row = 0 then { a := f 0, b := f 1, c := f 2 } else {}

/-- One byte of a row as read. -/
def Rows.byte (x : Rows) (d row i : Nat) : Nat := (x.fuse d row i).read.toNat
def Rows.image (x : Rows) (d row : Nat) : List Byte := (List.range 2048).map (fun i => (x.fuse d row i).read)

/-- A row read as all zeros. -/
def Rows.blank (x : Rows) (d row : Nat) : Bool := (x.image d row).all (· = 0)

/-- The check of R258: MAGIC, ROW, FORMAT and CRC. -/
def Rows.valid (x : Rows) (d row : Nat) : Bool :=
  let img := x.image d row
  leNat (img.take 2) = 0x4B59 && x.byte d row 2 = row && x.byte d row 3 = 1 && leNat (img.drop 2044) = crc32c (img.take 2044)

/-- The burn of an image into a row, complete or broken off, with free values from a seed on. -/
def Rows.burn (x : Rows) (d row : Nat) (img : List Byte) (seed : Nat) (complete : Bool) : Rows :=
  { x with
    burning := none
    fuses := tset x.fuses row ((List.range 2048).map (fun i =>
      (x.fuse d row i).burn (img.getD i 0) (Config.freeVal (seed + i)) complete)) }

/-- A little-endian field of the row in force of a die. -/
def State.rowField (s : State) (d off n : Nat) : Nat :=
  (List.range n).foldl (fun a i => a + (s.rowsOf d).byte d (s.rowsOf d).inForce (off + i) * 256 ^ i) 0

/-- The die of a core, and its record number in a row (R256). -/
def coreDie (c : Nat) : Nat := coreGroup c / 4
def coreIndex (c : Nat) : Nat := if c < 1024 then c % 32 else 32 + (c - 1024) % 4

/-- A field of a core's record in the row in force: byte offset, low bit, width (R257). -/
def State.coreField (s : State) (c off lo w : Nat) : Nat :=
  bits (s.rowField (coreDie c) (64 + 40 * coreIndex c + off) 12) lo w

/-- The starting trims of a core (R257). -/
def State.rowTrims (s : State) (c : Nat) : Trims :=
  { offset := toI 14 (s.coreField c 0 0 14), gain := toI 14 (s.coreField c 2 0 14)
    weights := (List.range 6).map (fun j => toI 10 (s.coreField c 4 (10 * j) 10))
    pga := let l := (List.range 7).map (fun j => toI 12 (s.coreField c 12 (12 * j) 12))
           [l.getD 0 0, 0] ++ l.drop 1
    forceOffset := toI 12 (s.coreField c 28 0 12), forceGain := toI 12 (s.coreField c 30 0 12) }

/-! ### One pass (R243 to R247) -/

/-- 2^32: the results of a pass are kept in parts of it (log 42). -/
def fixOne : Int := 4294967296

/-- The sign of a chop phase or of a dither step. -/
def sgnOf (b : Bool) : Int := if b then -1 else 1

/-- A pass has the segments of R243, of 245,760 conversions in all. -/
def passShaped (p : CalPass) : Bool :=
  p.triadA.length = 256 && p.triadB.length = 256 && p.triadC.length = 256 && p.weights.length = 40192
  && p.gains.map (·.length) = 61440 :: List.replicate 7 20480

/-- A conversion with its signs: whether the chop phase is swapped, whether the dither sign is negative, the signs of the six capacitors. -/
structure CalConv where
  r : Int
  out : Bool
  c : Bool
  d : Bool
  e : Nat

/-- The conversions of a segment whose dither runs from a place of the core's generator on; in the weights segment the capacitors take six
further phases of it, disjoint from one another (R243). The chop phase alternates, the direct one first (log 42). -/
def signed (seed base : Nat) (l : List CalSample) : List CalConv :=
  (List.range l.length).zipWith (fun k x =>
    { r := x.r, out := x.out, c := k % 2 = 1, d := Config.prbs seed (base + k),
      e := maskOf 6 (fun j => Config.prbs seed (base + 40192 * (j + 1) + k)) }) l

/-- The places in the generator of the weights segment's seven sequences, then of the gain segments. -/
def gainBase (i : Nat) : Nat := 7 * 40192 + 61440 * i

/-- The sum of diff f times diff g over neighbours that are both included (R244, R245). -/
def sumDiff (f g : CalConv → Int) : List (CalConv × Bool) → Int
  | [] => 0
  | x :: rest =>
    (match rest with
      | y :: _ => if x.2 && y.2 then (f y.1 - f x.1) * (g y.1 - g x.1) else 0
      | [] => 0) + sumDiff f g rest

def sumOf (f : CalConv → Int) (l : List (CalConv × Bool)) : Int :=
  l.foldl (fun a x => if x.2 then a + f x.1 else a) 0
def inclOf (l : List (CalConv × Bool)) : Nat := (l.filter (fun x => x.2)).length

/-- mean(r) - A mean(d) over the included conversions, in parts of 2^32. -/
def meanOffset (l : List (CalConv × Bool)) : Int :=
  if inclOf l = 0 then 0
  else (sumOf (fun x => x.r) l - 16384 * sumOf (fun x => sgnOf x.d) l) * fixOne / (inclOf l : Int)

/-- The sum of diff u times diff v with u = c (r - o), in parts of 2^32. -/
def correlate (l : List (CalConv × Bool)) (o : Int) (v : CalConv → Int) : Int :=
  sumDiff (fun x => sgnOf x.c * x.r) v l * fixOne - o * sumDiff (fun x => sgnOf x.c) v l

/-- A correlation over an amplitude num/den in LSB18 and the sum of squares, in parts of 2^32. -/
def ratioOf (corr : Int) (num den : Nat) (sq : Int) : Int := if sq = 0 || num = 0 then 0 else corr * (den : Int) / ((num : Int) * sq)

/-- v = c d of R245. -/
def dithered (x : CalConv) : Int := sgnOf x.c * sgnOf x.d

/-- The exclusions of R244: the flags, then the bound of 7/8 FS, taken with the offset and the dither gain w that the unflagged
conversions give (log 42). -/
def included (l : List CalConv) : List (CalConv × Bool) :=
  let a := l.map (fun x => (x, !x.out))
  let o := meanOffset a
  let w := ratioOf (correlate a o dithered) 16384 1 (sumDiff dithered dithered a)
  a.map (fun x => (x.1, x.2 &&
    decide ((sgnOf x.1.c * (x.1.r * fixOne - o) - 16384 * w * sgnOf x.1.d).natAbs ≤ 114688 * 4294967296)))

/-- The triad check has no dither and one chop phase: the flags, and the bound of 7/8 FS on the result (log 42). -/
def triadIncluded (l : List CalSample) : List CalSample := l.filter (fun x => !x.out && x.r.natAbs ≤ 114688)

/-- The vote of R246 from the members' sums and counts and the row's values: the member used, the largest divergence in 0.01 ppm, and the
member outvoted. The ratio of two members against the row's is compared exactly. -/
def triadVote (m : List (Int × Nat)) (row : List Int) (anchor : Nat) : Option Nat × Nat × Option Nat :=
  let get := fun i => m.getD i (0, 0)
  let num := fun i j => (get i).1 * ((get j).2 : Int) * row.getD j 0
  let gap := fun i j => (num i j - num j i).natAbs
  let dev := fun i j => if num j i = 0 then 1000000000 else 100000000 * gap i j / (num j i).natAbs
  let ok := fun i j => decide (num j i ≠ 0) && decide (10000000 * gap i j ≤ anchor * (num j i).natAbs)
  let worst := max (dev 0 1) (max (dev 0 2) (dev 1 2))
  if ok 0 1 || ok 0 2 then
    (some 0, worst, if ok 0 1 && ok 0 2 then none else if ok 0 1 then some 2 else some 1)
  else if ok 1 2 then (some 1, worst, some 0)
  else (none, worst, none)

/-- The histogram of R247 over the included conversions of one dither sign: 64 bins of equal width over the range of u. -/
def histogram (l : List (CalConv × Bool)) (o : Int) (d : Bool) : List Nat :=
  let bin := fun (x : CalConv) => (clampI 0 63 ((sgnOf x.c * (x.r * fixOne - o) + 131072 * fixOne) / (4096 * fixOne))).toNat
  let hit := (l.filter (fun x => x.2 && x.1.d = d)).map (fun x => bin x.1)
  (List.range 64).map (fun b => hit.count b)

/-- code_density of R247: the running sum of the slopes at the 63 bin boundaries, the major carries, exceeds 1.0 LSB18 somewhere. -/
def densityBad (l : List (CalConv × Bool)) (o : Int) (weights : List Int) : Bool :=
  let p := histogram l o false
  let q := histogram l o true
  let inl := fun (b : Nat) => ((List.range (b + 1)).map (fun i => Config.densitySlope p q weights i)).sum
  (List.range 63).any (fun b => 4294967296 < (inl b).natAbs)

/-- The causes of R250. -/
def cDISAGREE : Nat := 1
def cANCHOR : Nat := 2
def cUSABLE : Nat := 3
def cTRIM : Nat := 4
def cDENSITY : Nat := 5
def cTRIAD : Nat := 6

/-- The input of a pass after the triad check (R244): slot 0's source while the tile converts and that source is external, a substituting
reserve with its tile; else SHORT. -/
def State.calSource (s : State) (c : Nat) : Nat :=
  let of_ := fun (n : Nat) =>
    let t := s.tile n
    let k := dSrc (t.seq.active.getD 0 0)
    if t.converting && srcExternal k then k else 3
  if c < 1024 then of_ c
  else match (s.group (c - 1024)).sched.use with
    | .substituting n => of_ n
    | _ => 3

/-- A pass over its conversions with its seed (R245): its results, the triad divergence and the member outvoted. -/
def State.runPass (s : State) (c seed : Nat) (p : CalPass) : PassResult × Nat × Option Nat :=
  let d := coreDie c
  let row := (List.range 3).map (fun i => (s.rowField d (32 + 4 * i) 4 : Int))
  let triad := [p.triadA, p.triadB, p.triadC].map triadIncluded
  let vote := triadVote (triad.map (fun l => ((l.map (·.r)).sum, l.length))) row (s.rowField d 54 2)
  let member := vote.1.getD 0
  -- the true dither amplitude in LSB18: DITHER_SCALE x the member's nV / 2^32 / 78,125 nV
  let num := s.rowField d 44 4 * (row.getD member 0).toNat
  let den := 4294967296 * 78125
  let w := included (signed seed 0 p.weights)
  let o := meanOffset w
  let vj := fun (j : Nat) (x : CalConv) => sgnOf x.c * sgnOf (bitAt x.e j)
  let weights := (List.range 6).map (fun j =>
    let sq := sumDiff (vj j) (vj j) w
    (if sq = 0 then 0 else correlate w o (vj j) / sq) - Config.nominalWeight (j + 1))
  let gs := (List.range 8).map (fun i => included (signed seed (gainBase i) (p.gains.getD i [])))
  let seg := fun (i : Nat) => gs.getD i []
  let off := fun (i : Nat) => meanOffset (seg i)
  let inc := inclOf w + (gs.map inclOf).sum + (triad.map (·.length)).sum
  let usable := decide (3 * 245760 ≤ 4 * inc)
  let cause := if vote.1.isNone then cTRIAD else if !usable then cUSABLE else if densityBad w o weights then cDENSITY else 0
  ({
     triad := member, source := s.calSource c, weights := weights
     coreGain := ratioOf (correlate w o dithered) num den (sumDiff dithered dithered w)
     offsets := (List.range 8).map (fun i => off i * 2 / (2 ^ i : Nat))
     ratios := (List.range 8).map (fun i => ratioOf (correlate (seg i) (off i) dithered) num den (sumDiff dithered dithered (seg i)))
     forceOffset := p.forceOffset, forceGain := p.forceGain
     valid := cause = 0, cause := cause }, vote.2.1, vote.2.2)

/-! ### Agreement, anchors, trims (R240, R249) -/

def pairAvg (a b : Int) : Int := (a + b) / 2
def avgList (a b : List Int) : List Int := (List.range a.length).map (fun i => pairAvg (a.getD i 0) (b.getD i 0))

/-- average(p1, p2) of R248. -/
def PassResult.average (a b : PassResult) : PassResult :=
  { a with
    weights := avgList a.weights b.weights, coreGain := pairAvg a.coreGain b.coreGain
    offsets := avgList a.offsets b.offsets, ratios := avgList a.ratios b.ratios
    forceOffset := pairAvg a.forceOffset b.forceOffset, forceGain := pairAvg a.forceGain b.forceGain }

/-- The largest difference between two lists. -/
def maxDiff (a b : List Int) : Nat :=
  (List.range a.length).foldl (fun m i => max m (a.getD i 0 - b.getD i 0).natAbs) 0

/-- agree of R249: 3 uV, 4 ppm, 0.5 LSB18, and for a tile core 5 uV and 5 ppm of the force buffer. -/
def agree (tile : Bool) (a b : PassResult) : Bool :=
  decide (maxDiff a.offsets b.offsets * 78125 ≤ 3000 * 4294967296)
  && decide (maxDiff (a.coreGain :: a.ratios) (b.coreGain :: b.ratios) * 1000000 ≤ 4 * 4294967296)
  && decide (maxDiff a.weights b.weights * 2 ≤ 4294967296)
  && (!tile || (decide ((a.forceOffset - b.forceOffset).natAbs ≤ 5 * 4294967296)
      && decide ((a.forceGain - b.forceGain).natAbs ≤ 5 * 4294967296)))

/-- A value in parts of 2^32 in steps of num/den of its unit, rounded half up. -/
def inSteps (x : Int) (num den : Nat) : Int := divHalfUp (x * (den : Int)) (num * 4294967296)

/-- The trims that a result asks for: each analogue trim moves against what was measured with the trims in force, and the fine values
take up what remains at the output, at each gain (R240, R248, log 43). The offset trim acts at the core input, after the PGA: the same
number of LSB18 at the output at every gain. Offsets come in steps of 0.25 LSB18, gains in steps of
1/409,600, capacitor weights of 0.125 LSB18, the force buffer's of 0.5 uV and 1,000/4,096 ppm. -/
def PassResult.trims (a : PassResult) (b : Trims) : Trims :=
  let dOff := inSteps (a.offsets.getD 1 0) 1 4
  let err := fun (i : Nat) => a.ratios.getD i 0 - fixOne
  let dGain := inSteps (a.coreGain - fixOne) 1 409600
  let dPga := fun (i : Nat) => if i = 1 then 0 else inSteps (err i - err 1) 1 409600
  let left2 := fun (i : Nat) => a.offsets.getD i 0 * (2 ^ i : Nat) - dOff * fixOne / 2
  let leftG := fun (i : Nat) => err i * 409600 - (dGain + dPga i) * fixOne
  { offset := b.offset - dOff, gain := b.gain - dGain
    weights := (List.range 6).map (fun j => b.weights.getD j 0 - inSteps (a.weights.getD j 0) 1 8)
    pga := (List.range 8).map (fun i => b.pga.getD i 0 - dPga i)
    fineOffset := (List.range 8).map (fun i => -(inSteps (left2 i) 1 256))
    fineGain := (List.range 8).map (fun i => -(divHalfUp (leftG i * 100000000) (409600 * 4294967296)))
    forceOffset := b.forceOffset - inSteps a.forceOffset 1 2
    forceGain := b.forceGain - inSteps a.forceGain 1000 4096 }

/-- A code of w bits in two's complement. -/
def fits (w : Nat) (x : Int) : Bool := decide (-(2 ^ (w - 1) : Nat) ≤ x) && decide (x < (2 ^ (w - 1) : Nat))

/-- Every trim within its range: 14 bits, 10, 12, then the fine ranges of 64 LSB18 and 1,000 ppm (R240). -/
def Trims.inRange (t : Trims) : Bool :=
  fits 14 t.offset && fits 14 t.gain && t.weights.all (fits 10) && t.pga.all (fits 12)
  && t.fineOffset.all (fits 16) && t.fineGain.all (fun x => decide (x.natAbs ≤ 100000))
  && fits 12 t.forceOffset && fits 12 t.forceGain

/-- |code| over the largest code, in per cent, rounded down: the largest of a core (R241). -/
def Trims.headroom (t : Trims) : Nat :=
  let of_ := fun (x : Int) (m : Nat) => min 100 (x.natAbs * 100 / m)
  let l := [of_ t.offset 8191, of_ t.gain 8191, of_ t.forceOffset 2047, of_ t.forceGain 2047]
    ++ t.weights.map (fun x => of_ x 511) ++ t.pga.map (fun x => of_ x 2047)
    ++ t.fineOffset.map (fun x => of_ x 32767) ++ t.fineGain.map (fun x => of_ x 100000)
  l.foldl max 0

/-- within_anchors of R249: what the result asks for departs from the row's starting trims by no more than the anchors; an offset at the
core input counts referred to input at each gain. -/
def State.withinAnchors (s : State) (c : Nat) (a : PassResult) (b : Trims) : Bool :=
  let row := s.rowTrims c
  let ao := s.coreField c 32 0 16
  let ag := s.coreField c 34 0 16
  let offOk := (List.range 8).all (fun i => decide ((2 * 2 ^ i * a.offsets.getD i 0 - (b.offset - row.offset) * fixOne).natAbs * 78125
    ≤ ao * 20 * 2 ^ i * 4294967296))
  let gOk := fun (x : Int) (steps : Int) =>
    decide (((x - fixOne) * 409600 - steps * fixOne).natAbs * 10000000 ≤ ag * 409600 * 4294967296)
  let gains := (List.range 8).all (fun i => gOk (a.ratios.getD i 0)
    (b.gain - row.gain + (b.pga.getD i 0 - row.pga.getD i 0)))
  let weights := (List.range 6).all (fun j =>
    decide ((8 * a.weights.getD j 0 - (b.weights.getD j 0 - row.weights.getD j 0) * fixOne).natAbs ≤ 128 * 4294967296))
  let fo := decide ((2 * a.forceOffset - (b.forceOffset - row.forceOffset) * fixOne).natAbs * 100 ≤ 8 * ao * 4294967296)
  let fg := decide ((a.forceGain * 4096 - (b.forceGain - row.forceGain) * 1000 * fixOne).natAbs * 10 ≤ ag * 4096 * 4294967296)
  offOk && gOk a.coreGain (b.gain - row.gain) && gains && weights && (decide (1024 ≤ c) || (fo && fg))

/-! ### Events of calibration (R250, R270) -/

/-- The tile that a core's events name: a reserve core is named by the first tile of its group (log 44). -/
def coreTile (c : Nat) : Nat := if c < 1024 then c else 8 * (c - 1024)
def coreSubject (c : Nat) : Nat := if c < 1024 then c else 8 * (c - 1024) + 0x80000000

/-- An event to the owner of the tile, and to the holder of chain 1 where that differs; at most one of a kind per tile in 10 ms. -/
def State.calEvent (s : State) (code c detail : Nat) (on : Bool) : State :=
  if !on then s else
    let n := coreTile c
    let h := s.tileOwner n
    let g := s.chain1Holder n
    let s := s.raiseLim (16 * c + h) code h (coreSubject c) detail
    if g = h then s else s.raiseLim (16 * c + g) code g (coreSubject c) detail

/-! ### The course of a calibration (R248) -/

/-- new_seed of R248: a free value of 31 bits that differs from the seed of the core's last pass. -/
def State.newSeed (s : State) (c : Nat) : Nat × State :=
  let v := s.free.1 % 2147483648
  (if v = (s.calCore c).lastSeed then (v + 1) % 2147483648 else v, s.free.2)

/-- A pass of a core's calibration begins, under a new seed (R248). -/
def State.nextPass (s : State) (c : Nat) (x : CalRun) : State :=
  let f := s.newSeed c
  f.2.modCal c (fun k => { k with run := some { x with seed := f.1, startedAt := s.now, startUp := s.node.up }, lastSeed := f.1 })

/-- The trims of the row in force take effect, adjusted from the temperature of the core's measurement (R242, R248). -/
def State.loadRowTrims (s : State) (c : Nat) : State :=
  let t := s.rowTrims c
  s.modCal c (fun k => { k with trims := t, base := t, refTemp := toI 16 (s.coreField c 36 0 16) })

/-- The configuration of a group that a step which begins now takes (R270). -/
def GroupCal.set (x : GroupCal) : CalSet :=
  { failSubst := x.failSubst, doneEv := x.doneEv, failEv := x.failEv, handoverEv := x.handoverEv }

/-- The configuration of a calibration of a core that begins: where the reserve covers it, that of the step it belongs to (R270). -/
def State.calSet (s : State) (c : Nat) : CalSet :=
  let x := (s.group (coreGroup c)).sched
  if x.use = .covering c then x.stepSet else x.set

/-- A calibration of a core begins; in place, its tile's words are held (R267). -/
def State.calStart (s : State) (c : Nat) (why : CalWhy) (inPlace : Bool) : State :=
  let k := s.calCore c
  let set := s.calSet c
  let s := if (s.group (coreGroup c)).sched.use = .substituting c then s.modSched (coreGroup c) (fun x => { x with stepSet := set }) else s
  (s.nextPass c { why := why, coarse := why = .powerUp, before := k.trims, was := k.state, inPlace := inPlace, set := set }).modCal c (fun k =>
    { k with stale := inPlace })

/-- A core works, and could calibrate in place: not lost, its tile not in a force mode, no calibration running. -/
def State.canCalibrate (s : State) (c : Nat) : Bool :=
  !s.coreFenced c && !s.groupFenced (coreGroup c) && !s.faults.fatal && (s.calCore c).run.isNone
  && (decide (1024 ≤ c) || (!s.tileFenced c && !(s.tile c).force.mode.forcing))

/-- Power-up calibration starts for the cores of a list that still owe it and work (R252). -/
def State.powerUpCal (s : State) (l : List Nat) : State :=
  (l.filter (fun c => !s.calUp c && !s.coreFenced c && !s.groupFenced (coreGroup c) && (decide (1024 ≤ c) || !s.tileFenced c)
    && (s.calCore c).run.isNone)).foldl (fun s c => (s.loadRowTrims c).calStart c .powerUp false) s

/-- A core that works again and still owes its power-up calibration does it, where that of its die has begun (R252, R535). -/
def State.calOwed (s : State) (c : Nat) : State :=
  if (tget {} s.node.kindle (coreDie c)).triadSettled && (s.rowsOf (coreDie c)).rowOk then s.powerUpCal [c] else s

/-- A core enters CAL_FAIL in a step of this configuration: its counter, the report and the event (R250, R270). -/
def State.calFailed (s : State) (c cause : Nat) (kept : Bool) (set : CalSet) : State :=
  let s := s.modCal c (fun k => { k with
    failCnt := k.failCnt.bump 16, cause := cause, state := if kept then 3 else 2, failSubst := set.failSubst })
  let s := s.report 0x02 (coreInst c) cause
  s.calEvent 0x0502 c cause set.failEv

/-- The gauges that a successful calibration of a core updates (R570). -/
def State.calGauges (s : State) (c drift : Nat) : State :=
  let d := coreDie c
  let s := s.modAge d (fun a => { a with drift := tset a.drift (coreIndex c) drift })
  let worst := (dieCores d).foldl (fun (m x : Nat) =>
    max m (tget 0 (s.dieAge d).drift (coreIndex x) * (s.group (coreGroup x)).sched.rollPeriod)) 0
  let head := (dieCores d).foldl (fun (m x : Nat) => max m (s.calCore x).headroom) 0
  s.gaugesOfCal d worst (s.rowField d 54 2) head

/-- The drift of the offset at G = 1 since the last successful calibration, in nV per hour (R569). -/
def CalCore.driftOf (k : CalCore) (a : PassResult) (now : Nat) : Nat :=
  if k.lastCal = 0 || now ≤ k.lastCal then 0
  else
    let nv := ((a.offsets.getD 1 0 * 512 + k.trims.fineOffset.getD 1 0 * fixOne) * 78125).natAbs / (512 * 4294967296)
    nv * 3600000000000 / (now - k.lastCal)

/-- New trims in force after agreement: calibrated. -/
def State.calApply (s : State) (c : Nat) (x : CalRun) (a : PassResult) (t : Trims) : State :=
  let drift := (s.calCore c).driftOf a s.now
  let temp := tget 2500 s.node.temp (coreDie c)
  let s := s.modCal c (fun k => { k with
    trims := t, base := t, state := 1, attempts := x.attempt, lastCal := s.stamp, calTemp := temp, refTemp := temp,
    rowPending := false, headroom := t.headroom, handFails := if x.inPlace then 0 else k.handFails })
  let s := s.calEvent 0x0501 c x.attempt x.set.doneEv
  s.calGauges c drift

/-- Hand-back begins: the tile core converts beside the reserve (R262, step 5). -/
def State.handBack (s : State) (n : Nat) : State :=
  s.setUse (groupOfTile n) (.handingBack n)

/-- A calibration has ended, in success or not: words of the core's own come again with a recovery; a core that is covered hands back,
unless CAL_SUBST or a fence holds the reserve on it (a hand-back by CAL_SUBST goes on); CAL_RUN completes. -/
def State.calEnd (s : State) (c : Nat) (x : CalRun) (ok : Bool) : State :=
  let s := s.modCal c (fun k => { k with run := none, stale := false })
  let s := if c < 1024 && (x.why = .powerUp || x.inPlace) then s.recoverTile c else s
  let g := coreGroup c
  let s := match (s.group g).sched.use with
    | .covering n => if n = c && ((s.group g).sched.purpose ≠ DemandKind.manual || (s.findOp 0x0506 c).isSome) then s.handBack c else s
    | .substituting n => if n = c && !s.coreFenced c && ok then s.handBack c else s
    | .calibrating => if c = 1024 + g then s.setUse g .free else s
    | _ => s
  s.endOp 0x0502 c (if ok then .ok else .calDisagree) 0

/-- A fenced core cannot end its calibration: FAIL_SUBST is a reaction of the fault manager to CAL_FAIL (R250, R516). -/
def State.calFail (s : State) (c : Nat) (x : CalRun) (cause : Nat) : State :=
  let kept := (s.calCore c).lastCal ≠ 0
  let s := if kept then s.modCal c (fun k => { k with trims := x.before }) else s.loadRowTrims c
  let s := s.modCal c (fun k => { k with attempts := x.attempt, headroom := k.trims.headroom })
  (s.calFailed c cause kept x.set).calEnd c x false

/-- COARSE_SEARCH_DONE: the coarse search of power-up has set the analogue trims of a core (R251). -/
def execCoarseSearchDone (c : Nat) (offset gain : Int) (weights pga : List Int) (done : CoarseEnd) (s : State) :
    Host.Outcome State Fault Refusal :=
  match (s.calCore c).run with
  | none => .next s
  | some x =>
    if !x.coarse then .next s
    else
      let t : Trims := {
        offset := offset, gain := gain, weights := weights, pga := pga, forceOffset := done.forceOffset, forceGain := done.forceGain }
      let s := s.converted c (min done.conversions 40960) done.forced
      .next (s.modCal c (fun k => { k with
        trims := if t.inRange then t else k.trims, run := some { x with coarse := false, startedAt := s.now, startUp := s.node.up } }))

/-- CAL_PASS_DONE: the 12 ms of a pass are over; after two passes they agree and apply, or another attempt begins, or the
calibration fails (R243, R248). A list of conversions that is no pass of R243 is none. -/
def execCalPassDone (c : Nat) (p : CalPass) (s : State) : Host.Outcome State Fault Refusal :=
  match (s.calCore c).run with
  | none => .next s
  | some x =>
    if x.coarse || s.now < x.startedAt + 12000000 || !passShaped p then .next s
    else
      let out := s.runPass c x.seed p
      let s := s.converted c 245760 p.forced
      let s := s.triadCheck (coreDie c) out.2.1 out.2.2
      let passes := x.passes ++ [out.1]
      match passes with
      | [p1, p2] =>
        let a := p1.average p2
        let t := a.trims (s.calCore c).trims
        let sat := fun (n : Nat) => min n 65535
        let s := s.modCal c (fun k => { k with
          diffOffset := sat (maxDiff p1.offsets p2.offsets * 7812500 / (1000 * 4294967296))
          diffGain := sat (maxDiff (p1.coreGain :: p1.ratios) (p2.coreGain :: p2.ratios) * 100000000 / 4294967296)
          diffWeight := sat (maxDiff p1.weights p2.weights * 64 / 4294967296) })
        let cause :=
          if !p1.valid then p1.cause else if !p2.valid then p2.cause
          else if !agree (c < 1024) p1 p2 then cDISAGREE
          else if !s.withinAnchors c a (s.calCore c).trims then cANCHOR
          else if !t.inRange then cTRIM
          else 0
        if cause = 0 then .next ((s.calApply c x a t).calEnd c x true).checkReady
        else
          let s := s.modCal c (fun k => { k with retryCnt := k.retryCnt.bump 16, cause := cause })
          if 4 ≤ x.attempt then .next (s.calFail c x cause).checkReady
          else .next (s.nextPass c { x with attempt := x.attempt + 1, passes := [] })
      | _ => .next (s.nextPass c { x with passes := passes })

/-- TRIAD_SETTLED: 200 ms after a die is kindled its triad has settled, and power-up calibration of its cores starts (R252). With no
valid row in force every core of the die is in CAL_FAIL with cause TRIAD instead (R258). -/
def execTriadSettled (die : Nat) (s : State) : Host.Outcome State Fault Refusal :=
  if s.node.dies ≤ die then .fault (.absentUnit "die" die)
  else
    let k := tget {} s.node.kindle die
    let due := match k.start with
      | some t => decide (t + 200000000 ≤ s.node.up / 64)
      | none => false
    if !due || k.triadSettled || !k.kindled || s.dieFenced die then .next s
    else
      let s := s.modKindle die (fun k => { k with triadSettled := true })
      if (s.rowsOf die).rowOk then
        .next (s.powerUpCal (dieCores die))
      else .next ((dieCores die).foldl (fun s c => s.calFailed c cTRIAD false (s.calSet c)) s).checkReady

/-- The reserve of a group substitutes: rolling steps are passed over (R266). -/
def State.substitutes (s : State) (g : Nat) : Bool :=
  match (s.group g).sched.use with
  | .substituting _ => true
  | _ => false

/-- TEMP_COMPENSATION: every 10 ms the fine values of a die's cores follow its temperature, in 0.01 K, held at the ends of their ranges
(R242, log 17). -/
def execTempCompensation (die : Nat) (temp : Int) (s : State) : Host.Outcome State Fault Refusal :=
  if s.node.dies ≤ die then .fault (.absentUnit "die" die)
  else if s.node.inReset || s.dieFenced die || s.now < tget 0 s.node.compAt die + 10000000 then .next s
  else
    let s := { s with node := { s.node with temp := tset s.node.temp die temp, compAt := tset s.node.compAt die s.now } }
    let adjust := fun (s : State) (c : Nat) =>
      let tcO := toI 16 (s.coreField c 24 0 16)
      let tcG := toI 16 (s.coreField c 26 0 16)
      s.modCal c (fun k =>
        let dt := temp - k.refTemp
        if k.state = 0 then k else { k with trims := { k.trims with
          fineOffset := (List.range 8).map (fun i => clampI (-32768) 32767
            (k.base.fineOffset.getD i 0 - divHalfUp (tcO * dt * (2 ^ i : Nat) * 512) (2 * 100 * 78125)))
          fineGain := (List.range 8).map (fun i => clampI (-100000) 100000
            (k.base.fineGain.getD i 0 - divHalfUp (tcG * dt) 1000)) } })
    let s := (dieCores die).foldl adjust s
    -- a tile whose temperature has moved by more than TEMP_STEP is queued for a rolling step (R264)
    .next ((dieTiles die).foldl (fun (s : State) n =>
      let g := (s.group (groupOfTile n)).sched
      let k := s.calCore n
      if g.tempStep ≠ 0 && g.rollPeriod ≠ 0 && k.lastCal ≠ 0 && decide (50 * g.tempStep < (temp - k.calTemp).natAbs)
          && !g.demands.contains (.rolling, n) && k.run.isNone && !s.substitutes (groupOfTile n) then
        s.modSched (groupOfTile n) (fun x => { x with demands := x.demands ++ [(.rolling, n)] })
      else s) s)

/-! ### The reserve core (R262 to R267) -/

/-- A core does its work: neither fenced nor lost with its group or die. -/
def State.coreDown (s : State) (c : Nat) : Bool := s.coreFenced c || s.groupFenced (coreGroup c) || s.faults.fatal

/-- The order of R263: the reserve's own place in the rotation comes last. -/
def demandRank (d : DemandKind × Nat) : Nat :=
  match d.1 with
  | .fault => 0 | .onDemand => 1 | .newRow => 1 | .manual => 1 | .rolling => if d.2 < 1024 then 2 else 3

/-- The first demand in that order. -/
def firstDemand : List (DemandKind × Nat) → Option (DemandKind × Nat)
  | [] => none
  | x :: t =>
    match firstDemand t with
    | none => some x
    | some y => if demandRank y < demandRank x then some y else some x

def DemandKind.why : DemandKind → CalWhy
  | .rolling => .rolling | .newRow => .newRow | .fault => .cleared | .onDemand => .onDemand | .manual => .onDemand

/-- The reserve begins to track a tile: its slots recover (R96, R262, step 1). -/
def State.track (s : State) (g n : Nat) (k : DemandKind) : State :=
  ((s.setUse g (.tracking n)).modSched g (fun x => { x with purpose := k, stepSet := x.set })).reserveRecovers g (List.range (s.tile n).seq.active.length)

/-- The reserve is the substitute of a tile: the rolling steps that wait are passed over (R265, R266). -/
def State.standIn (s : State) (g n : Nat) : State :=
  (s.setUse g (.substituting n)).modSched g (fun x => { x with
    purpose := .fault, demands := x.demands.filter (fun e => e.1 ≠ DemandKind.rolling) })

/-- The reserve takes a fenced core's tile up at once: the words recover, and what was lost shows as GAP (R265). -/
def State.substitute (s : State) (g n : Nat) : State := (s.standIn g n).recoverTile n

/-- The reserve cannot be had for a calibration of another tile: substituting, fenced, or held by CAL_SUBST (R266, R275). -/
def State.reserveGone (s : State) (g : Nat) : Bool :=
  s.coreDown (1024 + g) || (match (s.group g).sched.use with
    | .substituting _ => true
    | .covering _ => (s.group g).sched.purpose = DemandKind.manual
    | _ => false)

/-- An on-demand calibration with no reserve to be had: in place, unless the reserve covers the tile already; a CAL_RUN with NO_STALE ends
with BUSY (R266, R267). -/
def State.calAlone (s : State) (k : DemandKind) (c : Nat) : State :=
  match s.findOp 0x0502 c with
  | some o => if o.req.b 18 1 && !s.covered c then s.endOp 0x0502 c .busy 0 else s.calStart c k.why (!s.covered c)
  | none => s.calStart c k.why (!s.covered c)

/-- One demand served by a free reserve. -/
def State.serve (s : State) (g : Nat) (k : DemandKind) (c : Nat) : State :=
  let s := s.modSched g (fun x => { x with demands := x.demands.erase (k, c) })
  match k with
  | .fault => if s.coreFenced c && !s.tileFenced c then s.substitute g c else s
  | .manual => if (s.tile c).force.mode = .force then s.endOp 0x0506 c .combination 0 else s.track g c .manual
  | _ =>
    if 1024 ≤ c then ((s.calStart c k.why false).setUse g .calibrating).modSched g (fun x => { x with purpose := k })
    else if !s.canCalibrate c then if k = .onDemand then s.endOp 0x0502 c .combination 0 else s
    else if (s.tile c).force.mode = .acq then s.track g c k
    else s.calStart c k.why true

/-- A core of a group calibrates; one does so as, or in, a rolling step (R264). -/
def State.groupRuns (s : State) (g : Nat) (p : CalWhy → Bool) : Bool :=
  ((1024 + g) :: groupTiles g).any (fun c => match (s.calCore c).run with
    | some x => p x.why
    | none => false)
def State.rollingNow (s : State) (g : Nat) : Bool :=
  (decide ((s.group g).sched.use ≠ .free) && (s.group g).sched.purpose = DemandKind.rolling && !s.substitutes g)
  || s.groupRuns g (fun w => w = .rolling)

/-- A demand that can be served: what a new row asks of a tile waits while that forces or is fenced (R141, R260); a substitution while its
tile is fenced as a whole (R522, R535); a rolling step, of which a group has one at a time, until no other calibration of the group runs
(R264); an on-demand calibration while a rolling step is in progress (R266). -/
def State.servable (s : State) (g : Nat) (e : DemandKind × Nat) : Bool :=
  match e.1 with
  | .fault => s.coreFenced e.2 && !s.tileFenced e.2
  | .rolling => !s.groupRuns g (fun w => w ≠ .powerUp)
  | .newRow => !s.rollingNow g && s.canCalibrate e.2
  | _ => !s.rollingNow g

/-- The substitutions that wait, in the order in which the cores were fenced (R263). -/
def State.faultsFirst (s : State) (l : List (DemandKind × Nat)) : List (DemandKind × Nat) :=
  ((s.faults.fencedCores.reverse.map (fun n => (DemandKind.fault, n))).filter l.contains) ++ l.filter (fun e => e.1 ≠ DemandKind.fault)

/-- A free reserve serves the first demand that waits (R263). Where it cannot be had, the on-demand calibrations run in place (R266). A
reserve that calibrates is not free. -/
def State.serveNext (s : State) (g : Nat) : State :=
  let x := (s.group g).sched
  if s.reserveGone g then
    let now := fun (e : DemandKind × Nat) => (e.1 = .onDemand || e.1 = .newRow) && decide (e.2 < 1024) && s.canCalibrate e.2
    (x.demands.filter now).foldl (fun (s : State) e => s.calAlone e.1 e.2)
      (s.modSched g (fun x => { x with demands := x.demands.filter (fun e => !now e) }))
  else if x.use ≠ .free || (s.calCore (1024 + g)).run.isSome then s
  else match firstDemand (s.faultsFirst (x.demands.filter (s.servable g))) with
    | none => s
    | some d => s.serve g d.1 d.2

/-- FAULT_SUBSTITUTION: the reserve of a group is free for a waiting demand (R263, R265). -/
def execFaultSubstitution (g : Nat) (s : State) : Host.Outcome State Fault Refusal :=
  if s.nGroups ≤ g then .fault (.absentUnit "group" g)
  else if s.node.inReset then .next s
  else .next (s.serveNext g)

/-- The next word of every slot of tile n carries GAP, and its chains start afresh (R224, R266). -/
def State.gapNext (s : State) (n : Nat) : State :=
  let l := (s.tile n).seq.active
  (List.range l.length).foldl (fun (s : State) i =>
    let d := l.getD i 0
    let s := s.modCore n (fun x => { x with slots := tmod {} x.slots i (fun z => { z with lost := true }) })
    let s := if dRaw d then s.modStream (streamKey s.ring.nodeNo n i kRaw 0) (fun z => { z with gapDue := true }) else s
    [0, 1].foldl (fun (s : State) c =>
      if dChain d c then
        (s.modChain n c (fun z => z.modCtx i (fun x => { x with gapOut := true }))).modStream (streamKey s.ring.nodeNo n i c 0)
          (fun z => { z with gapDue := true })
      else s) s) s

/-- The reserve leaves tile m in the middle of its calibration: the core restores its trims and resumes; for a time of at most 5 us, which
is a free value, its words are lost; the next carries GAP and starts a recovery (R266). A CAL_SUBST ends likewise (R275). -/
def State.coverCut (s : State) (m : Nat) : State :=
  let s := (s.calAbort m).endOp 0x0506 m .calDisagree 0
  let f := s.free
  ((f.2.modCore m (fun x => { x with resumeAt := s.node.clock + f.1 % 320001 })).gapNext m).recoverTile m

/-- Tracking of tile m ends with no effect on it: an on-demand calibration waits again, a rolling step is not run twice, a CAL_SUBST ends
(R264, R266, R275). -/
def State.trackCut (s : State) (g m : Nat) : State :=
  let k := (s.group g).sched.purpose
  let s := s.setUse g .free
  match k with
  | .onDemand | .newRow => s.modSched g (fun x => { x with demands := (k, m) :: x.demands })
  | _ => s.endOp 0x0506 m .calDisagree 0

/-- The substitution of a tile waits for its reserve (R263). -/
def State.faultDemand (s : State) (g n : Nat) : State :=
  s.modSched g (fun x => { x with demands := if x.demands.contains (.fault, n) then x.demands else x.demands ++ [(.fault, n)] })

/-- A tile core has been fenced: its calibrations end; what the reserve was doing decides (R265, R266). -/
def State.coreLost (s : State) (n : Nat) : State :=
  let g := groupOfTile n
  let s := s.calAbort n
  let s := s.modCal n (fun k => { k with stale := false })
  let s := (s.modSched g (fun x => { x with demands := x.demands.filter (· ≠ (.onDemand, n)) })).endOp 0x0502 n .calDisagree 0
  let wait := fun (s : State) => s.faultDemand g n
  let stay := fun (s : State) => s.standIn g n
  let s :=
    if s.coreDown (1024 + g) || s.tileFenced n then wait s
    else match (s.group g).sched.use with
      | .covering m => if m = n then stay s else (s.coverCut m).substitute g n
      | .handingBack m => if m = n then stay (s.endOp 0x0506 n .ok 0) else ((s.recoverTile m).endOp 0x0506 m .ok 0).substitute g n
      | .tracking m => if m = n then ((s.setUse g .free).endOp 0x0506 n .calDisagree 0).substitute g n else (s.trackCut g m).substitute g n
      | .substituting m => if m = n then s else wait s
      | .calibrating => (s.calAbort (1024 + g)).substitute g n
      | .free => if (s.calCore (1024 + g)).run.isSome then wait s else s.substitute g n
  s.serveNext g

/-- The reserve core of a group has been fenced: what it carried loses its words, and on-demand calibrations run in place (R266). -/
def State.reserveLost (s : State) (g : Nat) : State :=
  let s := s.calAbort (1024 + g)
  let s := (s.modSched g (fun x => { x with demands := x.demands.filter (· ≠ (.onDemand, 1024 + g)) })).endOp 0x0502 (1024 + g) .calDisagree 0
  let s := match (s.group g).sched.use with
    | .substituting n => (s.setUse g .free).faultDemand g n
    | .covering n => (s.coverCut n).setUse g .free
    | .handingBack n => ((s.recoverTile n).endOp 0x0506 n .ok 0).setUse g .free
    | .tracking n => s.trackCut g n
    | _ => s.setUse g .free
  s.serveNext g

/-- A core's fence has been cleared: it calibrates, under the reserve where that covers its tile, else in place; a core whose power-up
calibration is still owed does that (R253, R535). -/
def State.coreBack (s : State) (c : Nat) : State :=
  let g := coreGroup c
  let s := s.modSched g (fun x => { x with demands := x.demands.filter (fun e => e ≠ (DemandKind.fault, c)) })
  if !s.calUp c then s.calOwed c
  else
    let s := s.calStart c .cleared (decide (c < 1024) && (s.group g).sched.use ≠ .substituting c)
    if 1024 ≤ c && (s.group g).sched.use = .free then (s.setUse g .calibrating).modSched g (fun x => { x with purpose := .onDemand }) else s

/-- The match of step 2 of R262 over the last 32 conversions of a slot: mean within 2 LSB18, rms within 8. -/
def matchOk (l : List Int) : Bool :=
  decide ((l.foldl (· + ·) 0).natAbs ≤ 64) && decide (l.foldl (fun a x => a + x * x) 0 ≤ 2048)

/-- Every active slot of a tile has 64 conversions made alongside. -/
def State.trackedAll (s : State) (g n : Nat) : Bool :=
  (List.range (s.tile n).seq.active.length).all (fun i => decide (64 ≤ tget 0 (s.group g).sched.tracked i))
def State.matches (s : State) (g n : Nat) : Bool :=
  (List.range (s.tile n).seq.active.length).all (fun i => matchOk (tget [] (s.group g).sched.diffs i))

/-- TRACKING_DONE: every active slot has 64 reserve conversions; the reserve takes over, or the handover ends (R262, steps 2 and 3). -/
def execTrackingDone (g : Nat) (s : State) : Host.Outcome State Fault Refusal :=
  if s.nGroups ≤ g then .fault (.absentUnit "group" g)
  else match (s.group g).sched.use with
    | .tracking n =>
      let k := (s.group g).sched.purpose
      if !s.trackedAll g n then .next s
      else if s.matches g n then
        let s := s.setUse g (.covering n)
        let s := s.calEvent 0x0503 n 0 (s.group g).sched.stepSet.handoverEv
        if k = DemandKind.manual then .next (s.endOp 0x0506 n .ok 0) else .next (s.calStart n k.why false)
      else
        let s := s.modCal n (fun x => { x with mismatchCnt := x.mismatchCnt.bump 16 })
        let s := s.setUse g .free
        .next ((s.endOp 0x0502 n .calDisagree 0).endOp 0x0506 n .calDisagree 0)
    | _ => .next s

/-- HAND_BACK_DONE: every active slot has 64 conversions of the tile core; it resumes, or it calibrates again, or after two failures
in a row it enters CAL_FAIL and delivers its own words (R250, R262, step 5, log 46). -/
def execHandBackDone (g : Nat) (s : State) : Host.Outcome State Fault Refusal :=
  if s.nGroups ≤ g then .fault (.absentUnit "group" g)
  else match (s.group g).sched.use with
    | .handingBack n =>
      if !s.trackedAll g n then .next s
      else if s.matches g n then
        let s := s.setUse g .free
        let s := s.modCal n (fun x => { x with handFails := 0 })
        let s := s.calEvent 0x0504 n 0 (s.group g).sched.stepSet.handoverEv
        .next ((s.endOp 0x0506 n .ok 0).serveNext g)
      else
        let fails := (s.calCore n).handFails + 1
        if 2 ≤ fails then
          let s := s.setUse g .free
          let s := s.modCal n (fun x => { x with handFails := 0 })
          let s := s.calFailed n (s.calCore n).cause ((s.calCore n).lastCal ≠ 0) (s.group g).sched.stepSet
          let s := s.calEvent 0x0504 n 0 (s.group g).sched.stepSet.handoverEv
          .next ((s.endOp 0x0506 n .calDisagree 0).serveNext g)
        else
          let s := s.setUse g (.covering n)
          .next ((s.modCal n (fun x => { x with handFails := fails })).calStart n .onDemand false)
    | _ => .next s

/-- HANDOVER_TIMEOUT: the tracking of a calibration step has not ended 10 s after the step started (R602). -/
def execHandoverTimeout (g : Nat) (s : State) : Host.Outcome State Fault Refusal :=
  if s.nGroups ≤ g then .fault (.absentUnit "group" g)
  else
    let x := (s.group g).sched
    match x.use with
    | .tracking n =>
      if x.purpose = DemandKind.manual || s.now < x.started + 10000000000 then .next s
      else
        .next ((s.setUse g .free).endOp 0x0502 n .timeout 0)
    | _ => .next s

/-- The effective ROLL_PERIOD of a group in seconds: the smaller of CAL_CONFIG's and the plan's; 0 stops (R264, R578). -/
def State.rollPeriod (s : State) (g : Nat) : Nat :=
  let own := (s.group g).sched.rollPeriod
  let plan := tget 0 (s.dieAge (g / 4)).roll (g % 4)
  if own = 0 || plan = 0 then own else min own plan

/-- The core at a place of the rotation of a group. -/
def rotationCore (g i : Nat) : Nat := if i < 8 then 8 * g + i else 1024 + g

/-- The time of a group's next rolling step (R264). -/
def State.rollDue (s : State) (g : Nat) : Nat := max (s.group g).sched.nextRoll (g * s.rollPeriod g * 1000000000 / 288)

/-- The rolling step of a core is passed over: the reserve substitutes, the core's tile forces or is lost, its power-up calibration is
still owed, or its last step still waits (R141, R264, R266). -/
def State.rollPasses (s : State) (g c : Nat) : Bool :=
  let x := (s.group g).sched
  s.substitutes g || !s.calUp c || x.demands.contains (.rolling, c)
  || (decide (c < 1024) && ((s.tile c).force.mode.forcing || s.tileFenced c || s.coreFenced c))

/-- ROLLING_STEP: the timer of a group starts the step of its next core; the rotation moves on, and steps that were missed are not made up
for (R264). -/
def execRollingStep (g : Nat) (s : State) : Host.Outcome State Fault Refusal :=
  if s.nGroups ≤ g then .fault (.absentUnit "group" g)
  else
    let step := s.rollPeriod g * 1000000000 / 9
    let due := s.rollDue g
    let c := rotationCore g (s.group g).sched.rotation
    if s.node.inReset || s.rollPeriod g = 0 || s.now < due || s.coreDown (1024 + g) then .next s
    else
      let passes := s.rollPasses g c
      let s := s.modSched g (fun x => { x with
        nextRoll := due + ((s.now - due) / step + 1) * step, rotation := (x.rotation + 1) % 9 })
      if passes then .next s
      else .next ((s.modSched g (fun x => { x with demands := x.demands ++ [(.rolling, c)] })).serveNext g)

/-! ### Commands (R269 to R275) -/

def maskGroups (s : State) (r : Req) : List Nat := (List.range s.nGroups).filter (fun g => r.b (16 + g / 8) (g % 8))

def calConfigSpec : CmdSpec :=
  { opcode := 0x0501
    opLogged := fun _ _ => true
    names := fun r => (List.range 32).flatMap (fun g => if r.b (16 + g / 8) (g % 8) then (groupTiles g).map nTile else [])
    refuse := fun r w s =>
      let p := r.u 20 0 16
      let t := r.u 22 0 8
      [(r.u 16 0 32 / 2 ^ s.nGroups ≠ 0 || (p ≠ 0 && (p < 10 || 3600 < p)) || (t ≠ 0 && (t < 2 || 40 < t)), .badParam),
       needs w 1, (r.fn ≠ 0 && (maskGroups s r).any (fun g => (groupTiles g).any (fun n => s.tileOwner n ≠ r.fn - 1)), .rights),
       ((maskGroups s r).any (fun g => (groupTiles g).any (fun n => s.intact (s.chain1Holder n))), .sealed)]
    act := fun r s =>
      { st := (maskGroups s r).foldl (fun (s : State) g => s.modSched g (fun x => { x with
          rollPeriod := r.u 20 0 16, tempStep := r.u 22 0 8, failSubst := r.b 23 0, doneEv := r.b 23 1, failEv := r.b 23 2,
          handoverEv := r.b 23 3 })) s } }

/-- CAL_CONFIG (R270). -/
def execCalConfig (r : Req) (s : State) : Host.Outcome State Fault Refusal := .next (calConfigSpec.run r s)

/-- The core a CAL_RUN or CAL_STATUS names. -/
def calTarget (r : Req) : Nat := if r.b 18 0 then 1024 + groupOfTile (r.u 16 0 16) else r.u 16 0 16

/-- A calibration of a core is queued (R272). -/
def State.calQueued (s : State) (c : Nat) : Bool :=
  (s.group (coreGroup c)).sched.demands.any (fun e => e.2 = c && e.1 ≠ .fault && e.1 ≠ DemandKind.manual)
  || (match (s.group (coreGroup c)).sched.use with
    | .tracking n => n = c && (s.group (coreGroup c)).sched.purpose ≠ DemandKind.manual
    | _ => false)

/-- The reserve cannot be had for an on-demand calibration of tile n; one that covers it already is there (R266). -/
def State.noReserve (s : State) (n : Nat) : Bool := s.reserveGone (groupOfTile n) && !(s.group (groupOfTile n)).sched.use = .covering n

/-- Power-up calibration is in progress on a die (R254). A core that is lost to a fence calibrates when the fence is cleared. -/
def State.dieCalibrating (s : State) (d : Nat) : Bool :=
  (dieCores d).any (fun c => !s.calUp c && !s.coreDown c && (decide (1024 ≤ c) || !s.tileFenced c))

def calRunSpec : CmdSpec :=
  { opcode := 0x0502
    names := fun r => nNode (16 + groupOfTile (r.u 16 0 16)) :: tileNames r
    refuse := fun r w s =>
      let n := r.u 16 0 16
      let c := calTarget r
      [beyondTile s n, (r.b 18 0 && w ≠ 1, .rights), notOwner s r n,
       (!r.b 18 0 && (s.tile n).force.mode.forcing, .combination), (s.coreDown c || (c < 1024 && s.tileFenced c), .fenced),
       (s.dieCalibrating (dieOfTile n) || (s.calCore c).run.isSome || s.calQueued c
        || (r.b 18 1 && decide (c < 1024) && s.noReserve n), .busy)]
    act := fun r s =>
      let n := r.u 16 0 16
      let c := calTarget r
      let g := groupOfTile n
      let s := s.startOp (opMark 0x0502) c r 0 0
      let st :=
        if c < 1024 && (s.group g).sched.use = .covering n then s.calStart c .onDemand false
        else if c < 1024 && (s.tile n).force.mode = .off && !s.rollingNow g then s.calStart c .onDemand true
        else (s.modSched g (fun x => { x with demands := x.demands ++ [(.onDemand, c)] })).serveNext g
      { st := st, late := true } }

/-- CAL_RUN (R271). -/
def execCalRun (r : Req) (s : State) : Host.Outcome State Fault Refusal := .next (calRunSpec.run r s)

/-- STATE of R272. -/
def State.calState (s : State) (c : Nat) : Nat :=
  let k := s.calCore c
  if k.state = 0 then 0 else if k.run.isSome then 4 else if s.calQueued c then 5 else k.state

/-- The record of CAL_STATUS (R272). -/
def State.calRecord (s : State) (n c : Nat) : Nat :=
  let k := s.calCore c
  let g := coreGroup c
  let x := (s.group g).sched
  let p := s.rollPeriod g
  let i := if c < 1024 then c % 8 else 8
  let steps := (i + 9 - x.rotation) % 9
  let next := if p = 0 || s.coreDown (1024 + g) then 0 else s.rollDue g + steps * (p * 1000000000 / 9)
  let pack := (List.range 6).foldl (fun a j => a + toU 10 (k.trims.weights.getD j 0) * 2 ^ (10 * j)) 0
  mkRec [⟨0, 0, 16, n⟩, ⟨2, 0, 3, s.calState c⟩, ⟨2, 3, 1, b2n (decide (c < 1024) && s.covered c)⟩, ⟨2, 4, 1, b2n k.rowPending⟩,
    ⟨2, 5, 1, b2n (k.stale || k.state = 0)⟩, ⟨3, 0, 3, k.attempts⟩, ⟨4, 0, 8, (s.rowsOf (coreDie c)).inForce⟩, ⟨5, 0, 8, k.cause⟩,
    ⟨6, 0, 16, k.failCnt.n⟩, ⟨8, 0, 16, k.retryCnt.n⟩, ⟨10, 0, 16, k.mismatchCnt.n⟩, ⟨12, 0, 16, k.staleCnt.n / 1024⟩,
    ⟨14, 0, 1, b2n k.failCnt.sat⟩, ⟨14, 1, 1, b2n k.retryCnt.sat⟩, ⟨14, 2, 1, b2n k.mismatchCnt.sat⟩,
    ⟨14, 3, 1, b2n k.staleCnt.sat⟩, ⟨15, 0, 8, k.headroom⟩, ⟨16, 0, 64, k.lastCal⟩, ⟨24, 0, 16, toU 16 k.trims.offset⟩,
    ⟨26, 0, 16, toU 16 k.trims.gain⟩, ⟨28, 0, 60, pack⟩, ⟨36, 0, 16, toU 16 k.calTemp⟩, ⟨38, 0, 16, k.diffOffset⟩,
    ⟨40, 0, 16, k.diffGain⟩, ⟨42, 0, 16, k.diffWeight⟩, ⟨44, 0, 16, p⟩, ⟨48, 0, 64, next⟩]

def calStatusSpec : CmdSpec :=
  { opcode := 0x0503
    names := tileNames
    read := true
    data := fun r _ => resultAt r 24 64
    refuse := fun r _ s => [beyondTile s (r.u 16 0 16), notOwner s r (r.u 16 0 16)]
    act := fun r s => reply s r 24 64 (s.calRecord (r.u 16 0 16) (calTarget r)) }

/-- CAL_STATUS (R272). -/
def execCalStatus (r : Req) (s : State) : Host.Outcome State Fault Refusal := .next (calStatusSpec.run r s)

/-- A tile of a die is in, or has chain 1 held by, a hearth whose seal is INTACT. -/
def State.dieSealed (s : State) (d : Nat) : Bool :=
  (dieTiles d).any (fun n => s.intact (s.tileOwner n) || s.intact (s.chain1Holder n))

def calRowBurnSpec : CmdSpec :=
  { opcode := 0x0504
    names := fun r => nNode 9 :: rowNames r
    opLogged := fun _ _ => true
    endLogged := true
    data := fun r s =>
      if (s.rowsOf (r.u 16 0 3)).attempted.contains 15 then [] else [{ addr := r.u 24 0 64, len := 2048, wr := false, align := 64 }]
    refuse := fun r w s =>
      let d := r.u 16 0 3
      let row := r.u 17 0 4
      let x := s.rowsOf d
      let img := s.dataBytes r (r.u 24 0 64) 2048
      let f := fun (i n : Nat) => leNat ((img.drop i).take n)
      let spent := x.attempted.contains 15
      [(spent && decide (d < s.node.dies), .rowExhausted),
       (!spent && (decide (s.node.dies ≤ d) || decide (row ≤ x.inForce) || f 0 2 ≠ 0x4B59
          || f 2 1 ≠ row || f 2044 4 ≠ r.u 20 0 32 || f 2044 4 ≠ crc32c (img.take 2044)), .badParam),
       (!spent && (if row = 0 then w ≠ 2 else w ≠ 1), .rights), (!spent && s.dieSealed d, .sealed),
       (!spent && (s.dieCalibrating d || (List.range 8).any (fun k => (s.rowsOf k).burning.isSome)), .busy),
       (!spent && (x.attempted.contains row || !x.blank d row), .notBlank)]
    act := fun r s =>
      let d := r.u 16 0 3
      let row := r.u 17 0 4
      let img := s.dataBytes r (r.u 24 0 64) 2048
      let s := s.modRows d (fun x => { x with attempted := x.attempted ++ [row], burning := some (row, img) })
      { st := s.startOp { opMark 0x0504 with names := rowNames } d r 0 (s.whoNote r), late := true } }

/-- CAL_ROW_BURN (R259, R273). -/
def execCalRowBurn (r : Req) (s : State) : Host.Outcome State Fault Refusal := .next (calRowBurnSpec.run r s)

/-- The burn of a row ends in the fuses; which single fuses stay behind, or were reached, are free values. -/
def State.burnRow (s : State) (d row : Nat) (img : List Byte) (complete : Bool) : State :=
  { s.modRows d (fun x => x.burn d row img s.fresh complete) with fresh := s.fresh + 2048 }

/-- A new row is in force: its values act at once, and every core of the die asks for a calibration (R259, R260). Only power-up finds a row
invalid (R258). DESIGN CHOICE (log 79): a row that passes that check and replaces one that failed it ends the STL of the die's words. -/
def State.rowTaken (s : State) (d row : Nat) : State :=
  let s := s.modRows d (fun x => { x with verified := x.verified ++ [row], rowOk := x.rowOk || x.valid d row })
  let s := (dieCores d).foldl (fun (s : State) c =>
    (s.modCal c (fun k => { k with rowPending := true })).modSched (coreGroup c)
      (fun x => { x with demands := x.demands.filter (· ≠ (.newRow, c)) ++ [(.newRow, c)] })) s
  (List.range 4).foldl (fun s g => s.serveNext (4 * d + g)) s

/-- ROW_BURN_DONE: the burn of a die ends with its read-back: the row of the image taken at its start is in force, or is consumed (R259,
R260). -/
def execRowBurnDone (die : Nat) (ok : Bool) (s : State) : Host.Outcome State Fault Refusal :=
  if s.node.dies ≤ die then .fault (.absentUnit "die" die)
  else match (s.rowsOf die).burning with
    | some (row, img) =>
      let s := s.burnRow die row img ok
      if ok then .next ((s.rowTaken die row).endOpLogged calRowBurnSpec die .ok 0)
      else .next (s.endOpLogged calRowBurnSpec die .timeout 0)
    | none => .next s

/-- The record of CAL_ROW_READ: a header with the row's state and the count of bits whose fuses disagree, then the image (R274). -/
def Rows.record (x : Rows) (d row : Nat) : Nat :=
  let split := ((List.range 2048).map (fun i => (x.fuse d row i).split)).sum
  let head := mkRec [⟨0, 0, 16, maskOf 16 x.attempted.contains⟩, ⟨2, 0, 16, maskOf 16 x.verified.contains⟩,
    ⟨4, 0, 8, x.inForce⟩, ⟨5, 0, 1, b2n (x.valid d row)⟩, ⟨5, 1, 1, b2n (x.blank d row)⟩, ⟨8, 0, 32, split⟩]
  head + leNat (x.image d row) * 2 ^ 512

def calRowReadSpec : CmdSpec :=
  { opcode := 0x0505
    names := rowNames
    read := true
    data := fun r _ => [{ addr := r.u 24 0 64, len := 2112, wr := true, align := 64 }]
    refuse := fun r _ s => [(decide (s.node.dies ≤ r.u 16 0 3), .badParam)]
    act := fun r s =>
      let d := r.u 16 0 3
      let row := r.u 17 0 4
      { st := s.writeResult r (r.u 24 0 64) 2112 ((s.rowsOf d).record d row) } }

/-- CAL_ROW_READ (R274). -/
def execCalRowRead (r : Req) (s : State) : Host.Outcome State Fault Refusal := .next (calRowReadSpec.run r s)

/-- The reserve covers this tile by CAL_SUBST. -/
def State.substCovers (s : State) (n : Nat) : Bool :=
  let x := (s.group (groupOfTile n)).sched
  match x.use with
  | .covering m => m = n && x.purpose = DemandKind.manual
  | _ => false

def calSubstSpec : CmdSpec :=
  { opcode := 0x0506
    names := fun r => nNode (16 + groupOfTile (r.u 16 0 16)) :: tileNames r
    opLogged := fun _ _ => true
    refuse := fun r w s =>
      let n := r.u 16 0 16
      let g := groupOfTile n
      let x := (s.group g).sched
      [beyondTile s n, needs w 1, notOwner s r n, (s.coreDown (1024 + g), .fenced), ((s.tile n).force.mode = .force, .combination),
       (s.dieCalibrating (dieOfTile n) || (if r.b 18 0 then !s.substCovers n else x.use ≠ .free), .busy)]
    act := fun r s =>
      let n := r.u 16 0 16
      let s := s.startOp (opMark 0x0506) n r 0 0
      let g := groupOfTile n
      { st := if r.b 18 0 then s.handBack n
              else (s.modSched g (fun x => { x with demands := x.demands ++ [(.manual, n)] })).serveNext g
        late := true } }

/-- CAL_SUBST (R275). -/
def execCalSubst (r : Req) (s : State) : Host.Outcome State Fault Refusal := .next (calSubstSpec.run r s)

end Sys2Proof.Machine
end

