-- ==== Sys2Proof/Machine/Meter.lean ====
section
/-! DEFINITION. The metering hearth: pairs, windows, energy registers, persistence, and their commands (R331 to R356). -/

set_option Elab.async false

namespace Sys2Proof.Machine

/-! ### What a pair reads (R331 to R336) -/

/-- One tile of a pair as R333 asks it: its slot in STATIC, in ACQ, chain 1 at a ratio of 500. -/
def State.pairTile (s : State) (n slot : Nat) : Bool :=
  let t := s.tile n
  t.force.mode = .acq && t.seq.mode = .static && dChain (t.seq.active.getD slot 0) 1 && t.c1.ratio = 500
  && !s.node.derated.contains (dieOfTile n)

/-- The conditions of R333 on the configuration of both chains; equal stamps hold of one instant. -/
def State.pairMatched (s : State) (p : Pair) : Bool :=
  let a := (s.tile p.vTile).c1
  let b := (s.tile p.iTile).c1
  s.pairTile p.vTile p.vSlot && s.pairTile p.iTile p.iSlot
  && a.da = b.da && a.rbLog2 = b.rbLog2 && a.ntaps = b.ntaps && a.bypassB = b.bypassB && a.active.crc a.ntaps = b.active.crc b.ntaps
  && (if p.kind = 1 then !a.dcbEnable && !b.dcbEnable
      else (!a.dcbEnable && !b.dcbEnable) || (a.dcbEnable && b.dcbEnable && a.dcbK = b.dcbK))

/-- The grid index of a stamp edge, and m_g of R336. -/
def State.pairIndex (s : State) (e : Nat) : Int := ((e : Int) - (s.sync.eRef : Int)) / 500

/-- The first stamp edge of the grid of 500 after edge e. -/
def State.nextInstant (s : State) (e : Nat) : Nat :=
  e + 1 + ((499 - ((e : Int) + 1 - (s.sync.eRef : Int))) % 500).toNat

def wordAt (l : List PairWord) (e : Nat) : Option Word := (l.find? (fun x => x.edge = e)).map (fun x => x.word)

/-! ### One instant (R334, R335) -/

/-- h_j of R334: antisymmetric about j = 63, its values not listed (log 11). -/
def hilbertTap (j : Nat) : Int :=
  if j = 63 then 0 else if j < 63 then Config.hilbert (63 - j) else -(Config.hilbert (j - 63))

/-- The words an instant uses: the voltage, one or two currents, the Hilbert span of an AC pair. -/
def Pair.edges (p : Pair) (e : Nat) : Nat × List Nat × List Nat :=
  let base : Nat := if p.kind = 0 then 95 else 32
  let q := ((base : Int) + p.delay / 1024).toNat
  let back := fun (k : Nat) => e - 500 * k
  (back base, if p.delay % 1024 = 0 then [back q] else [back q, back (q + 1)],
   if p.kind = 0 then (List.range 127).map (fun j => back (32 + j)) else [])

/-- The current i of R334. -/
def delayed (delay : Int) (a b : Int) : Int :=
  let f := delay % 1024
  ((1024 - f) * a + f * b + 512) / 1024

/-- The quadrature voltage and whether it clamped. -/
def quadrature (l : List Int) : Int × Bool :=
  let sum := ((List.range 127).zip l).foldl (fun (a : Int) x => a + hilbertTap x.1 * x.2) 0
  let v := divHalfUp sum 4194304
  (clampI (-8388608) 8388607 v, decide (v < -8388608) || decide (8388607 < v))

/-- Window flags (R352). -/
def wOVR : Nat := 1
def wFOVF : Nat := 2
def wGAP : Nat := 16
def wEXCL : Nat := 32
def wMISMATCH : Nat := 64
def wSHORT : Nat := 128

def Window.flag (w : Window) (f : Nat) : Window := { w with flags := w.flags ||| f }
def Window.skip (w : Window) (f : Nat) : Window := { w with flags := w.flags ||| f, missed := min 65535 (w.missed + 1) }

/-- Accumulates one instant (R338). -/
def Window.accumulate (w : Window) (v i q : Int) (flags : Nat) : Window :=
  { w with
    nacc := w.nacc + 1, svv := w.svv + v * v, sii := w.sii + i * i, svi := w.svi + v * i, sqi := w.sqi + q * i, sv := w.sv + v, si := w.si + i,
    flags := w.flags ||| flags }

/-- One instant of a running pair at stamp edge e, the configuration matched (R335). -/
def Pair.instantAt (p : Pair) (e : Nat) : Pair :=
  let es := p.edges e
  let v := wordAt p.vIn es.1
  let is := es.2.1.map (wordAt p.iIn)
  let hs := es.2.2.map (wordAt p.vIn)
  let all := v :: (is ++ hs)
  if all.any (fun w => w.isNone) then { p with missing := p.missing.bump 32, win := p.win.skip wGAP }
  else
    let ws := all.filterMap id
    let has := fun (f : Nat) => ws.any (fun w => hasFlag w f)
    if has fUNS || has fSTL then { p with excl := p.excl.bump 32, win := p.win.skip wEXCL }
    else
      let code := fun (w : Option Word) => code24 (w.getD 0)
      let i := delayed p.delay (code (is.getD 0 none)) (code (is.getD 1 none))
      let q := if p.kind = 0 then quadrature (hs.map code) else (0, false)
      let flags := wOVR * b2n (has fOVR) + wFOVF * b2n (has fFOVF || q.2) + 4 * b2n (has fDIS) + 8 * b2n (has fSPR) + wGAP * b2n (has fGAP)
      { p with win := p.win.accumulate (code v) i q.1 flags }

/-! ### Windows and registers (R337 to R341, R352) -/

/-- x / n scaled by k, rounded half up; zero of an empty window. -/
def meanOf (x : Int) (n k : Nat) : Int := if n = 0 then 0 else divHalfUp (x * k) n

/-- The root mean square in Q24.8, rounded to nearest (R339). -/
def rmsOf (x : Int) (n : Nat) : Nat := if n = 0 then 0 else (isqrt (4 * 65536 * x.toNat / n) 60 + 1) / 2

/-- The register additions of a window end (R340). -/
def energyAdd (kind : Nat) (svi sqi : Int) : List Nat :=
  let pos := fun (b : Bool) (v : Int) => if b then v.natAbs else 0
  let ac := decide (kind = 0)
  [pos (0 ≤ svi) svi, pos (svi < 0) svi, pos (ac && 0 ≤ svi && 0 ≤ sqi) sqi, pos (ac && svi < 0 && 0 ≤ sqi) sqi,
   pos (ac && svi < 0 && sqi < 0) sqi, pos (ac && 0 ≤ svi && sqi < 0) sqi]

/-- The entry of a window (R352). -/
def Pair.entry (p : Pair) (n : Nat) : Nat :=
  let w := p.win
  let ac := p.kind = 0
  let v := rmsOf w.svv w.nacc
  let i := rmsOf w.sii w.nacc
  mkRec [⟨0, 0, 64, w.start⟩, ⟨8, 0, 32, p.wseq⟩, ⟨12, 0, 18, p.qid⟩, ⟨14, 2, 6, n⟩, ⟨15, 0, 1, p.kind⟩, ⟨16, 0, 21, w.nacc⟩,
    ⟨20, 0, 8, w.flags⟩, ⟨22, 0, 16, w.missed⟩, ⟨24, 0, 32, if ac then v else toU 32 (meanOf w.sv w.nacc 256)⟩,
    ⟨28, 0, 32, if ac then i else toU 32 (meanOf w.si w.nacc 256)⟩, ⟨32, 0, 64, toU 64 (meanOf w.svi w.nacc 65536)⟩,
    ⟨40, 0, 64, if ac then toU 64 (meanOf w.sqi w.nacc 65536) else 0⟩, ⟨48, 0, 64, if ac then v * i else 0⟩, ⟨56, 0, 32, w.expected⟩]

/-- The open window of a pair closes: registers, the entry, WSEQ. -/
def State.closeWindow (s : State) (n : Nat) (short : Bool) : State :=
  let p := s.pair n
  if !p.win.open_ then s
  else
    let p := if short then { p with win := p.win.flag wSHORT } else p
    let add := energyAdd p.kind p.win.svi p.win.sqi
    let s := s.modPair n (fun x => { x with
      regs := (List.range 6).map (fun k => x.regs.getD k 0 + add.getD k 0), wseq := (x.wseq + 1) % 2 ^ 32, win := {} })
    if p.qid = 0 then s else s.postRecord p.qid (p.entry n) (s.chain1Holder p.vTile)

/-- A window opens with the instant at stamp edge e; `short` when it opens inside the grid's window (R337). -/
def State.openWindow (s : State) (n e : Nat) (short : Bool) : State :=
  s.modPair n (fun x => { x with win := { open_ := true, start := s.edgeTime e, flags := if short then wSHORT else 0 } })

/-- The boundary of R336 falls at stamp edge e. -/
def State.pairBoundary (s : State) (p : Pair) (e : Nat) : Bool := s.pairIndex e % (p.w : Int) = 0

/-- The stamp edge of a pair's next instant. -/
def State.pairNext (s : State) (p : Pair) : Nat := s.nextInstant (p.lastInstant.getD 0)

/-- The metering block of a pair runs: restored, with no power-fail, and not fenced (R347, R350, R522). -/
def State.meterUp (s : State) (n : Nat) : Bool :=
  !s.node.inReset && s.node.meterRestored && s.node.pfStage = .none && !s.dieFenced (n / 8) && !s.faults.fatal

/-- A start, or a resumption after a power-fail, takes effect at the instant of a boundary (R349, R355). -/
def State.pairBegin (s : State) (n e : Nat) : State :=
  let p := s.pair n
  if p.startPending && s.meterUp n && s.pairBoundary p e then
    (s.modPair n (fun x => { x with state := .running, startPending := false, frozen := false })).openWindow n e false
  else s

/-- PAIR_START: a started pair reaches its next window boundary (R355). -/
def execPairStart (n : Nat) (s : State) : Host.Outcome State Fault Refusal :=
  if s.nPairs ≤ n then .fault (.absentUnit "pair" n)
  else
    let e := s.pairNext (s.pair n)
    if s.meterUp n && e ≤ s.edge then .next (s.pairBegin n e) else .next s

/-- A tile is OFF: an instant then fails R333, and its words are missing under R335. -/
def State.tileOff (s : State) (n : Nat) : Bool := (s.tile n).force.mode = .off

/-- PAIR_INSTANT: the next instant of a pair is checked and accumulated, excluded or counted (R333 to R337). -/
def execPairInstant (n : Nat) (s : State) : Host.Outcome State Fault Refusal :=
  if s.nPairs ≤ n then .fault (.absentUnit "pair" n)
  else
    let p := s.pair n
    let e := s.pairNext p
    if p.state = .unconfigured || s.node.inReset || s.dieFenced (n / 8) || s.edge < e then .next s
    else
      let s := s.pairBegin n e
      let s := s.modPair n (fun x => { x with lastInstant := some e })
      let p := s.pair n
      if p.state = .stopped then .next s
      else if p.frozen then .next (s.modPair n (fun x => { x with missing := x.missing.bump 32 }))
      else
        let s := if p.win.open_ then s else s.openWindow n e (!s.pairBoundary p e)
        let s := s.modPair n (fun x =>
          let y : Pair := { x with win := { x.win with expected := x.win.expected + 1 } }
          if s.pairMatched y then { y.instantAt e with state := .running }
          else if s.tileOff y.vTile || s.tileOff y.iTile then
            { y with state := .mismatch, mismatches := y.mismatches.bump 32, missing := y.missing.bump 32, win := (y.win.skip wMISMATCH).flag wGAP }
          else { y with state := .mismatch, mismatches := y.mismatches.bump 32, win := y.win.skip wMISMATCH })
        if s.pairBoundary p (e + 500) then .next (s.closeWindow n false) else .next s

/-! ### Persistence (R345 to R351) -/

def RecordKind.code : RecordKind → Nat
  | .periodic => 0 | .command => 1 | .powerFail => 2

/-- The registers of every pair of the node. -/
def State.allRegs (s : State) : List (List Nat) := (List.range s.nPairs).map (fun n => (s.pair n).regs)

/-- The whole pages of a record: a header of 64 B and 12 B for each of six registers of each of the eight pairs of a die (R345). -/
def meterPages (dies : Nat) : Nat := (64 + 576 * dies + 255) / 256

/-- A record captured now, with the next SNAP_SEQ. -/
def State.meterRecord (s : State) (k : RecordKind) : MeterRecord :=
  { seq := s.meter.snapSeq + 1, kind := k, legal := s.trust.legalCnt, seconds := s.meter.opSeconds + s.node.up / 64000000000, regs := s.allRegs,
    pages := meterPages s.node.dies }

/-- A PERIODIC or COMMAND record waits for its turn at bank 1 (R299, R346). -/
def State.captureRecord (s : State) (k : RecordKind) : State :=
  { s with
    meter := { s.meter with snapSeq := s.meter.snapSeq + 1, writing := s.meter.writing ++ [s.meterRecord k] }
    logs := { s.logs with bank1 := s.logs.bank1 ++ [2] } }

/-- The first of n pages for the next record: whole in one sector, since R346's count of erases has 13 records of 19 pages in each (log 79). -/
def MeterNode.placeFor (m : MeterNode) (n : Nat) : Nat :=
  if m.nextPage % 256 + n ≤ 256 then m.nextPage else (m.nextPage / 256 + 1) % 16 * 256

/-- A record takes the next pages of the ring. The first one in a sector is followed by the erase of the sector after it, ahead of need (R346). -/
def MeterNode.write (m : MeterNode) (r : MeterRecord) : MeterNode :=
  let p := m.placeFor r.pages
  let next := (p / 256 + 1) % 16
  let m := if p % 256 = 0 then { m with ring := m.ring.filter (fun x => x.page / 256 ≠ next), erases := tmod 0 m.erases next (satInc 32) } else m
  { m with ring := { page := p, record := r } :: m.ring, nextPage := (p + r.pages) % 4096 }

/-- The record being written is abandoned: its pages fail the CRC (R351). -/
def MeterNode.abandon (m : MeterNode) : MeterNode :=
  match m.writing with
  | [] => m
  | r :: _ => m.write { r with good := false }

/-- PERIODIC_RECORD: device time is a whole multiple of 600 s (R346). -/
def execPeriodicRecord (s : State) : Host.Outcome State Fault Refusal :=
  let k := s.now / 600000000000
  if s.node.inReset || s.node.pfStage ≠ .none || !s.node.meterRestored || k = s.meter.lastPeriod then .next s
  else .next ({ s with meter := { s.meter with lastPeriod := k } }.captureRecord .periodic)

def PfRegion.reuse (r : PfRegion) : PfRegion :=
  match r with
  | .used _ => .erasing
  | x => x

/-- The block erases the used power-fail region (R349, R350). -/
def State.eraseUsed (s : State) : State :=
  let m := s.meter
  if m.regionA.reuse = m.regionA && m.regionB.reuse = m.regionB then s
  else { s with meter := { m with regionA := m.regionA.reuse, regionB := m.regionB.reuse }, logs := { s.logs with bank1 := s.logs.bank1 ++ [3] } }

/-- METER_RECORD_DONE: the oldest record being written is read back in its turn, or its operation timed out and it is retried in the next
pages. After the record of a restore the used power-fail region is erased, not before (R346, R350, R351). -/
def execMeterRecordDone (ok : Bool) (s : State) : Host.Outcome State Fault Refusal :=
  match s.meter.writing with
  | [] => .next s
  | m :: rest =>
    if s.node.inReset || s.node.pfStage ≠ .none || !s.logs.turn 2 then .next s
    else if !ok then .next ({ s with meter := s.meter.abandon }.report 0x21 0 0)
    else
      let s := { s with
        meter := { (s.meter.write m) with writing := rest, lastSeq := m.seq, lastSnap := s.stamp }
        logs := s.logs.took 2 }
      if m.kind = .command then .next (s.eraseUsed.endOp 0x0802 0 .ok 0) else .next s

/-- The valid record with the highest SNAP_SEQ among the ring and the power-fail regions: its CRC is correct and it has the n pages of the
package (R350). -/
def MeterNode.best (m : MeterNode) (n : Nat) : Option MeterRecord :=
  let reg := fun (r : PfRegion) => match r with
    | .used (some x) => [x]
    | _ => []
  ((m.ring.map (·.record) ++ reg m.regionA ++ reg m.regionB).filter (fun x => x.good && x.pages = n)).foldl (fun b x => match b with
    | some y => if y.seq < x.seq then some x else some y
    | none => some x) none

/-- METER_RESTORE_DONE: the best record is restored, and a COMMAND record that is to hold it is captured (R350). -/
def execMeterRestoreDone (s : State) : Host.Outcome State Fault Refusal :=
  if s.node.inReset || s.node.meterRestored || s.node.pfStage ≠ .none || !(tget {} s.node.kindle 0).kindled then .next s
  else
    let m := s.meter
    let best := m.best (meterPages s.node.dies)
    let top := match best with
      | some x => max m.snapSeq x.seq
      | none => m.snapSeq
    let s := { s with
      node := { s.node with meterRestored := true }
      meter := { m with snapSeq := top, lastSeq := (best.map (fun (x : MeterRecord) => x.seq)).getD m.lastSeq } }
    let s := match best with
      | some x =>
        let s := (List.range s.nPairs).foldl (fun (s : State) n => s.modPair n (fun p => { p with
          regs := x.regs.getD n [0, 0, 0, 0, 0, 0], unsavedLoss := p.unsavedLoss || decide (x.kind ≠ RecordKind.powerFail) || x.lost.contains n })) s
        s.raise 0x0801 0 s.ring.nodeNo (x.kind.code + x.seq * 2 ^ 32)
      | none => s.report 0x20 0 0
    .next (s.captureRecord .command).checkReady

/-- POWER_FAIL_REGION_ERASED: the erase of a used region ends; a blank region is armed (R349). -/
def execPowerFailRegionErased (s : State) : Host.Outcome State Fault Refusal :=
  let arm := fun (r : PfRegion) => match r with
    | .erasing => PfRegion.armed
    | x => x
  if s.node.inReset || !s.logs.turn 3 then .next s
  else .next { s with meter := { s.meter with regionA := arm s.meter.regionA, regionB := arm s.meter.regionB }, logs := s.logs.took 3 }

/-! ### Commands (R353 to R356) -/

def beyondPair (s : State) (n : Nat) : Bool × Status := (s.nPairs ≤ n, .badParam)

/-- The holder of a configured pair (R332). -/
def State.pairHolder (s : State) (n : Nat) : Nat := s.chain1Holder (s.pair n).vTile
def pairSealed (s : State) (n : Nat) : Bool × Status := ((s.pair n).state ≠ .unconfigured && s.intact (s.pairHolder n), .sealed)
def pairFenced (s : State) (n : Nat) : Bool × Status := (s.dieFenced (n / 8) || s.faults.fatal, .fenced)

/-- The pair a METER_PAIR asks for. -/
def pairOf (r : Req) (p : Pair) : Pair :=
  { p with
    kind := r.u 16 6 1, vSlot := r.u 17 0 5, iSlot := r.u 18 0 5, vTile := r.u 20 0 16, iTile := r.u 22 0 16, w := r.u 24 0 21,
    delay := r.i 28 16, qid := r.u 32 0 18, vFs := r.u 36 0 32, iFs := r.u 40 0 32 }

def meterPairSpec : CmdSpec :=
  { opcode := 0x0801
    opLogged := fun _ _ => true
    names := fun r => [nPair (r.u 16 0 6), nTile (r.u 20 0 16), nTile (r.u 22 0 16)]
      ++ (if r.u 32 0 18 = 0 then [] else [nQueue (r.u 32 0 18)])
    away := fun r s =>
      let q := r.u 32 0 18
      let hold := s.streamHolder (streamKey (r.u 4 0 6) (r.u 20 0 16) 0 1 0)
      [(q ≠ 0 && s.recordQueueBad q, .badParam), (q ≠ 0 && s.qidOwner q ≠ some (hold + 1), .rights)]
    refuse := fun r w s =>
      let n := r.u 16 0 6
      let p := s.pair n
      let x := pairOf r p
      let off := fun (t : Nat) => decide (s.nTiles ≤ t) || decide (t / 32 ≠ n / 8)
      let hold := s.chain1Holder x.vTile
      [beyondPair s n, (off x.vTile || off x.iTile || x.vTile = x.iTile || x.w < 256 || 1048576 < x.w, .badParam),
       (x.qid ≠ 0 && !s.isWorker && s.recordQueueBad x.qid, .badParam), needs w 1,
       (!r.for hold || s.chain1Holder x.iTile ≠ hold, .rights),
       (p.state ≠ .unconfigured && !r.for (s.pairHolder n), .rights),
       (x.qid ≠ 0 && !s.isWorker && s.qidOwner x.qid ≠ some (hold + 1), .rights), pairFenced s n, pairSealed s n, (s.intact hold, .sealed),
       (p.state = .running || p.state = .mismatch || p.startPending, .busy), (!s.pairMatched x, .combination)]
    act := fun r s =>
      { st := s.modPair (r.u 16 0 6) (fun p =>
          { pairOf r p with state := .stopped, startPending := false, win := {}, vIn := [], iIn := [], lastInstant := some s.edge }) } }

/-- METER_PAIR (R354). Of a pair on a worker the manager checks the queue (R332, R352). -/
def execMeterPair (r : Req) (s : State) : Host.Outcome State Fault Refusal := .next (meterPairSpec.run r s)

def meterCtrlSpec : CmdSpec :=
  { opcode := 0x0802
    opLogged := fun r _ => r.u 17 0 2 ≤ 1
    names := fun r => [nPair (r.u 16 0 6)]
    refuse := fun r _ s =>
      let n := r.u 16 0 6
      let op := r.u 17 0 2
      [beyondPair s n, (op = 3 || (s.pair n).state = .unconfigured, .badParam), (!r.for (s.pairHolder n), .rights), pairFenced s n,
       (op = 1 && s.intact (s.pairHolder n), .sealed), (op = 0 && !s.awake (s.pairHolder n), .busy),
       (op = 2 && s.meter.writing.any (fun m => m.kind = .command), .busy)]
    act := fun r s =>
      let n := r.u 16 0 6
      match r.u 17 0 2 with
      | 0 => { st := s.modPair n (fun p => if p.state = .stopped && !p.startPending then { p with startPending := true, lastInstant := some s.edge } else p) }
      | 1 => { st := (s.closeWindow n true).modPair n (fun p => { p with state := .stopped, startPending := false, frozen := false }) }
      | _ =>
        { st := (s.captureRecord .command).startOp { opMark 0x0802 with names := fun r => [nPair (r.u 16 0 6)] } 0 r 0 0, late := true } }

/-- METER_CTRL (R355). -/
def execMeterCtrl (r : Req) (s : State) : Host.Outcome State Fault Refusal := .next (meterCtrlSpec.run r s)

/-- The snapshot of METER_READ (R356). -/
def State.pairRecord (s : State) (n : Nat) : Nat :=
  let p := s.pair n
  let st := match p.state with
    | .unconfigured => 0
    | .stopped => 1
    | .running => 2
    | .mismatch => 3
  mkRec ([⟨0, 0, 6, n⟩, ⟨1, 0, 2, st⟩, ⟨1, 2, 1, p.kind⟩, ⟨1, 3, 1, b2n p.unsavedLoss⟩, ⟨2, 0, 16, p.vTile⟩, ⟨4, 0, 16, p.iTile⟩,
    ⟨6, 0, 5, p.vSlot⟩, ⟨7, 0, 5, p.iSlot⟩, ⟨8, 0, 32, p.w⟩, ⟨12, 0, 16, toU 16 p.delay⟩, ⟨14, 0, 1, b2n p.missing.sat⟩,
    ⟨14, 1, 1, b2n p.excl.sat⟩, ⟨14, 2, 1, b2n p.mismatches.sat⟩, ⟨88, 0, 32, p.vFs⟩, ⟨92, 0, 32, p.iFs⟩, ⟨96, 0, 32, s.trust.legalCnt⟩,
    ⟨100, 0, 32, s.meter.lastSeq⟩,
    ⟨104, 0, 64, s.meter.lastSnap⟩, ⟨112, 0, 32, p.missing.n⟩, ⟨116, 0, 32, p.excl.n⟩, ⟨120, 0, 32, p.mismatches.n⟩]
    ++ (List.range 6).map (fun k => ⟨16 + 12 * k, 0, 96, p.regs.getD k 0⟩))

def meterReadSpec : CmdSpec :=
  { opcode := 0x0803
    names := fun r => [nPair (r.u 16 0 6)]
    read := true
    data := fun r _ => resultAt r 24 128
    refuse := fun r _ s => [beyondPair s (r.u 16 0 6), (r.fn ≠ 0 && !r.for (s.pairHolder (r.u 16 0 6)), .rights)]
    act := fun r s => reply s r 24 128 (s.pairRecord (r.u 16 0 6)) }

/-- METER_READ (R356). -/
def execMeterRead (r : Req) (s : State) : Host.Outcome State Fault Refusal := .next (meterReadSpec.run r s)

end Sys2Proof.Machine
end

