-- ==== Sys2Proof/Machine/StoveIsa.lean ====
section
/-! DEFINITION. The instructions of a stove (R280 to R292) and the loop step (R312 to R321). Each command runs on stove `sv`
when its run stands at a word of that instruction with those operand fields; else nothing happens (log 21). -/

set_option Elab.async false

namespace Sys2Proof.Machine

/-! ### Words and registers -/

/-- The fields of an instruction word (R280). -/
def fOp (w : Nat) : Nat := bits w 26 6
def fA (w : Nat) : Nat := bits w 21 5
def fB (w : Nat) : Nat := bits w 16 5
def fC (w : Nat) : Nat := bits w 11 5
def fImm (w : Nat) : Nat := bits w 0 16

/-- s0 reads as zero and discards writes (R276). -/
def Stove.reg (v : Stove) (i : Nat) : Nat := if i = 0 then 0 else (v.regs.getD i 0).toNat
def Stove.setReg (v : Stove) (i x : Nat) : Stove := if i = 0 then v else { v with regs := v.regs.set i (BitVec.ofNat 32 x) }
def Stove.acc (v : Stove) (i : Nat) : Int := (v.accs.getD (i % 4) 0).toInt
def Stove.setAcc (v : Stove) (i : Nat) (x : Int) : Stove := { v with accs := v.accs.set (i % 4) (BitVec.ofInt 72 x) }

/-- What an instruction leaves: the state, the STICKY flags it set, the pc where it branches. -/
structure IRes where
  st : State
  flags : Nat := 0
  pc : Option Nat := none

/-- The effect of an instruction on a run: a result, or the cause of a trap. -/
abbrev Effect := State → Run → Except Nat IRes

/-- One instruction of `cyc` cycles whose word satisfies `ok` (R281, R282, R292). -/
def svStep (sv cyc : Nat) (ok : Nat → Bool) (eff : Effect) (s : State) : Host.Outcome State Fault Refusal :=
  if s.nStoves ≤ sv then .fault (.absentUnit "stove" sv)
  else
    let v := s.stove sv
    match v.run with
    | none => .next s
    | some x =>
      if x.stalled || s.stoveFenced sv || !ok (s.fetchWord sv x.pc) then .next s
      else if (v.law x.law).maxCycles ≤ x.cycle then .next (s.trapRun sv 4)
      else match eff s x with
        | .error c => .next (s.trapRun sv c)
        | .ok r =>
          let s := r.st.modStove sv (fun v => { v with sticky := v.sticky ||| r.flags })
          if r.flags &&& (s.stove sv).trapMask ≠ 0 then .next (s.trapRun sv 6)
          else
            let go := fun (y : Run) => { y with pc := r.pc.getD ((x.pc + 4) % 2 ^ 32), cycle := x.cycle + cyc }
            .next ((s.modStove sv (fun v => { v with run := v.run.map go })).beginFetch sv)

/-- Word tests of the formats. -/
def isR (op a b c w : Nat) : Bool := fOp w = op && fA w = a && fB w = b && fC w = c
def isI (op a b imm w : Nat) : Bool := fOp w = op && fA w = a && fB w = b && fImm w = imm
def isAI (op a imm w : Nat) : Bool := fOp w = op && fA w = a && fImm w = imm
def isA (op a w : Nat) : Bool := fOp w = op && fA w = a

/-- sa from the registers: the value and the flags. -/
def setA (sv a : Nat) (f : Stove → Nat × Nat) : Effect := fun s _ =>
  let r := f (s.stove sv)
  .ok { st := s.modStove sv (fun v => v.setReg a r.1), flags := r.2 }

/-- sa ← sb op sc. -/
def svR3 (op cyc sv a b c : Nat) (f : Nat → Nat → Nat × Nat) : State → Host.Outcome State Fault Refusal :=
  svStep sv cyc (isR op a b c) (setA sv a (fun v => f (v.reg b) (v.reg c)))
/-- sa ← sb op imm. -/
def svI (op sv a b imm : Nat) (f : Nat → Nat → Nat × Nat) : State → Host.Outcome State Fault Refusal :=
  svStep sv 1 (isI op a b imm) (setA sv a (fun v => f (v.reg b) imm))

/-- A value without flags. -/
def plain (v : Nat) : Nat × Nat := (v % 2 ^ 32, 0)
def sx16 (imm : Nat) : Int := toI 16 imm
def sx32 (v : Nat) : Int := toI 32 v

/-! ### Arithmetic and logic -/

/-- NOP. -/
def execSvNop (sv : Nat) (s : State) : Host.Outcome State Fault Refusal :=
  svStep sv 1 (fun w => fOp w = 0) (fun s _ => .ok { st := s }) s
/-- ADD. -/
def execSvAdd (sv a b c : Nat) (s : State) : Host.Outcome State Fault Refusal := svR3 1 1 sv a b c (fun x y => plain (x + y)) s
/-- SUB. -/
def execSvSub (sv a b c : Nat) (s : State) : Host.Outcome State Fault Refusal :=
  svR3 2 1 sv a b c (fun x y => plain (x + 2 ^ 32 - y)) s
/-- ADDS. -/
def execSvAdds (sv a b c : Nat) (s : State) : Host.Outcome State Fault Refusal :=
  svR3 3 1 sv a b c (fun x y => sat32 (sx32 x + sx32 y)) s
/-- SUBS. -/
def execSvSubs (sv a b c : Nat) (s : State) : Host.Outcome State Fault Refusal :=
  svR3 4 1 sv a b c (fun x y => sat32 (sx32 x - sx32 y)) s
/-- AND. -/
def execSvAnd (sv a b c : Nat) (s : State) : Host.Outcome State Fault Refusal := svR3 5 1 sv a b c (fun x y => plain (x &&& y)) s
/-- OR. -/
def execSvOr (sv a b c : Nat) (s : State) : Host.Outcome State Fault Refusal := svR3 6 1 sv a b c (fun x y => plain (x ||| y)) s
/-- XOR. -/
def execSvXor (sv a b c : Nat) (s : State) : Host.Outcome State Fault Refusal := svR3 7 1 sv a b c (fun x y => plain (x ^^^ y)) s

def shl32 (x n : Nat) : Nat × Nat := plain (x * 2 ^ (n % 32))
def shr32 (x n : Nat) : Nat × Nat := plain (x / 2 ^ (n % 32))
def sra32 (x n : Nat) : Nat × Nat := plain (toU 32 (sx32 x / (2 ^ (n % 32) : Nat)))

/-- SHL. -/
def execSvShl (sv a b c : Nat) (s : State) : Host.Outcome State Fault Refusal := svR3 8 1 sv a b c shl32 s
/-- SHR. -/
def execSvShr (sv a b c : Nat) (s : State) : Host.Outcome State Fault Refusal := svR3 9 1 sv a b c shr32 s
/-- SRA. -/
def execSvSra (sv a b c : Nat) (s : State) : Host.Outcome State Fault Refusal := svR3 10 1 sv a b c sra32 s
/-- MUL: the low 32 bits of the signed product. -/
def execSvMul (sv a b c : Nat) (s : State) : Host.Outcome State Fault Refusal :=
  svR3 11 1 sv a b c (fun x y => plain (toU 32 (sx32 x * sx32 y))) s
/-- MULH: the high 32 bits of the signed product. -/
def execSvMulh (sv a b c : Nat) (s : State) : Host.Outcome State Fault Refusal :=
  svR3 12 1 sv a b c (fun x y => plain (toU 32 (sx32 x * sx32 y / 4294967296))) s

/-- ADDI. -/
def execSvAddi (sv a b imm : Nat) (s : State) : Host.Outcome State Fault Refusal :=
  svI 0x10 sv a b imm (fun x i => plain (toU 32 ((x : Int) + sx16 i))) s
/-- ANDI. -/
def execSvAndi (sv a b imm : Nat) (s : State) : Host.Outcome State Fault Refusal :=
  svI 0x11 sv a b imm (fun x i => plain (x &&& i)) s
/-- ORI. -/
def execSvOri (sv a b imm : Nat) (s : State) : Host.Outcome State Fault Refusal :=
  svI 0x12 sv a b imm (fun x i => plain (x ||| i)) s
/-- LUI. -/
def execSvLui (sv a imm : Nat) (s : State) : Host.Outcome State Fault Refusal :=
  svStep sv 1 (isAI 0x13 a imm) (setA sv a (fun _ => plain (imm * 65536))) s
/-- SHLI. -/
def execSvShli (sv a b imm : Nat) (s : State) : Host.Outcome State Fault Refusal := svI 0x14 sv a b imm shl32 s
/-- SHRI. -/
def execSvShri (sv a b imm : Nat) (s : State) : Host.Outcome State Fault Refusal := svI 0x15 sv a b imm shr32 s
/-- SRAI. -/
def execSvSrai (sv a b imm : Nat) (s : State) : Host.Outcome State Fault Refusal := svI 0x16 sv a b imm sra32 s

/-! ### Input ports (R287) -/

/-- sa from input port imm[3:0]; an invalid binding traps with UNBOUND. -/
def fromPort (sv a imm : Nat) (f : InPort → Nat) : Effect := fun s x =>
  let p := tget {} (s.stove sv).ports (imm % 16)
  if p.bound.isNone then .error 7 else setA sv a (fun _ => plain (f p)) s x

/-- SIN. -/
def execSvSin (sv a imm : Nat) (s : State) : Host.Outcome State Fault Refusal :=
  svStep sv 1 (isAI 0x0D a imm) (fromPort sv a imm (fun p => p.word.toNat)) s
/-- SSEQ. -/
def execSvSseq (sv a imm : Nat) (s : State) : Host.Outcome State Fault Refusal :=
  svStep sv 1 (isAI 0x0E a imm) (fromPort sv a imm (fun p => p.seq)) s
/-- STIM. -/
def execSvStim (sv a imm : Nat) (s : State) : Host.Outcome State Fault Refusal :=
  svStep sv 1 (isAI 0x0F a imm) (fromPort sv a imm (fun p => if bitAt imm 4 then p.time / 2 ^ 32 else p.time)) s

/-! ### Loads, stores, branches -/

def dataAddr (v : Stove) (b imm : Nat) : Nat := toU 32 ((v.reg b : Int) + sx16 imm)

/-- LW. -/
def execSvLw (sv a b imm : Nat) (s : State) : Host.Outcome State Fault Refusal :=
  svStep sv 1 (isI 0x18 a b imm) (fun s x =>
    let ad := dataAddr (s.stove sv) b imm
    if 65536 ≤ ad || ad % 4 ≠ 0 then .error 3 else setA sv a (fun v => plain (v.dGet ad)) s x) s
/-- SW: the loop records may not be stored to (R312). -/
def execSvSw (sv a b imm : Nat) (s : State) : Host.Outcome State Fault Refusal :=
  svStep sv 1 (isI 0x19 a b imm) (fun s _ =>
    let ad := dataAddr (s.stove sv) b imm
    if dLoopBase ≤ ad || ad % 4 ≠ 0 then .error 3
    else .ok { st := s.modStove sv (fun v => v.dSet ad (v.reg a)) }) s

/-- The target of a branch or a jump. -/
def target (x : Run) (imm : Nat) : Nat := toU 32 ((x.pc : Int) + 4 * sx16 imm)

/-- A branch on sa and sb. -/
def svBranch (op sv a b imm : Nat) (p : Nat → Nat → Bool) : State → Host.Outcome State Fault Refusal :=
  svStep sv 1 (isI op a b imm) (fun s x =>
    let v := s.stove sv
    .ok { st := s, pc := if p (v.reg a) (v.reg b) then some (target x imm) else none })

/-- BEQ. -/
def execSvBeq (sv a b imm : Nat) (s : State) : Host.Outcome State Fault Refusal := svBranch 0x1A sv a b imm (fun x y => x = y) s
/-- BNE. -/
def execSvBne (sv a b imm : Nat) (s : State) : Host.Outcome State Fault Refusal := svBranch 0x1B sv a b imm (fun x y => x ≠ y) s
/-- BLT, signed. -/
def execSvBlt (sv a b imm : Nat) (s : State) : Host.Outcome State Fault Refusal :=
  svBranch 0x1C sv a b imm (fun x y => sx32 x < sx32 y) s
/-- BGE, signed. -/
def execSvBge (sv a b imm : Nat) (s : State) : Host.Outcome State Fault Refusal :=
  svBranch 0x1D sv a b imm (fun x y => sx32 y ≤ sx32 x) s
/-- JAL. -/
def execSvJal (sv a imm : Nat) (s : State) : Host.Outcome State Fault Refusal :=
  svStep sv 1 (isAI 0x1E a imm) (fun s x =>
    .ok { st := s.modStove sv (fun v => v.setReg a ((x.pc + 4) % 2 ^ 32)), pc := some (target x imm) }) s
/-- JR. -/
def execSvJr (sv a : Nat) (s : State) : Host.Outcome State Fault Refusal :=
  svStep sv 1 (isA 0x1F a) (fun s _ => .ok { st := s, pc := some ((s.stove sv).reg a) }) s

/-! ### Special operations (R284) -/

/-- CLAMP between s[c] and s[c + 1], c even; the spec states no result for an odd c: a free value. -/
def execSvClamp (sv a b c : Nat) (s : State) : Host.Outcome State Fault Refusal :=
  svStep sv 1 (isR 0x20 a b c) (fun s _ =>
    let v := s.stove sv
    let r := if c % 2 = 0 then toU 32 (min (max (sx32 (v.reg b)) (sx32 (v.reg c))) (sx32 (v.reg (c + 1)))) else s.free.1
    let s := if c % 2 = 0 then s else s.free.2
    .ok { st := s.modStove sv (fun v => v.setReg a r) }) s

/-- RLIM; a negative limit acts as zero. -/
def execSvRlim (sv a b c : Nat) (s : State) : Host.Outcome State Fault Refusal :=
  svStep sv 1 (isR 0x21 a b c) (setA sv a (fun v =>
    let x := sx32 (v.reg a)
    let lim := max 0 (sx32 (v.reg c))
    sat32 (x + clampI (-lim) lim (sx32 (v.reg b) - x)))) s

/-- TINT over the table at sc; N below 2 or above 1,024 has no stated result: a free value. -/
def execSvTint (sv a b c : Nat) (s : State) : Host.Outcome State Fault Refusal :=
  svStep sv 2 (isR 0x22 a b c) (fun s _ =>
    let v := s.stove sv
    let t := v.reg c
    let ctl := v.dGet (t + 4)
    let n := bits ctl 16 11
    let y := fun (i : Nat) => sx32 (v.dGet (t + 8 + 4 * i))
    let u := sx32 (v.reg b) - sx32 (v.dGet t)
    let sh : Nat := 2 ^ bits ctl 0 5
    let i := (u / (sh : Int)).toNat
    let f := u % (sh : Int)
    if t % 4 ≠ 0 || 65536 < t + 8 || 65536 < t + 8 + 4 * n then .error 3
    else if n < 2 || 1024 < n then .ok { st := s.free.2.modStove sv (fun v => v.setReg a s.free.1) }
    else
      let r := if u < 0 then sat32 (y 0) else if n - 1 ≤ i then sat32 (y (n - 1))
        else sat32 (y i + divHalfUp ((y (i + 1) - y i) * f) sh)
      .ok { st := s.modStove sv (fun v => v.setReg a r.1), flags := r.2 }) s

/-- CRC of sa over the four bytes of sb: k = 0 CRC-32C, 1 the Tirwin CRC; another k has no stated result: a free value. -/
def execSvCrc (sv a b imm : Nat) (s : State) : Host.Outcome State Fault Refusal :=
  svStep sv 1 (isI 0x23 a b imm) (fun s _ =>
    let v := s.stove sv
    let l := leBytes (v.reg b) 4
    let r := if imm = 0 then crc32cRaw (v.reg a) l else if imm = 1 then tirwinRaw (v.reg a) l else s.free.1
    let s := if imm ≤ 1 then s else s.free.2
    .ok { st := s.modStove sv (fun v => v.setReg a r) }) s

/-! ### Accumulators (R283) -/

/-- sat72 of an exact sum: the value and ASATn. -/
def sat72 (n : Nat) (v : Int) : Int × Nat :=
  if v < -2361183241434822606848 then (-2361183241434822606848, 2 ^ (n % 4))
  else if 2361183241434822606847 < v then (2361183241434822606847, 2 ^ (n % 4)) else (v, 0)

/-- acc ← sat72 (acc + k x sb x sc). -/
def svMacc (op : Nat) (k : Int) (sv a b c : Nat) : State → Host.Outcome State Fault Refusal :=
  svStep sv 1 (isR op a b c) (fun s _ =>
    let v := s.stove sv
    let r := sat72 a (v.acc a + k * (sx32 (v.reg b) * sx32 (v.reg c)))
    .ok { st := s.modStove sv (fun v => v.setAcc a r.1), flags := r.2 })

/-- MACC. -/
def execSvMacc (sv a b c : Nat) (s : State) : Host.Outcome State Fault Refusal := svMacc 0x24 1 sv a b c s
/-- MSUB. -/
def execSvMsub (sv a b c : Nat) (s : State) : Host.Outcome State Fault Refusal := svMacc 0x25 (-1) sv a b c s
/-- ACLR. -/
def execSvAclr (sv a : Nat) (s : State) : Host.Outcome State Fault Refusal :=
  svStep sv 1 (isA 0x26 a) (fun s _ => .ok { st := s.modStove sv (fun v => v.setAcc a 0) }) s
/-- ALD. -/
def execSvAld (sv a b c : Nat) (s : State) : Host.Outcome State Fault Refusal :=
  svStep sv 1 (isR 0x27 a b c) (fun s _ =>
    .ok { st := s.modStove sv (fun v => v.setAcc a (sx32 (v.reg b) * 4294967296 + (v.reg c : Int))) }) s
/-- ARD: the accumulator is field b; a shift above 63 has no stated result: a free value. -/
def execSvArd (sv a b imm : Nat) (s : State) : Host.Outcome State Fault Refusal :=
  svStep sv 1 (isI 0x28 a b imm) (fun s _ =>
    if 63 < imm then .ok { st := s.free.2.modStove sv (fun v => v.setReg a s.free.1) }
    else
      let r := sat32 (divHalfUp ((s.stove sv).acc b) (2 ^ imm))
      .ok { st := s.modStove sv (fun v => v.setReg a r.1), flags := r.2 }) s

/-! ### The loop unit (R315 to R321) -/

/-- The record of loop k as the run has staged it. -/
def Stove.staged (v : Stove) (x : Run) (k : Nat) : LoopRec := tget (v.loopRec k) x.loops k

/-- The run's staged record of loop k becomes r; the change of state waits for END. -/
def State.stageLoop (s : State) (sv k : Nat) (r : LoopRec) : State :=
  s.modStove sv (fun v => { v with
    run := v.run.map (fun x =>
    let old := lrState (v.staged x k)
    { x with
      loops := tset x.loops k r,
      loopEvs := if old = lrState r then x.loopEvs else x.loopEvs ++ [(k, old, lrState r + 4 * lrField r 16 8 4)] }) })

/-- rate_limit (a, b, d): the result and whether it was limited. -/
def rateLimit (duMax a : Nat) (b d : FpV) : FpV × Bool :=
  if (fpOf duMax).zero then (b, false)
  else
    let g := fsub b (fpv a)
    let nd := d.1 ^^^ 2147483648
    (fadd (fpv a) (fclamp g.1 nd d.1, g.2 ||| d.2), flt g.1 nd || flt d.1 g.1)

/-- n of R316 as an integer. -/
def stepCount (tStep tPrev stamp : Nat) (first : Bool) : Nat :=
  if tStep = 0 || first then 1 else (clampI 1 4 (divHalfUp ((stamp : Int) - tPrev) tStep)).toNat

/-- The record after a step that is not stopped by a NaN, and the flags of the operations the step made (R283, R316); `jump`: the step
outputs SAFE_OUT without the rate limit (R320). -/
def loopCompute (r : LoopRec) (pv e ff stamp : Nat) (jump : Bool) : LoopRec × Nat :=
  let g := fun i => r.getD i 0
  let n := stepCount (g 5) (g 22 + 2 ^ 32 * g 23) stamp (lrFirst r)
  let nf := [0, 0x3F800000, 0x40000000, 0x40400000, 0x40800000].getD n 0
  let p := fmul (fpv (g 0)) (fpv e)
  let uPrev := g 18
  let d := fmul (fpv (g 4)) (fpv nf)
  let st := lrState r
  let di := fmul (fmul (fpv (g 1)) (fpv e)) (fpv nf)
  let v := fadd (fadd (fadd p (fpv (g 17))) di) (fpv ff)
  let i :=
    if st ≠ 2 then fpv (g 17)
    else if lrFirst r then fsub (fsub (fpv uPrev) p) (fpv ff)
    else if (flt (g 3) v.1 && flt 0 di.1) || (flt v.1 (g 2) && flt di.1 0) then (g 17, v.2)
    else fadd (g 17, v.2) di
  let x := fadd (fadd p i) (fpv ff)
  let man := if jump then (fpv (g 6), false) else rateLimit (g 4) uPrev (fpv (g 9)) d
  let auto := rateLimit (g 4) uPrev (fclamp x.1 (g 2) (g 3), x.2) d
  let raw := if st = 1 then man.1.1 else x.1
  let hi := flt (g 3) raw
  let lo := flt raw (g 2)
  let u := if st = 1 then fclamp man.1.1 (g 2) (g 3) else if st = 2 then auto.1.1 else uPrev
  let flags := p.2 ||| (if st = 1 then man.1.2 else if st = 2 then auto.1.2 else 0)
  let was := lrField r 16 3 2 ≠ 0
  let r := lrPut r 16 2 1 0
  let r := if st = 1 || st = 2 then
      let r := lrPut (lrPut (lrPut r 16 3 1 (b2n hi)) 16 4 1 (b2n lo)) 16 5 1 (b2n (if st = 1 then man.2 else auto.2))
      if (hi || lo) && !was then lrBump r 25 16 16 13 else r
    else r
  let r := (((((r.set 17 i.1).set 18 u).set 19 e).set 20 pv).set 21 ff).set 22 (stamp % 2 ^ 32)
  let r := lrBump (r.set 23 (stamp / 2 ^ 32 % 2 ^ 32)) 24 0 32 15
  (if 1 < n then lrBump r 26 0 16 14 else r, flags)

/-- A write to LPV: the step of R316 for the loop in LSEL. -/
def loopStep (sv pv : Nat) : Effect := fun s x =>
  let v := s.stove sv
  let k := v.lsel
  if !bitAt (v.law x.law).loops k then .error 7
  else if x.stepped.contains k then .error 5
  else
    let r := v.staged x k
    let sp := if bitAt (r.getD 7 0) 0 then (tget 0 v.lsp k).toNat else r.getD 8 0
    let err := if bitAt (r.getD 7 0) 5 then fsub (fpv pv) (fpv sp) else fsub (fpv sp) (fpv pv)
    let e := err.1
    let ff := if bitAt (r.getD 7 0) 1 then (tget 0 v.lff k).toNat else 0
    let mark := fun (s : State) => s.modStove sv (fun v => { v with run := v.run.map (fun y => { y with stepped := k :: y.stepped }) })
    if fpIsNan e || fpIsNan ff then .ok { st := mark (s.stageLoop sv k (lrTrap 7 r)), flags := err.2 }
    else
      let jump := bitAt v.safeJump k && lrState r = 1
      let c := loopCompute r pv e ff x.trigTime jump
      .ok { st := mark (s.stageLoop sv k c.1), flags := err.2 ||| c.2 }

/-- LCTL: 1 HOLD request, 2 RESUME request; on the staged state, at once (R320, R321). -/
def loopCtl (sv val : Nat) : Effect := fun s x =>
  let v := s.stove sv
  let k := v.lsel
  let r := v.staged x k
  if val = 1 && lrState r = 2 then .ok { st := s.stageLoop sv k (lrHold 4 r) }
  else if val = 2 && lrState r = 3 && lrField r 16 8 4 = 4 && bitAt (r.getD 7 0) 2 && !(s.tripLow && lrField r 7 3 2 ≠ 0) then
    .ok { st := s.stageLoop sv k (lrAuto r) }
  else .ok { st := s }

/-- A write to a system register (R285, R315). -/
def sysWrite (sv reg val : Nat) : Effect := fun s x =>
  let k := (s.stove sv).lsel
  match reg with
  | 5 => .ok { st := s.modStove sv (fun v => { v with sticky := v.sticky - (v.sticky &&& val) }) }
  | 8 => .ok { st := s.modStove sv (fun v => { v with lsel := val % 8 }) }
  | 9 => .ok { st := s.modStove sv (fun v => { v with lsp := tset v.lsp k (BitVec.ofNat 32 val) }) }
  | 10 => .ok { st := s.modStove sv (fun v => { v with lff := tset v.lff k (BitVec.ofNat 32 val) }) }
  | 11 => loopStep sv val s x
  | 14 => loopCtl sv val s x
  | _ => .ok { st := s }

/-- A read of a system register; LCTL is write-only and reads zero (R12, R315); a number the spec does not list has no stated value: none. -/
def Stove.sysRead (v : Stove) (x : Run) (reg : Nat) : Option Nat :=
  let r := v.staged x v.lsel
  match reg with
  | 0 => some x.trigInfo
  | 1 => some x.law
  | 2 => some (x.trigTime % 2 ^ 32)
  | 3 => some (x.trigTime / 2 ^ 32)
  | 4 => some x.cycle
  | 5 => some v.sticky
  | 6 => some (b2n v.psBusy + 256 * v.psStatus)
  | 7 => some (v.law x.law).overruns.n
  | 8 => some v.lsel
  | 9 => some (tget 0 v.lsp v.lsel).toNat
  | 10 => some (tget 0 v.lff v.lsel).toNat
  | 11 => some (r.getD 20 0)
  | 12 => some (r.getD 18 0)
  | 13 => some (bits (r.getD 16 0) 0 12)
  | 14 => some 0
  | 15 => some (r.getD 19 0)
  | _ => none

/-- SRR. -/
def execSvSrr (sv a imm : Nat) (s : State) : Host.Outcome State Fault Refusal :=
  svStep sv 1 (isAI 0x17 a imm) (fun s x =>
    match (s.stove sv).sysRead x imm with
    | some v => .ok { st := s.modStove sv (fun w => w.setReg a v) }
    | none => .ok { st := s.free.2.modStove sv (fun w => w.setReg a s.free.1) }) s
/-- SRW. -/
def execSvSrw (sv a imm : Nat) (s : State) : Host.Outcome State Fault Refusal :=
  svStep sv 1 (isAI 0x29 a imm) (fun s x => sysWrite sv imm ((s.stove sv).reg a) s x) s
/-- LOOP_STEP: an SRW to LPV. -/
def execSvLoopStep (sv a imm : Nat) (s : State) : Host.Outcome State Fault Refusal :=
  svStep sv 1 (fun w => isAI 0x29 a imm w && imm = 11) (fun s x => loopStep sv ((s.stove sv).reg a) s x) s
/-- LCTL_HOLD: an SRW of 1 to LCTL. -/
def execSvLctlHold (sv a imm : Nat) (s : State) : Host.Outcome State Fault Refusal :=
  svStep sv 1 (fun w => isAI 0x29 a imm w && imm = 14 && (s.stove sv).reg a = 1) (fun s x => loopCtl sv 1 s x) s
/-- LCTL_RESUME: an SRW of 2 to LCTL. -/
def execSvLctlResume (sv a imm : Nat) (s : State) : Host.Outcome State Fault Refusal :=
  svStep sv 1 (fun w => isAI 0x29 a imm w && imm = 14 && (s.stove sv).reg a = 2) (fun s x => loopCtl sv 2 s x) s

/-! ### Staged outputs (R290, R291) -/

/-- The staged outputs of the run changed. -/
def State.stageOut (s : State) (sv : Nat) (f : Staged → Staged) : State :=
  s.modStove sv (fun v => { v with run := v.run.map (fun x => { x with staged := f x.staged }) })

/-- A range of data SRAM an output reads at END. -/
def dataRange (a len : Nat) : Bool := a % 4 = 0 && decide (a + len ≤ 65536)

/-- FOUT. -/
def execSvFout (sv a imm : Nat) (s : State) : Host.Outcome State Fault Refusal :=
  svStep sv 1 (isAI 0x2A a imm) (fun s _ =>
    let v := s.stove sv
    if !v.forceBind.any (fun e => e.1 = imm % 8) then .error 7
    else .ok { st := s.stageOut sv (fun g => { g with force := tset g.force (imm % 8) (BitVec.ofNat 32 (v.reg a)) }) }) s
/-- MSG. -/
def execSvMsg (sv a imm : Nat) (s : State) : Host.Outcome State Fault Refusal :=
  svStep sv 1 (isAI 0x2B a imm) (fun s x =>
    let v := s.stove sv
    match v.msgBind.find? (fun e => e.1 = imm % 16) with
    | none => .error 7
    | some b =>
      if !dataRange (v.reg a) b.2.length then .error 3
      else if 4 ≤ x.staged.msgs.length then .error 5
      else .ok { st := s.stageOut sv (fun g => { g with msgs := g.msgs ++ [(imm % 16, v.reg a)] }) }) s
/-- QREC. -/
def execSvQrec (sv a imm : Nat) (s : State) : Host.Outcome State Fault Refusal :=
  svStep sv 1 (isAI 0x2C a imm) (fun s x =>
    let v := s.stove sv
    if !v.recBind.any (fun e => e.1 = imm % 4) then .error 7
    else if !dataRange (v.reg a) 48 then .error 3
    else if 4 ≤ x.staged.recs.length then .error 5
    else .ok { st := s.stageOut sv (fun g => { g with recs := g.recs ++ [(imm % 4, v.reg a)] }) }) s
/-- TRIPR: only a stove of the protection hearth (R291, R492). -/
def execSvTripr (sv a : Nat) (s : State) : Host.Outcome State Fault Refusal :=
  svStep sv 1 (isA 0x2D a) (fun s _ =>
    if s.trust.protHearth ≠ some (s.stoveOwner sv) then .error 1
    else .ok { st := s.stageOut sv (fun g => { g with trip := some ((s.stove sv).reg a ≠ 0) }) }) s
/-- TRG. -/
def execSvTrg (sv : Nat) (s : State) : Host.Outcome State Fault Refusal :=
  svStep sv 1 (fun w => fOp w = 0x2E) (fun s x =>
    if x.staged.trigger then .error 5 else .ok { st := s.stageOut sv (fun g => { g with trigger := true }) }) s
/-- EVT. -/
def execSvEvt (sv a : Nat) (s : State) : Host.Outcome State Fault Refusal :=
  svStep sv 1 (isA 0x2F a) (fun s x =>
    if x.staged.evt.isSome then .error 5
    else .ok { st := s.stageOut sv (fun g => { g with evt := some ((s.stove sv).reg a % 65536) }) }) s
/-- PSREQ. -/
def execSvPsreq (sv a : Nat) (s : State) : Host.Outcome State Fault Refusal :=
  svStep sv 1 (isA 0x39 a) (fun s x =>
    if !dataRange ((s.stove sv).reg a) 16 then .error 3
    else if x.staged.psreq.isSome then .error 5
    else .ok { st := s.stageOut sv (fun g => { g with psreq := some ((s.stove sv).reg a) }) }) s

/-! ### FP32 (R281, R283) -/

/-- FADD. -/
def execSvFadd (sv a b c : Nat) (s : State) : Host.Outcome State Fault Refusal :=
  svR3 0x30 1 sv a b c (fun x y => (fpOf x).add (fpOf y)) s
/-- FSUB. -/
def execSvFsub (sv a b c : Nat) (s : State) : Host.Outcome State Fault Refusal :=
  svR3 0x31 1 sv a b c (fun x y => (fpOf x).add (fpOf y).negate) s
/-- FMUL. -/
def execSvFmul (sv a b c : Nat) (s : State) : Host.Outcome State Fault Refusal :=
  svR3 0x32 1 sv a b c (fun x y => (fpOf x).mul (fpOf y)) s
/-- FMA: sa + sb x sc, rounded once. -/
def execSvFma (sv a b c : Nat) (s : State) : Host.Outcome State Fault Refusal :=
  svStep sv 1 (isR 0x33 a b c) (setA sv a (fun v => (fpOf (v.reg a)).fma (fpOf (v.reg b)) (fpOf (v.reg c)))) s

/-- FMIN and FMAX, with a free value where no result is stated. -/
def svPick (op : Nat) (mx : Bool) (sv a b c : Nat) : State → Host.Outcome State Fault Refusal :=
  svStep sv 1 (isR op a b c) (fun s _ =>
    let v := s.stove sv
    let r := fpPick mx (v.reg b) (v.reg c) s.free.1
    .ok { st := s.free.2.modStove sv (fun v => v.setReg a r.1), flags := r.2 })

/-- FMIN. -/
def execSvFmin (sv a b c : Nat) (s : State) : Host.Outcome State Fault Refusal := svPick 0x34 false sv a b c s
/-- FMAX. -/
def execSvFmax (sv a b c : Nat) (s : State) : Host.Outcome State Fault Refusal := svPick 0x35 true sv a b c s
/-- FABS. -/
def execSvFabs (sv a b : Nat) (s : State) : Host.Outcome State Fault Refusal :=
  svStep sv 1 (fun w => fOp w = 0x36 && fA w = a && fB w = b) (setA sv a (fun v => plain (fpWithSign (v.reg b) false))) s
/-- FNEG. -/
def execSvFneg (sv a b : Nat) (s : State) : Host.Outcome State Fault Refusal :=
  svStep sv 1 (fun w => fOp w = 0x37 && fA w = a && fB w = b) (setA sv a (fun v => plain (fpWithSign (v.reg b) (!bitAt (v.reg b) 31)))) s
/-- FCMP with the relation in x[10:9]; 3 traps with ILLEGAL. -/
def execSvFcmp (sv a b c x : Nat) (s : State) : Host.Outcome State Fault Refusal :=
  svStep sv 1 (fun w => isR 0x38 a b c w && bits w 9 2 = x) (fun s r =>
    if x = 3 then .error 1
    else setA sv a (fun v => plain (b2n ((fpOf (v.reg b)).cmp x (fpOf (v.reg c))))) s r) s
/-- FDIV, 8 cycles. -/
def execSvFdiv (sv a b c : Nat) (s : State) : Host.Outcome State Fault Refusal :=
  svR3 0x3A 8 sv a b c (fun x y => (fpOf x).div (fpOf y)) s
/-- FSQRT, 8 cycles. -/
def execSvFsqrt (sv a b : Nat) (s : State) : Host.Outcome State Fault Refusal :=
  svStep sv 8 (fun w => fOp w = 0x3B && fA w = a && fB w = b) (setA sv a (fun v => (fpOf (v.reg b)).sqrt)) s

/-- A conversion whose scale e is 0 to 63; another e has no stated result: a free value. -/
def svScale (op sv a b imm : Nat) (f : Nat → Nat × Nat) : State → Host.Outcome State Fault Refusal :=
  svStep sv 1 (isI op a b imm) (fun s _ =>
    if 63 < imm then .ok { st := s.free.2.modStove sv (fun v => v.setReg a s.free.1) }
    else
      let r := f ((s.stove sv).reg b)
      .ok { st := s.modStove sv (fun v => v.setReg a r.1), flags := r.2 })

/-- FCVTSW. -/
def execSvFcvtsw (sv a b imm : Nat) (s : State) : Host.Outcome State Fault Refusal :=
  svScale 0x3C sv a b imm (fun x => fpFromInt (sx32 x) imm) s
/-- FCVTWS. -/
def execSvFcvtws (sv a b imm : Nat) (s : State) : Host.Outcome State Fault Refusal :=
  svScale 0x3D sv a b imm (fun x => fpToInt x imm) s

/-- ILLEGAL: the one opcode R281 reserves. -/
def execSvIllegal (sv op : Nat) (s : State) : Host.Outcome State Fault Refusal :=
  svStep sv 1 (fun w => fOp w = op && op = 0x3E) (fun _ _ => .error 1) s

/-! ### Program-store requests of a law (R302, R303) -/

/-- An enabled law's code range meets a range of bank k; the stove is any of the die when `only` is none (R300). -/
def State.codeMeets (s : State) (k lo n : Nat) (only : Option Nat) : Bool :=
  (List.range 4).any (fun j =>
    let sv := 4 * (k / 2) + j
    (only.isNone || only = some sv) && (s.stove sv).laws.any (fun e =>
      e.2.enable && (match psWindow sv e.2.codeBase with
        | some (b, off) => b = k && decide (off < lo + n) && decide (lo < off + e.2.codeLen)
        | none => false)))

/-- Whether a program or erase at the head of bank k must wait: a line was filled from it within 1 ms (R300). -/
def State.xipHeld (s : State) (k : Nat) : Bool :=
  match (s.bank k).lastFill with
  | some t => decide (s.now < t + 1000000)
  | none => false

/-- The head of an idle bank is looked at: held by execute-in-place from now on, or not (R300). -/
def State.bankHead (s : State) (k : Nat) : State :=
  let b := s.bank k
  match b.queue with
  | [] => s.modBank k (fun b => { b with heldSince := none })
  | o :: _ =>
    if b.running then s
    else if o.kind ≠ 0 && s.xipHeld k then
      s.modBank k (fun b => { b with heldSince := if b.heldSince.isNone then some s.now else b.heldSince })
    else s.modBank k (fun b => { b with heldSince := none })

def State.enqueuePs (s : State) (k : Nat) (o : PsOp) : State :=
  (s.modBank k (fun b => { b with queue := b.queue ++ [o] })).bankHead k

/-- The status of a request known at END, none when it is issued (R303). -/
def State.psreqStatus (s : State) (sv op off data k lo : Nat) : Option Status :=
  let v := s.stove sv
  let n := if op = 1 then 256 else 65536
  if v.psBusy then some .busy
  else if (op ≠ 1 && op ≠ 2) || v.psCount = 0 || off % n ≠ 0 || v.psCount * 65536 < off + n
    || (op = 1 && !dataRange data 256) then some .badParam
  else if s.codeMeets k 0 0x400000 (some sv) then some .bankXip
  else if s.codeMeets k lo n none then some .busy
  else none

/-- The release of a PSREQ whose descriptor stands at address a; its reserved fields are ignored (R11, R302, R303). -/
def State.releasePsreq (s : State) (sv a : Nat) : State :=
  let v := s.stove sv
  let op := v.dGet a % 4
  let off := v.dGet (a + 4)
  let data := v.dGet (a + 8)
  let k := 2 * (sv / 4) + v.psBank
  let lo := v.psFirst * 65536 + off
  match s.psreqStatus sv op off data k lo with
  | some x => s.modStove sv (fun v => { v with psStatus := x.code })
  | none =>
    let bytes := if op = 1 then (List.range 256).map (fun i => memGet 0 v.dsram (data + i)) else []
    (s.modStove sv (fun v => { v with psBusy := true })).enqueuePs k { kind := op, off := lo, data := bytes, stove := some sv }

/-! ### END (R291) -/

/-- One message: in a TIRWIN PDU from a protection stove, else in a MESSAGE or TRIGGER frame by channel (R435, R493). -/
def State.releaseMsg (s : State) (sv c a : Nat) : State :=
  let v := s.stove sv
  let b := tget { node := 0, channel := 0, addr := 0, length := 0 : MsgBind } v.msgBind c
  let l := (List.range b.length).map (fun i => memGet 0 v.dsram (a + i))
  if s.trust.protHearth = some (s.stoveOwner sv) then s.formPdu b.channel { kind := 0, payload := l }
  else
    let s := s.modStove sv (fun v => { v with msgBind := tset v.msgBind c { b with mseq := (b.mseq + 1) % 2 ^ 32 } })
    if s.isAlone then s
    else if 1008 ≤ b.channel then
      let t := leNat (l.take 8)
      (s.sendFrame { type := .trigger, dst := none, aux := b.channel - 1008, body := t }).sendTriggers 5 (64 * t)
        (fun _ q => q.trigArg % 16 = b.channel - 1008)
    else
      s.sendFrame {
                    type := .message, dst := if b.channel < 512 then some b.node else none, aux := b.channel,
                    body := mkRec [⟨0, 0, 10, b.channel⟩, ⟨2, 0, 8, b.length⟩, ⟨4, 0, 32, b.mseq⟩, ⟨8, 0, 8 * b.length, leNat l⟩] }

/-- One record to the bound queue: the device's 16 bytes and 48 of data SRAM (R291, log 39). -/
def State.releaseRec (s : State) (sv law seq q a : Nat) : State :=
  let qid := (tget { qid := 0, addr := 0 : RecBind } (s.stove sv).recBind q).qid
  let l := (List.range 48).map (fun i => memGet 0 (s.stove sv).dsram (a + i))
  let e := mkRec [⟨0, 0, 64, s.now⟩, ⟨8, 0, 32, seq⟩, ⟨12, 0, 18, qid⟩, ⟨14, 2, 5, sv⟩, ⟨14, 7, 3, law⟩, ⟨16, 0, 384, leNat l⟩]
  s.postRecord qid e (s.stoveOwner sv)

/-- LAW_EVENT at most once a law in 10 ms; the others count in SKIP_EV. -/
def State.releaseEvt (s : State) (sv law code : Nat) : State :=
  let k := 0x0702 * 2 ^ 40 + (8 * sv + law)
  let free := match (tget {} s.host.limits k).last with
    | none => true
    | some t => decide (t + 10000000 ≤ s.now)
  let s := if free then s else s.modStove sv (fun v => v.modLaw law (fun l => { l with skipEv := l.skipEv.bump 16 }))
  s.raiseLim (8 * sv + law) 0x0702 (s.stoveOwner sv) sv (law + 65536 * code)

/-- The run ends and its outputs are released in the order of R291; the loop steps commit (R318). -/
def State.endRun (s : State) (sv : Nat) (x : Run) : State :=
  let g := x.staged
  let s := s.modStove sv (fun v =>
    let v : Stove := x.loops.foldl (fun v e => v.putLoop e.1 e.2) v
    let v := { v with run := none, safeJump := v.safeJump - (v.safeJump &&& maskOf 8 (fun k => x.stepped.contains k)) }
    v.modLaw x.law (fun l => { l with maxSeen := max l.maxSeen (min 65535 (x.cycle + 1)), lastRun := s.stamp }))
  let s := x.loopEvs.foldl (fun s e => s.loopEvent sv e.1 e.2.1 (e.2.2 % 4) (((s.stove sv).loopRec e.1).getD 7 0) (e.2.2 / 4)) s
  let s := g.force.foldl (fun s e => s.stoveTarget sv (tget (0, 0) (s.stove sv).forceBind e.1).2 e.2) s
  let s := match g.trip with
    | some b => (s.modStove sv (fun v => { v with tripReq := b })).tripCheck
    | none => s
  let s := if g.trigger then s.sendTriggers 3 s.node.clock (fun _ q => q.trigArg % 32 = sv) else s
  let s := g.msgs.foldl (fun s e => s.releaseMsg sv e.1 e.2) s
  let s := g.recs.foldl (fun s e => s.releaseRec sv x.law x.trigSeq e.1 e.2) s
  let s := match g.evt with
    | some c => s.releaseEvt sv x.law c
    | none => s
  let s := match g.psreq with
    | some a => s.releasePsreq sv a
    | none => s
  s.runEnded sv x.law

/-- END. -/
def execSvEnd (sv : Nat) (s : State) : Host.Outcome State Fault Refusal :=
  svStep sv 1 (fun w => fOp w = 0x3F) (fun s x => .ok { st := s.endRun sv x }) s

end Sys2Proof.Machine
end

