-- ==== Sys2Proof/Machine/StoveCmd.lean ====
section
/-! DEFINITION. The commands of stoves, laws, loops and the program store, and the operations of a bank (R296 to R311, R326 to R330). -/

set_option Elab.async false

namespace Sys2Proof.Machine

def beyondStove (s : State) (sv : Nat) : Bool × Status := (s.nStoves ≤ sv, .badParam)
def notStoveOwner (s : State) (r : Req) (sv : Nat) : Bool × Status := (!r.for (s.stoveOwner sv), .rights)
def stoveIsFenced (s : State) (sv : Nat) : Bool × Status := (s.stoveFenced sv, .fenced)
/-- The die of a stove is not kindled yet (R375). -/
def State.stoveDark (s : State) (sv : Nat) : Bool := !(tget {} s.node.kindle (sv / 4)).kindled
def stoveSealed (s : State) (sv : Nat) : Bool × Status := (s.intact (s.stoveOwner sv), .sealed)

/-! ### Stoves and laws (R304 to R310) -/

/-- An instruction range meets the code range of an enabled law. -/
def Stove.codeBusy (v : Stove) (lo n : Nat) : Bool :=
  v.laws.any (fun e => e.2.enable && decide (e.2.codeBase < lo + n) && decide (lo < e.2.codeBase + e.2.codeLen))

def stoveLoadSpec : CmdSpec :=
  { opcode := 0x0701
    names := stoveNames
    opLogged := fun _ _ => true
    data := fun r _ => [{ addr := r.u 32 0 64, len := r.u 24 0 32 % 131072, wr := false, align := 64 }]
    refuse := fun r w s =>
      let sv := r.u 16 0 5
      let off := r.u 20 0 32
      let n := r.u 24 0 32
      let bad := off % 64 ≠ 0 || n % 64 ≠ 0 || n < 64 || 65536 < n || 65536 < off + n || (r.b 17 0 && dLoopBase < off + n)
      [beyondStove s sv, (bad, .badParam),
       (!bad && s.dataAnswered r (r.u 32 0 64) n && crc32c (s.dataBytes r (r.u 32 0 64) n) ≠ r.u 28 0 32, .badParam), needs w 1,
       notStoveOwner s r sv, stoveIsFenced s sv, stoveSealed s sv, (!r.b 17 0 && (s.stove sv).codeBusy off n, .busy)]
    act := fun r s =>
      let l := s.dataBytes r (r.u 32 0 64) (r.u 24 0 32)
      { st := s.modStove (r.u 16 0 5) (fun v =>
          if r.b 17 0 then { v with dsram := memSetBytes 0 v.dsram (r.u 20 0 32) l }
          else { v with isram := memSetBytes 0 v.isram (r.u 20 0 32) l }) } }

/-- STOVE_LOAD (R305). -/
def execStoveLoad (r : Req) (s : State) : Host.Outcome State Fault Refusal := .next (stoveLoadSpec.run r s)

/-- The law a LAW_CONFIG asks for, over the slot it replaces. -/
def lawOf (r : Req) (l : Law) : Law :=
  { l with
    enable := r.b 17 3, trigKind := r.u 17 4 2, trigMask := r.u 18 0 16, entry := r.u 20 0 32, codeBase := r.u 24 0 32,
    codeLen := r.u 28 0 32, maxCycles := r.u 32 0 16, ovrLimit := r.u 34 0 8, loops := r.u 35 0 8, alignWait := r.u 36 0 16 }

/-- The region of R279 an instruction address lies in. -/
def codeRegion (a : Nat) : Nat :=
  if a < 0x10000 then 1 else if a < 0x40000000 then 0 else if a < 0x40400000 then 2 else if a < 0x40800000 then 3 else 0

/-- What R286 and the layout of R306 refuse. -/
def Law.bad (l : Law) : Bool :=
  l.trigKind = 3 || (l.trigKind ≤ 1 && l.trigMask = 0) || l.codeBase % 4 ≠ 0 || l.entry % 4 ≠ 0 || l.codeLen < 4 || 4194304 < l.codeLen
  || l.maxCycles = 0 || (l.trigKind = 1 && l.alignWait < 10) || l.entry < l.codeBase || l.codeBase + l.codeLen ≤ l.entry
  || codeRegion l.codeBase = 0 || codeRegion (l.codeBase + l.codeLen - 1) ≠ codeRegion l.codeBase

def lawConfigSpec : CmdSpec :=
  { opcode := 0x0702
    budget := true
    names := stoveNames
    opLogged := fun _ _ => true
    refuse := fun r w s =>
      let sv := r.u 16 0 5
      let i := r.u 17 0 3
      let v := s.stove sv
      let old := v.law i
      let new := lawOf r old
      let on := old.enable && !old.disabling
      let shared := new.enable && v.laws.any (fun e => e.1 ≠ i && e.2.enable && e.2.loops &&& new.loops ≠ 0)
      [beyondStove s sv, (new.bad, .badParam), (shared, .badParam), needs w 1, notStoveOwner s r sv, stoveIsFenced s sv,
       stoveSealed s sv, (old.enable && { new with enable := true } ≠ old && { new with enable := true, disabling := true } ≠ old, .busy),
       (new.enable && !on && (s.loadBad (v.modLaw i (fun _ => new)) (s.stoveStepChecked (sv / 4))
         || s.pathWorse (s.modStove sv (·.modLaw i (fun _ => new)))), .budget)]
    act := fun r s =>
      let sv := r.u 16 0 5
      let i := r.u 17 0 3
      let running : Bool := match (s.stove sv).run with
        | some x => x.law = i
        | none => false
      { st := (s.modStove sv (fun v => v.modLaw i (fun l =>
          let n := lawOf r l
          if n.enable then { n with disabling := false }
          else if running then { n with enable := true, disabling := true }
          else { n.unpend with disabling := false }))).takePending (sv / 4) } }

/-- LAW_CONFIG (R286, R294, R306). An enabled law releases force targets and messages, which the paths must carry (R47, R431). -/
def execLawConfig (r : Req) (s : State) : Host.Outcome State Fault Refusal := .next (lawConfigSpec.run r s)

/-- A node number the ring has: of those in the tables a manager keeps, or in the order a worker holds (R304, log 19). -/
def State.nodeThere (s : State) (n : Nat) : Bool :=
  n = s.ring.nodeNo || (!s.isAlone && (if s.isWorker then s.ring.order.contains n else (tget {} s.ring.table n).present))

/-- The stream of an input binding. -/
def bindStream (r : Req) : Nat := streamKey (r.u 20 0 6) (r.u 22 0 16) (r.u 24 0 5) (r.u 24 5 2) 0

/-- The binding named is valid and an enabled law uses it: an input by its TRIG_MASK, an output of any law (log 40). -/
def Stove.bindBusy (v : Stove) (cls i : Nat) : Bool :=
  let on := fun (p : Law → Bool) => v.laws.any (fun e => e.2.enable && p e.2)
  match cls with
  | 0 => (tget {} v.ports i).bound.isSome && on (fun l => bitAt l.trigMask i)
  | 1 => v.forceBind.any (fun e => e.1 = i) && on (fun _ => true)
  | 2 => v.msgBind.any (fun e => e.1 = i) && on (fun _ => true)
  | _ => v.recBind.any (fun e => e.1 = i) && on (fun _ => true)

/-- The bindings after a STOVE_BIND. -/
def Stove.bind (v : Stove) (r : Req) : Stove :=
  let i := r.u 18 0 4
  let valid := r.b 17 7
  match r.u 17 0 2 with
  | 0 => { v with ports := if valid then tset v.ports i { bound := some (bindStream r) } else terase v.ports i }
  | 1 => { v with forceBind := if valid then tset v.forceBind i (r.u 20 0 6, r.u 22 0 16) else terase v.forceBind i }
  | 2 =>
    let b : MsgBind := { node := r.u 20 0 6, channel := r.u 22 0 16, addr := 0, length := r.u 25 0 8 }
    { v with msgBind := if valid then tset v.msgBind i b else terase v.msgBind i }
  | _ => { v with recBind := if valid then tset v.recBind i { qid := r.u 28 0 18, addr := 0 } else terase v.recBind i }

/-- What the layout of R307 and R493 refuse of a valid binding. -/
def State.bindBad (s : State) (r : Req) : Bool :=
  let len := r.u 25 0 8
  let ch := r.u 22 0 16
  let prot := s.trust.protHearth = some (s.stoveOwner (r.u 16 0 5))
  match r.u 17 0 2 with
  | 0 => r.u 24 5 2 = 3 || !s.nodeThere (r.u 20 0 6) || 256 ≤ ch || (r.u 20 0 6 = s.ring.nodeNo && s.nTiles ≤ ch)
  | 1 => 8 ≤ r.u 18 0 4 || r.u 20 0 6 ≠ s.ring.nodeNo || s.nTiles ≤ ch
  | 2 =>
    len < 4 || 64 < len || len % 4 ≠ 0 || 1024 ≤ ch || (!prot && !s.nodeThere (r.u 20 0 6))
    || (prot && (48 < len || 64 ≤ ch || !(s.conn ch).dir))
  | _ =>
    4 ≤ r.u 18 0 4 || (!s.isWorker && s.recordQueueBad (r.u 28 0 18))

/-- The resource of a valid binding is not of the stove's hearth: what this node knows of it (R204, R277). -/
def State.bindRights (s : State) (r : Req) : Bool :=
  let h := s.stoveOwner (r.u 16 0 5)
  match r.u 17 0 2 with
  | 0 => s.knowsHolder (bindStream r) && s.streamHolder (bindStream r) ≠ h
  | 1 => s.tileOwner (r.u 22 0 16) ≠ h
  | 2 => false
  | _ => !s.isWorker && s.qidOwner (r.u 28 0 18) ≠ some (h + 1)

/-- A stream of another node is asked for, or no longer, with a CMD frame to that node that names the stove's hearth h: a stream that some stove of this node still reads
is not given up (R307, R429, log 31). -/
def State.subscribe (s : State) (k h : Nat) (on : Bool) : State :=
  if keyNode k = s.ring.nodeNo || s.isAlone || (!on && !(s.readers k).isEmpty) then s
  else s.sendAcked .cmd (keyNode k) (mkRec [⟨0, 0, 8, fnOfHearth h⟩, ⟨2, 0, 8, b2n on⟩, ⟨3, 0, 8, 2⟩, ⟨16, 0, 64, k⟩])

/-- What the manager refuses of a binding on a worker: a stream of any node that the stove's hearth does not hold, a queue that takes no
records or is another function's (R204, R277, R307). -/
def State.awayBind (s : State) (r : Req) : List (Bool × Status) :=
  let h := tget 0 (s.layoutOf (r.u 4 0 6)).stoveOwner (r.u 16 0 5)
  let q := r.u 28 0 18
  let input := r.b 17 7 && r.u 17 0 2 = 0
  let rec_ := r.b 17 7 && r.u 17 0 2 = 3
  [(rec_ && s.recordQueueBad q, .badParam), (input && s.streamHolder (bindStream r) ≠ h, .rights),
   (rec_ && s.qidOwner q ≠ some (h + 1), .rights)]

def stoveBindSpec : CmdSpec :=
  { opcode := 0x0703
    away := fun r s => s.awayBind r
    budget := true
    names := fun r => stoveNames r ++ nNode 1 :: (match r.u 17 0 2 with
      | 0 => if r.u 20 0 6 = 0 then [nTile (r.u 22 0 16)] else []
      | 1 => [nTile (r.u 22 0 16)]
      | 3 => [nQueue (r.u 28 0 18)]
      | _ => [])
    opLogged := fun _ _ => true
    refuse := fun r w s =>
      let sv := r.u 16 0 5
      let valid := r.b 17 7
      let new := s.modStove sv (·.bind r)
      [beyondStove s sv, (valid && s.bindBad r, .badParam), (!valid && (4 ≤ r.u 18 0 4 && r.u 17 0 2 = 3 || 8 ≤ r.u 18 0 4 && r.u 17 0 2 = 1), .badParam),
       needs w 1, notStoveOwner s r sv, (valid && s.bindRights r, .rights), stoveIsFenced s sv, stoveSealed s sv,
       ((s.stove sv).bindBusy (r.u 17 0 2) (r.u 18 0 4), .busy), (valid && r.u 17 0 2 < 3 && s.pathWorse new, .budget)]
    act := fun r s =>
      let sv := r.u 16 0 5
      let old := (tget {} (s.stove sv).ports (r.u 18 0 4)).bound
      let s := s.modStove sv (·.bind r)
      if r.u 17 0 2 ≠ 0 then { st := s }
      else
        let s := match old with
          | some k => s.subscribe k (s.stoveOwner sv) false
          | none => s
        { st := (if r.b 17 7 then s.subscribe (bindStream r) (s.stoveOwner sv) true else s).takePending (sv / 4) } }

/-- STOVE_BIND (R307). -/
def execStoveBind (r : Req) (s : State) : Host.Outcome State Fault Refusal := .next (stoveBindSpec.run r s)

def stoveConfigSpec : CmdSpec :=
  { opcode := 0x0704
    names := stoveNames
    opLogged := fun _ _ => true
    refuse := fun r w s =>
      let sv := r.u 16 0 5
      let n := r.u 22 0 7
      [beyondStove s sv, (n ≠ 0 && (64 < r.u 21 0 6 + n || (sv / 4 = 0 && r.b 20 0)), .badParam), needs w 1, notStoveOwner s r sv,
       stoveIsFenced s sv, stoveSealed s sv]
    act := fun r s =>
      { st := s.modStove (r.u 16 0 5) (fun v => { v with
          trapMask := r.u 18 0 8, trapAction := r.u 19 0 1, psBank := r.u 20 0 1, psFirst := r.u 21 0 6, psCount := r.u 22 0 7 }) } }

/-- STOVE_CONFIG (R308). -/
def execStoveConfig (r : Req) (s : State) : Host.Outcome State Fault Refusal := .next (stoveConfigSpec.run r s)

def stoveCtrlSpec : CmdSpec :=
  { opcode := 0x0705
    names := stoveNames
    opLogged := fun _ _ => true
    refuse := fun r _ s =>
      let sv := r.u 16 0 5
      let op := r.u 17 0 2
      [beyondStove s sv, notStoveOwner s r sv, stoveIsFenced s sv, stoveSealed s sv,
       (op = 0 && !(s.stove sv).laws.any (fun e => e.2.enable), .combination), (op = 0 && (s.stoveDark sv || !s.awake (s.stoveOwner sv)), .busy),
       (op = 2 && s.trust.protHearth ≠ some (s.stoveOwner sv), .combination)]
    act := fun r s =>
      let sv := r.u 16 0 5
      match r.u 17 0 2 with
      | 0 => { st := s.modStove sv (fun v => { v with cache := [], state := if v.state = .stopped then .idle else v.state }) }
      | 1 =>
        if (s.stove sv).run.isSome then
          { st := (s.modStove sv (fun v => { v with stopping := true, loopWait := v.loopWait ++ [r] })).startOp
              { opMark 0x0705 with names := stoveNames } sv r 0 0, late := true }
        else { st := (s.settle sv).loopAct r }
      | 2 => { st := (s.modStove sv (fun v => { v with tripReq := false })).tripCheck }
      | _ =>
        { st := s.modStove sv (fun v => { v with
            sticky := 0, laws := v.laws.map (fun e => (e.1, { e.2 with
              runCnt := {}, overruns := {}, traps := {}, maxSeen := 0, skipEv := {} })) }) } }

/-- STOVE_CTRL (R309). -/
def execStoveCtrl (r : Req) (s : State) : Host.Outcome State Fault Refusal := .next (stoveCtrlSpec.run r s)

/-- The record of STOVE_STATUS (R310). -/
def State.stoveRecord (s : State) (sv i : Nat) : Nat :=
  let v := s.stove sv
  let l := v.law i
  let st := if s.stoveFenced sv then 3 else match v.state with
    | .stopped => 0
    | .idle => 1
    | .running => 2
    | .fenced => 3
  let sat := b2n l.runCnt.sat + 2 * b2n l.overruns.sat + 4 * b2n l.traps.sat + 8 * b2n l.skipEv.sat
  let load := (s.stoveLoad v (s.stoveStep (sv / 4)) * 10000).floor.toNat
  mkRec [⟨0, 0, 5, sv⟩, ⟨1, 0, 2, st⟩, ⟨1, 2, 1, b2n v.tripReq⟩, ⟨1, 3, 1, b2n v.psBusy⟩, ⟨1, 4, 4, v.lastCause⟩, ⟨2, 0, 8, v.sticky⟩,
    ⟨3, 0, 8, maskOf 8 (fun j => (v.law j).enable)⟩, ⟨4, 0, 3, i⟩, ⟨4, 3, 4, sat⟩, ⟨8, 0, 32, l.runCnt.n⟩, ⟨12, 0, 16, l.overruns.n⟩,
    ⟨14, 0, 16, l.traps.n⟩, ⟨16, 0, 16, l.maxSeen⟩, ⟨18, 0, 16, l.skipEv.n⟩, ⟨20, 0, 16, load⟩, ⟨22, 0, 8, l.ovrRun⟩,
    ⟨24, 0, 64, l.lastTrap⟩, ⟨32, 0, 64, l.lastRun⟩, ⟨40, 0, 32, v.cacheMiss.n⟩]

def stoveStatusSpec : CmdSpec :=
  { opcode := 0x0706
    names := stoveNames
    read := true
    data := fun r _ => resultAt r 24 64
    refuse := fun r _ s => [beyondStove s (r.u 16 0 5), notStoveOwner s r (r.u 16 0 5)]
    act := fun r s => reply s r 24 64 (s.stoveRecord (r.u 16 0 5) (r.u 17 0 3)) }

/-- STOVE_STATUS (R310). -/
def execStoveStatus (r : Req) (s : State) : Host.Outcome State Fault Refusal := .next (stoveStatusSpec.run r s)

/-! ### Loops (R324 to R330) -/

/-- A loop command acts at once when no run of its stove is in progress, else it waits (R324). -/
def loopCommand (r : Req) (s : State) : ActRes :=
  let sv := r.u 16 0 5
  if (s.stove sv).run.isNone then
    let s := s.settle sv
    match loopRefusal r s with
    | some x => { st := s, status := x }
    | none => { st := s.loopAct r }
  else
    { st := (s.modStove sv (fun v => { v with loopWait := v.loopWait ++ [r] })).startOp
        { opMark r.opcode with names := loopNames } sv r 0 0
      late := true }

/-- A loop command's refusal by the state of the loop when it arrives, during a run too; what has changed when it acts refuses it then, and
an entry of the change log made meanwhile stays (log 79). -/
def loopNow (r : Req) (s : State) (x : Status) : Bool × Status := (loopRefusal r s = some x, x)

def loopConfigSpec : CmdSpec :=
  { opcode := 0x0707
    names := loopNames
    opLogged := fun _ _ => true
    refuse := fun r w s =>
      let sv := r.u 16 0 5
      let f := fun (i : Nat) => r.u (20 + 4 * i) 0 32
      let fp := [0, 1, 2, 3, 4, 6]
      [beyondStove s sv, (fp.any (fun i => !fpIsFinite (f i)) || flt (f 3) (f 2) || flt (f 4) 0 || r.u 48 3 2 = 3, .badParam),
       needs w 1, notStoveOwner s r sv, stoveIsFenced s sv, stoveSealed s sv, loopNow r s .loopClosed]
    act := loopCommand }

/-- LOOP_CONFIG (R325, R327). -/
def execLoopConfig (r : Req) (s : State) : Host.Outcome State Fault Refusal := .next (loopConfigSpec.run r s)

def loopModeSpec : CmdSpec :=
  { opcode := 0x0708
    names := loopNames
    opLogged := fun _ _ => true
    refuse := fun r _ s =>
      let sv := r.u 16 0 5
      [beyondStove s sv, (fpIsNan (r.u 20 0 32), .badParam), notStoveOwner s r sv,
       stoveIsFenced s sv, stoveSealed s sv, loopNow r s .combination, (0 < r.u 18 0 2 && r.u 18 0 2 < 3 && s.stoveDark sv, .busy)]
    act := loopCommand }

/-- LOOP_MODE (R320, R321, R328). -/
def execLoopMode (r : Req) (s : State) : Host.Outcome State Fault Refusal := .next (loopModeSpec.run r s)

def loopSetSpec : CmdSpec :=
  { opcode := 0x0709
    names := loopNames
    refuse := fun r _ s =>
      let sv := r.u 16 0 5
      [beyondStove s sv, ((r.b 18 0 && !fpIsFinite (r.u 20 0 32)) || (r.b 18 1 && !fpIsFinite (r.u 24 0 32)), .badParam),
       notStoveOwner s r sv, stoveIsFenced s sv, stoveSealed s sv]
    act := loopCommand }

/-- LOOP_SET (R329). -/
def execLoopSet (r : Req) (s : State) : Host.Outcome State Fault Refusal := .next (loopSetSpec.run r s)

def loopStatusSpec : CmdSpec :=
  { opcode := 0x070A
    names := loopNames
    read := true
    data := fun r _ => resultAt r 24 128
    refuse := fun r _ s => [beyondStove s (r.u 16 0 5), notStoveOwner s r (r.u 16 0 5)]
    act := loopCommand }

/-- LOOP_STATUS (R330). -/
def execLoopStatus (r : Req) (s : State) : Host.Outcome State Fault Refusal := .next (loopStatusSpec.run r s)

/-- LOOP_COMMAND_ACT: no run of the stove is in progress, so what waited acts (R323, R324). -/
def execLoopCommandAct (sv : Nat) (s : State) : Host.Outcome State Fault Refusal :=
  if s.nStoves ≤ sv then .fault (.absentUnit "stove" sv)
  else if (s.stove sv).run.isSome then .next s
  else .next (s.settle sv)

/-! ### The program store (R296 to R303, R311) -/

/-- The bank key and offset of a PS_ADDR. -/
def psKey (a : Nat) : Nat := bits a 22 4
def psOff (a : Nat) : Nat := bits a 0 22
/-- Beyond the package, or lead-die bank 1 (R296, R297). -/
def psBad (s : State) (a : Nat) : Bool := a / 2 ^ 26 ≠ 0 || 2 * s.node.dies ≤ psKey a || psKey a = 1

/-- A range of a bank meets the code range or the region of a stove of an unbroken sealed hearth (R304). -/
def psSealed (s : State) (a n : Nat) : Bool × Status :=
  let k := psKey a
  let lo := psOff a
  ((List.range 4).any (fun j =>
    let sv := 4 * (k / 2) + j
    let v := s.stove sv
    s.intact (s.stoveOwner sv) &&
      ((v.psCount ≠ 0 && v.psBank = k % 2 && decide (v.psFirst * 65536 < lo + n) && decide (lo < (v.psFirst + v.psCount) * 65536))
       || v.laws.any (fun e => match psWindow sv e.2.codeBase with
          | some (b, off) => b = k && e.2.codeLen ≠ 0 && decide (off < lo + n) && decide (lo < off + e.2.codeLen)
          | none => false))), .sealed)

/-- A command that waits in the bank's own queue, in order of arrival with the requests of stoves (R299), holds the bank's name from then on
for others; it does not wait for the name itself (R390, log 68). -/
def bankMark (opcode : Nat) : CmdSpec := { opMark opcode with names := fun r => [nBank (psKey (r.u 16 0 32))] }

def psReadSpec : CmdSpec :=
  { opcode := 0x0F01
    data := fun r _ => resultAt r 24 (r.u 20 0 16)
    refuse := fun r w s =>
      let a := r.u 16 0 32
      let n := r.u 20 0 16
      [(psBad s a || n < 64 || 4096 < n || n % 64 ≠ 0 || 0x400000 < psOff a + n, .badParam), needs w 1,
       (s.dieFenced (psKey a / 2), .fenced), psSealed s a n]
    act := fun r s =>
      let k := psKey (r.u 16 0 32)
      { st := (s.startOp (bankMark 0x0F01) k r 0 0).enqueuePs k
          { kind := 0, off := psOff (r.u 16 0 32), req := some r }
        late := true } }

/-- PS_READ (R311). -/
def execPsRead (r : Req) (s : State) : Host.Outcome State Fault Refusal := .next (psReadSpec.run r s)

def psWriteRefusals (r : Req) (w : Nat) (s : State) (n : Nat) : List (Bool × Status) :=
  let a := r.u 16 0 32
  [(psBad s a || a % n ≠ 0, .badParam), needs w 1, (s.dieFenced (psKey a / 2), .fenced), psSealed s a n,
   (s.codeMeets (psKey a) (psOff a) n none, .busy)]

def psProgramSpec : CmdSpec :=
  { opcode := 0x0F02
    opLogged := fun _ _ => true
    endLogged := true
    data := fun r _ => [{ addr := r.u 24 0 64, len := 256, wr := false }]
    refuse := fun r w s => psWriteRefusals r w s 256
    act := fun r s =>
      let k := psKey (r.u 16 0 32)
      { st := (s.startOp (bankMark 0x0F02) k r 0 (s.whoNote r)).enqueuePs k
          { kind := 1, off := psOff (r.u 16 0 32), data := s.dataBytes r (r.u 24 0 64) 256, req := some r }
        late := true } }

/-- PS_PROGRAM (R298, R311). -/
def execPsProgram (r : Req) (s : State) : Host.Outcome State Fault Refusal := .next (psProgramSpec.run r s)

def psEraseSpec : CmdSpec :=
  { opcode := 0x0F03
    opLogged := fun _ _ => true
    endLogged := true
    refuse := fun r w s => psWriteRefusals r w s 65536
    act := fun r s =>
      let k := psKey (r.u 16 0 32)
      { st := (s.startOp (bankMark 0x0F03) k r 0 (s.whoNote r)).enqueuePs k
          { kind := 2, off := psOff (r.u 16 0 32), req := some r }
        late := true } }

/-- PS_ERASE (R298, R311). -/
def execPsErase (r : Req) (s : State) : Host.Outcome State Fault Refusal := .next (psEraseSpec.run r s)

/-- The largest erase count of a table of sectors and the sector that holds it. -/
def mostErased (l : Tab Nat) : Nat × Nat := l.foldl (fun (m : Nat × Nat) e => if m.1 < e.2 then (e.2, e.1) else m) (0, 0)

/-- The record of PS_STATUS (R311); of lead-die bank 1 it shows the sectors of the flash log (R597, log 79). -/
def State.psRecord (s : State) (k : Nat) : Nat :=
  let b := s.bank k
  let top := if k = 1 then ((mostErased s.logs.erases).1, (Config.logSector (mostErased s.logs.erases).2).toNat) else mostErased b.erases
  mkRec [⟨0, 0, 1, b2n b.running⟩, ⟨0, 1, 1, b2n b.heldSince.isSome⟩, ⟨2, 0, 16, b.queue.length - b2n b.running⟩,
    ⟨4, 0, 32, b.corrected.n⟩, ⟨8, 0, 32, top.1⟩, ⟨12, 0, 6, top.2⟩, ⟨16, 0, 64, b.lastOp⟩]

def psStatusSpec : CmdSpec :=
  { opcode := 0x0F04
    names := fun r => [nBank (psKey (r.u 16 0 32))]
    read := true
    data := fun r _ => resultAt r 24 64
    refuse := fun r _ s => [(r.u 16 0 32 / 2 ^ 26 ≠ 0 || 2 * s.node.dies ≤ psKey (r.u 16 0 32), .badParam)]
    act := fun r s => reply s r 24 64 (s.psRecord (psKey (r.u 16 0 32))) }

/-- PS_STATUS (R311). -/
def execPsStatus (r : Req) (s : State) : Host.Outcome State Fault Refusal := .next (psStatusSpec.run r s)

/-- The operation at the head of bank k is over with a status: its command or its stove's request completes, the next one moves up. -/
def State.psDone (s : State) (k : Nat) (o : PsOp) (st : Status) : State :=
  let s := s.modBank k (fun b => { b with queue := b.queue.drop 1, running := false, heldSince := none })
  let s := match o.stove with
    | some sv => s.modStove sv (fun v => { v with psBusy := false, psStatus := st.code })
    | none =>
      match o.kind with
      | 0 => s.endOp 0x0F01 k st 0
      | 1 => s.endOpLogged psProgramSpec k st 0
      | _ => s.endOpLogged psEraseSpec k st 0
  s.bankHead k

def State.noBank (s : State) (k : Nat) : Bool := 2 * s.node.dies ≤ k

/-- PS_OP_START: the head of an idle bank starts, unless execute-in-place holds it; a read ends at once, a program finds its page
blank or ends with NOT_BLANK (R298 to R300). -/
def execPsOpStart (k : Nat) (s : State) : Host.Outcome State Fault Refusal :=
  if s.noBank k then .fault (.absentUnit "bank" k)
  else
    let b := s.bank k
    match b.queue with
    | [] => .next s
    | o :: _ =>
      if b.running then .next s
      else if o.kind = 0 then
        let l := match o.req with
          | some r => (r, (List.range (r.u 20 0 16)).map (fun i => b.byte (o.off + i)))
          | none => (({ fn := 0, qid := 0, entry := 0 } : Req), [])
        let s := s.modBank k (fun b => { b with lastOp := s.stamp })
        .next ((s.writeResult l.1 (l.1.u 24 0 64) l.2.length (leNat l.2)).psDone k o .ok)
      else if s.xipHeld k then .next (s.bankHead k)
      else if o.kind = 1 && (List.range 256).any (fun i => b.byte (o.off + i) ≠ 0xFF) then .next (s.psDone k o .notBlank)
      else .next (s.modBank k (fun b => { b with running := true, heldSince := none }))

/-- XIP_HOLD_TIMEOUT: the head has been held for 100 ms (R300). -/
def execXipHoldTimeout (k : Nat) (s : State) : Host.Outcome State Fault Refusal :=
  if s.noBank k then .fault (.absentUnit "bank" k)
  else
    let b := s.bank k
    match b.queue, b.heldSince with
    | o :: _, some t => if !b.running && t + 100000000 ≤ s.now then .next (s.psDone k o .bankXip) else .next s
    | _, _ => .next s

/-- What an operation that ended well does to the bank (R298). -/
def PsBank.apply (b : PsBank) (o : PsOp) : PsBank :=
  if o.kind = 1 then { b with cells := memSetBytes 0xFF b.cells o.off o.data }
  else
    let sec := o.off / 65536
    { b with
      cells := b.cells.filter (fun c => c.1 / 65536 ≠ sec), undef := b.undef.filter (fun e => e.1 / 256 ≠ sec),
      erases := tmod 0 b.erases sec (satInc 32) }

/-- What a failed one leaves: pages in an undefined state, read as free values from `base` on (R301). -/
def PsBank.spoil (b : PsBank) (o : PsOp) (base : Nat) : PsBank :=
  let n := if o.kind = 1 then 1 else 256
  { b with undef := (List.range n).foldl (fun t i => tset t (o.off / 256 + i) (base + 256 * i)) b.undef }

/-- PS_OP_DONE: the program or erase of a bank ends, or times out; caches that hold lines of the bank are emptied (R295, R301). -/
def execPsOpDone (k : Nat) (ok : Bool) (s : State) : Host.Outcome State Fault Refusal :=
  if s.noBank k then .fault (.absentUnit "bank" k)
  else
    let b := s.bank k
    match b.queue with
    | [] => .next s
    | o :: _ =>
      if !b.running then .next s
      else
        let s := s.modBank k (fun b => { (if ok then b.apply o else b.spoil o s.fresh) with lastOp := s.stamp })
        let s := if ok then s else { s with fresh := s.fresh + 65536 }
        let clear := fun (s : State) (j : Nat) =>
          let sv := 4 * (k / 2) + j
          let lines := (s.stove sv).cache.flatMap (fun e => e.2)
          if lines.any (fun a => match psWindow sv a with
              | some (b, _) => b = k
              | none => false) then
            s.modStove sv (fun v => { v with cache := [] })
          else s
        let s := (List.range 4).foldl clear s
        .next (s.psDone k o (if ok then .ok else .timeout))

end Sys2Proof.Machine
end

