-- ==== Sys2Proof/Machine/Faults.lean ====
section
/-! DEFINITION. The fault manager: detectors, counting, records, merging, reactions, shadows and clearing (R513 to R537, R541 to R547). -/

set_option Elab.async false

namespace Sys2Proof.Machine

/-! ### Detectors (R513, R516) -/

/-- The domains of R513. -/
inductive Domain where
  | core | tile | group | stove | die | hearth | queue | link | node
  deriving DecidableEq, Repr

/-- A row of R516: class 0 CORRECTED, 1 CONTAINED, 2 FATAL; the default reaction; First in the count scheme; injection 0 no, 1 installer,
2 maker. -/
structure Detector where
  dom : Domain
  cls : Nat
  react : Nat
  first : Bool
  inject : Nat
  level : Bool := false

/-- The detectors 0x01 to 0x16. -/
def detectorLow : Nat → Option Detector
  | 0x01 => some ⟨.core, 0, 1, false, 0, false⟩
  | 0x02 => some ⟨.core, 1, 0, true, 0, false⟩
  | 0x03 => some ⟨.tile, 0, 2, false, 1, false⟩
  | 0x04 => some ⟨.tile, 1, 2, false, 1, false⟩
  | 0x05 => some ⟨.tile, 0, 2, false, 1, false⟩
  | 0x06 => some ⟨.group, 1, 3, true, 0, true⟩
  | 0x07 => some ⟨.tile, 1, 0, true, 0, false⟩
  | 0x08 => some ⟨.tile, 0, 0, false, 1, false⟩
  | 0x09 => some ⟨.tile, 1, 2, false, 1, false⟩
  | 0x0A => some ⟨.stove, 0, 4, false, 1, false⟩
  | 0x0B => some ⟨.stove, 1, 4, false, 1, false⟩
  | 0x0C => some ⟨.die, 0, 0, false, 1, false⟩
  | 0x0D => some ⟨.die, 1, 0, false, 1, false⟩
  | 0x0E => some ⟨.die, 0, 0, false, 1, false⟩
  | 0x0F => some ⟨.die, 1, 0, true, 1, false⟩
  | 0x10 => some ⟨.die, 0, 0, false, 1, false⟩
  | 0x11 => some ⟨.die, 1, 0, false, 1, false⟩
  | 0x12 => some ⟨.die, 2, 5, true, 2, true⟩
  | 0x13 => some ⟨.die, 2, 5, true, 2, false⟩
  | 0x14 => some ⟨.die, 1, 5, true, 0, true⟩
  | 0x15 => some ⟨.node, 1, 0, true, 0, true⟩
  | 0x16 => some ⟨.die, 1, 0, true, 0, true⟩
  | _ => none

/-- The detectors 0x17 to 0x2C. -/
def detectorHigh : Nat → Option Detector
  | 0x17 => some ⟨.die, 2, 5, true, 0, true⟩
  | 0x18 => some ⟨.die, 1, 0, true, 0, true⟩
  | 0x19 => some ⟨.die, 1, 7, true, 1, false⟩
  | 0x1A => some ⟨.node, 2, 8, true, 2, false⟩
  | 0x1B => some ⟨.node, 2, 8, true, 2, false⟩
  | 0x1C => some ⟨.node, 2, 8, true, 2, false⟩
  | 0x1D => some ⟨.queue, 1, 0, true, 0, false⟩
  | 0x1E => some ⟨.queue, 1, 0, true, 1, false⟩
  | 0x1F => some ⟨.die, 1, 0, true, 0, false⟩
  | 0x20 => some ⟨.node, 1, 0, true, 0, false⟩
  | 0x21 => some ⟨.node, 1, 0, true, 0, false⟩
  | 0x22 => some ⟨.node, 1, 0, true, 0, false⟩
  | 0x23 => some ⟨.hearth, 1, 0, true, 0, false⟩
  | 0x24 => some ⟨.node, 1, 0, true, 0, false⟩
  | 0x25 => some ⟨.node, 1, 0, true, 0, false⟩
  | 0x26 => some ⟨.hearth, 0, 0, false, 1, false⟩
  | 0x27 => some ⟨.hearth, 1, 0, true, 0, false⟩
  | 0x28 => some ⟨.link, 0, 0, false, 1, false⟩
  | 0x29 => some ⟨.link, 1, 0, true, 0, true⟩
  | 0x2A => some ⟨.node, 1, 0, true, 0, true⟩
  | 0x2B => some ⟨.node, 1, 0, true, 0, true⟩
  | 0x2C => some ⟨.die, 1, 0, true, 0, false⟩
  | _ => none

def detector (d : Nat) : Option Detector := if d ≤ 0x16 then detectorLow d else detectorHigh d

/-- The core that an INSTANCE names. -/
def instCore (i : Nat) : Nat := if bitAt i 16 then 1024 + groupOfTile (i % 65536) else i % 65536

/-- The INSTANCE names a source of the package (R513). -/
def State.instThere (s : State) (dom : Domain) (i : Nat) : Bool :=
  match dom with
  | .core => decide (i % 65536 < s.nTiles) && decide (i / 131072 = 0)
  | .tile => decide (i < s.nTiles)
  | .group => decide (i < s.nGroups)
  | .stove => decide (i < s.nStoves)
  | .die => decide (i < s.node.dies)
  | .hearth => decide (i % 256 < 8) && decide (i < 16384)
  | .queue => decide (i < 262144)
  | .link => decide (i < 2)
  | .node => decide (i = 0)

/-- The hearth that holds a source (R513). -/
def State.holderOf (s : State) (dom : Domain) (i : Nat) : Option Nat :=
  match dom with
  | .core => if bitAt i 16 then none else some (s.tileOwner (i % 65536))
  | .tile => some (s.tileOwner i)
  | .stove => some (s.stoveOwner i)
  | .hearth => some (i % 8)
  | .queue => match s.qidOwner i with
    | some (f + 1) => some f
    | _ => none
  | _ => none

/-- The die, the group and the tile of a source, where it has one. -/
def instDie (dom : Domain) (i : Nat) : Option Nat :=
  match dom with
  | .core => some (i % 65536 / 32)
  | .tile => some (i / 32)
  | .group => some (i / 4)
  | .stove => some (i / 4)
  | .die => some i
  | _ => none
def instGroup (dom : Domain) (i : Nat) : Option Nat :=
  match dom with
  | .core => some (i % 65536 / 8)
  | .tile => some (i / 8)
  | .group => some i
  | _ => none
def instTile (dom : Domain) (i : Nat) : Option Nat :=
  match dom with
  | .core => if bitAt i 16 then none else some (i % 65536)
  | .tile => some i
  | _ => none

/-- The reactions a domain allows (R521). -/
def reactionAllowed (dom : Domain) (r : Nat) : Bool :=
  match r with
  | 0 | 7 => true
  | 1 => dom = .core
  | 2 => dom = .core || dom = .tile
  | 3 => dom = .core || dom = .tile || dom = .group
  | 4 => dom = .stove
  | 5 => dom = .core || dom = .tile || dom = .group || dom = .stove || dom = .die
  | 6 => dom = .core || dom = .tile || dom = .stove || dom = .hearth
  | _ => false

/-- The reaction in force for a detection: FAULT_CONFIG's, else the default; CAL_FAIL fences its core while FAIL_SUBST is 1 (R250, R516). -/
def State.reactionOf (s : State) (det inst : Nat) (d : Detector) : Nat :=
  let r := tget d.react s.faults.reactions det
  if det = 0x02 && r = 0 && (s.calCore (instCore inst)).failSubst then 1 else r

/-- The condition of a level detector still holds (R530): the node's own state tells for those it keeps, else the last report. -/
def State.levelHolds (s : State) (det inst : Nat) : Bool :=
  match det with
  | 0x15 => s.node.holdover
  | 0x18 => s.node.badAt.any (fun e => e.1 = inst)
  | 0x29 => (if inst = 0 then s.ring.east.link else s.ring.west.link) ≠ 2
  | 0x2A => s.ring.state = .unlocked
  | 0x2B => s.ring.view = 3
  | _ => s.faults.levels.contains (det, inst)

/-! ### What a record covers (R527, R528) -/

/-- The fence of a record acts on the source: the domain of R528 while it is handled. -/
def State.inDomain (s : State) (r : FaultRec) (dom : Domain) (inst : Nat) : Bool :=
  match detector r.det with
  | none => false
  | some d =>
    match r.reaction with
    | 2 => instTile dom inst = instTile d.dom r.inst && (instTile dom inst).isSome
    | 3 => instGroup dom inst = instGroup d.dom r.inst && (instGroup dom inst).isSome
    | 4 => dom = .stove && inst = r.inst
    | 5 => instDie dom inst = instDie d.dom r.inst && (instDie dom inst).isSome
    | 6 => (s.holderOf dom inst).isSome && s.holderOf dom inst = r.hearth
    | _ => dom = d.dom && inst = r.inst

/-- The area of a record's shadow (R527). -/
def State.inArea (s : State) (r : FaultRec) (dom : Domain) (inst : Nat) : Bool :=
  match detector r.det with
  | none => false
  | some d =>
    match r.reaction with
    | 1 | 2 => instGroup dom inst = instGroup d.dom r.inst && (instGroup dom inst).isSome
    | 3 => instDie dom inst = instDie d.dom r.inst && (instDie dom inst).isSome
    | 4 => (dom = .stove && decide (inst / 4 = r.inst / 4))
      || (match instTile dom inst with
        | some n => (s.writerTiles r.inst).contains n
            || (s.stove r.inst).ports.any (fun p => match p.2.bound with
                | some k => keyNode k = s.ring.nodeNo && keyTile k = n
                | none => false)
        | none => false)
    | 5 => true
    | 6 => match r.hearth with
      | some h => s.holderOf dom inst = some h
          || (match instTile dom inst with
            | some n => s.chain1Holder n = h
            | none => false)
      | none => false
    | _ => false

/-- The earliest record that takes a detection as its secondary (R528). -/
def State.mergeInto (s : State) (dom : Domain) (inst : Nat) : Option Nat :=
  let hit := s.faults.recs.filter (fun e => e.2.used &&
    ((e.2.handling && s.inDomain e.2 dom inst) || ((e.2.shadowEnd.isSome || (e.2.handling && !e.2.isOpen)) && s.inArea e.2 dom inst)))
  (hit.foldl (fun (b : Option (Nat × Nat)) e => match b with
    | some x => if e.2.time < x.2 then some (e.1, e.2.time) else b
    | none => some (e.1, e.2.time)) none).map (fun x => x.1)

def State.modRec (s : State) (rid : Nat) (f : FaultRec → FaultRec) : State :=
  { s with faults := { s.faults with recs := tmod {} s.faults.recs rid f } }
def State.faultRec (s : State) (rid : Nat) : FaultRec := tget {} s.faults.recs rid

/-- CHANGE_CNT advances, a cause for PF vector 1 (R541). -/
def State.faultChange (s : State) : State :=
  let s := { s with faults := { s.faults with changeCnt := (s.faults.changeCnt + 1) % 65536 } }
  s.cause 0 1

/-! ### Reactions (R522, R533) -/

/-- The record's own unit for a reaction. -/
def recCore (r : FaultRec) : Nat := instCore r.inst
def recTile (r : FaultRec) : Nat := r.inst % 65536
def recGroup (r : FaultRec) : Nat := match detector r.det with
  | some d => (instGroup d.dom r.inst).getD 0
  | none => 0
def recDie (r : FaultRec) : Nat := match detector r.det with
  | some d => (instDie d.dom r.inst).getD 0
  | none => 0

/-- A tile is fenced: nothing converts, nothing covers it, its force output goes to Hi-Z. -/
def State.loseTile (s : State) (n : Nat) : State :=
  let g := groupOfTile n
  let s := ((s.calAbort n).calLeave n).forceLost n
  match (s.group g).sched.use with
  | .substituting m => if m = n then ((s.setUse g .free).faultDemand g n).serveNext g else s
  | _ => s

/-- A stove is fenced: no further instruction; requests not yet issued are dropped; its loops go to OFF with cause FENCE (R322, R522). -/
def State.loseStove (s : State) (sv : Nat) : State :=
  let k := 2 * (sv / 4)
  let drop := fun (s : State) (k : Nat) =>
    let mine := fun (o : PsOp) => o.stove = some sv
    let b := s.bank k
    let keep := if b.running then b.queue.take 1 else []
    let rest := (if b.running then b.queue.drop 1 else b.queue).filter (fun o => !mine o)
    let gone := (if b.running then b.queue.drop 1 else b.queue).any mine
    let s := (s.modBank k (fun b => { b with
      queue := keep ++ rest, heldSince := if b.queue.head? = (keep ++ rest).head? then b.heldSince else none })).bankHead k
    if gone then s.modStove sv (fun v => { v with psBusy := false }) else s
  let s := drop (drop s k) (k + 1)
  let s := s.modStove sv (fun v => { v with run := none })
  let s := ((s.settle sv).stopStove sv).endGap sv
  (s.modStove sv (fun v => { v with state := .fenced, fenced := true })).modLoops sv 255 (lrOff 8)

/-- The pairs of a fenced die lose the energy since the last persistence record (R522). -/
def State.losePair (s : State) (n : Nat) : State :=
  s.modPair n (fun p => { p with
    win := {}, unsavedLoss := true, regs := (match s.meter.best (meterPages s.node.dies) with
      | some m => m.regs.getD n [0, 0, 0, 0, 0, 0]
      | none => [0, 0, 0, 0, 0, 0]) })

def State.loseDie (s : State) (d : Nat) : State :=
  let s := (dieTiles d).foldl (fun s n => s.loseTile n) s
  let s := (List.range 4).foldl (fun s k => s.reserveLost (4 * d + k)) s
  let s := (List.range 4).foldl (fun s k => s.loseStove (4 * d + k)) s
  let s := (List.range 8).foldl (fun s k => s.losePair (8 * d + k)) s
  let s := s.dropJobs (fun j => dieOfTile j.tile = d)
  let s := s.flushFabric (fun w => w.stove / 4 = d || (keyNode w.src = s.ring.nodeNo && dieOfTile (keyTile w.src) = d))
  { s with
    triggers := s.triggers.filter (fun m => dieOfTile m.tile ≠ d) }

def State.loseHearth (s : State) (h : Nat) : State :=
  let s := ((List.range s.nStoves).filter (fun sv => s.stoveOwner sv = h)).foldl (fun s sv => s.loseStove sv) s
  let s := s.safeActions (s.forceTilesOf h)
  ((List.range s.nPairs).filter (fun n => s.pairHolder n = h && (s.pair n).state ≠ .unconfigured)).foldl (fun s n =>
    (s.closeWindow n true).modPair n (fun p => { p with state := .stopped, startPending := false })) s

/-- FATAL is latched for the node; the FATAL record offered to the flash log is a detection's record of its own (R533, R538, R540, log 74). -/
def State.latchFatal (s : State) (r : FaultRec) (rid die : Nat) : State :=
  if s.faults.fatal then s
  else
    let before := s.tripLow
    let s := (List.range s.nTiles).foldl (fun s n => ((s.closeTile n (fun _ => true)).seqStop n false).loseTile n) s
    let s := (List.range s.nStoves).foldl (fun s sv => s.loseStove sv) s
    let s := (List.range s.nPairs).foldl (fun s n => s.modPair n (fun p => { p with frozen := true })) s
    let s := if s.node.meterRestored && s.node.pfStage = .none then s.captureRecord .command else s
    let s := { s with
      faults := { s.faults with fatal := true, fatalDet := r.det, fatalDie := die }
      ring := { s.ring with bypassClosed := true } }
    let s := s.logRec {
      time := s.now, kind := 0x0D40 + r.det, node := s.ring.nodeNo, hearth := 15, subject := r.inst, detail := rid, anyToken := true }
    s.faultChange.tripEdge before

/-- A FATAL detection on a non-lead die latches its fence (R534, R541). -/
def State.latchDie (s : State) (d : Nat) : State :=
  if s.faults.fatalDies.contains d then s
  else ({ s with faults := { s.faults with fatalDies := d :: s.faults.fatalDies } }).faultChange

/-- The effect of the reaction of the record in slot rid. -/
def State.react (s : State) (r : FaultRec) (rid : Nat) : State :=
  let f := s.faults
  let before := s.tripLow
  let s := match r.reaction with
    | 1 =>
      let c := recCore r
      if f.fencedCores.contains c then s
      else
        let s := { s with faults := { f with fencedCores := c :: f.fencedCores } }
        if c < 1024 then (s.coreLost c).forceLost c else s.reserveLost (c - 1024)
    | 2 =>
      let n := recTile r
      if f.fencedTiles.contains n then s
      else ({ s with faults := { f with fencedTiles := n :: f.fencedTiles } }.loseTile n)
    | 3 =>
      let g := recGroup r
      if f.fencedGroups.contains g then s
      else
        let s := { s with faults := { f with fencedGroups := g :: f.fencedGroups } }
        (groupTiles g).foldl (fun s n => s.loseTile n) (s.reserveLost g)
    | 4 =>
      if f.fencedStoves.contains r.inst then s
      else ({ s with faults := { f with fencedStoves := r.inst :: f.fencedStoves } }.loseStove r.inst)
    | 5 =>
      let d := recDie r
      let s := if r.cls = 2 then s.latchDie d else s
      if f.fencedDies.contains d then s
      else ({ s with faults := { s.faults with fencedDies := d :: f.fencedDies } }.loseDie d)
    | 6 => match r.hearth with
      | some h =>
        if f.fencedHearths.contains h then s
        else ({ s with faults := { f with fencedHearths := h :: f.fencedHearths } }.loseHearth h)
      | none => s
    | 8 => s.latchFatal r rid (recDie r)
    | _ => s
  (s.tripCheck).tripEdge before

/-! ### Opening a record (R525, R526, R542) -/

/-- Hearths that hold a tile, stove, pair or chain-1 grant among the given tiles and stoves. -/
def State.holdersIn (s : State) (tiles stoves : List Nat) : List Nat :=
  (List.range 8).filter (fun h => tiles.any (fun n => s.tileOwner n = h || s.chain1Holder n = h)
    || stoves.any (fun sv => s.stoveOwner sv = h))

/-- The hearths that a record's reaction touches (R542). -/
def State.touched (s : State) (r : FaultRec) : List Nat :=
  let own := r.hearth.toList
  let more := match r.reaction with
    | 3 => s.holdersIn (groupTiles (recGroup r)) []
    | 5 => s.holdersIn (dieTiles (recDie r)) ((List.range 4).map (fun k => 4 * recDie r + k))
    | 8 => s.holdersIn (List.range s.nTiles) (List.range s.nStoves)
    | _ => []
  let reserve := match detector r.det with
    | some d => if d.dom = Domain.core && bitAt r.inst 16 then
        (List.range 8).filter (fun h => (groupTiles (recGroup r)).any (fun n => s.tileOwner n = h))
      else []
    | none => []
  (List.range 8).filter (fun h => own.contains h || more.contains h || reserve.contains h)

/-- A fault event to the PF and to every hearth touched. -/
def State.faultEvent (s : State) (code rid detail : Nat) : State :=
  let r := s.faultRec rid
  let subj := r.det + 256 * rid
  (s.touched r).foldl (fun s h => s.raise code h subj detail) (s.raise code 15 subj detail)

/-- The slot of a new record: one never used, else the one cleared longest ago; none: every record is open. -/
def FaultMgr.slot (f : FaultMgr) : Option Nat :=
  match (List.range 128).find? (fun i => !(tget {} f.recs i).used) with
  | some i => some i
  | none =>
    ((List.range 128).filter (fun i => !(tget {} f.recs i).isOpen)).foldl (fun b i => match b with
      | some j => if (tget {} f.recs i).clearTime < (tget {} f.recs j).clearTime then some i else some j
      | none => some i) none

/-- One more secondary of a record. -/
def State.mergeRec (s : State) (rid det inst : Nat) (level overflow : Bool) : State :=
  let s := s.modRec rid (fun r => { r with
    merges := r.merges.bump 16, secDet := det, secInst := inst, overflow := r.overflow || overflow,
    merged := if level then r.merged ++ [(det, inst)] else r.merged })
  { s with faults := { s.faults with secondaries := (s.faults.secondaries + 1) % 65536 } }

/-- The reaction as it is taken: FENCE_DIE aimed at die 0 latches FATAL, a reserve core has no hearth to fence (R521). -/
def takenReaction (d : Detector) (inst react : Nat) : Nat :=
  if react = 5 && instDie d.dom inst = some 0 then 8
  else if react = 6 && d.dom = Domain.core && bitAt inst 16 then 1
  else react

/-- The event-log entry of a detection (R538). -/
def State.logDetection (s : State) (det inst detail : Nat) (h : Option Nat) (rid : Option Nat) (token : Bool) : State :=
  s.logRec {
             time := s.now, kind := 0x0D40 + det, node := s.ring.nodeNo, hearth := h.getD 15, subject := inst,
             detail := rid.getD 0 + detail % 2 ^ 128 * 2 ^ 64, anyToken := token, rid := rid }

/-- A detection opens a record and takes its reaction: TRIP and FATAL at once, the others when the reaction is in effect. -/
def State.openRec (s : State) (d : Detector) (det inst detail react : Nat) (escalated injected : Bool) : State :=
  let h := s.holderOf d.dom inst
  let react := takenReaction d inst react
  let cls := if escalated && s.faults.scheme then 1 else d.cls
  let now := react = 7 || react = 8
  let r : FaultRec := {
    det := det, reaction := react, cls := cls, injected := injected, escalated := escalated, isOpen := true,
    scheme := s.faults.scheme, inst := inst, time := s.now, hearth := h, events := if escalated then s.faults.n else 1,
    detail := detail, handling := !now, reactTime := if now then s.stamp else 0, used := true }
  match s.faults.slot with
  | none =>
    let s := s.mergeRec 127 det inst false true
    let s := if react = 7 then s.modProt (fun p => { p with faultHeld := true }) else s
    s.react r 127
  | some rid =>
    let s := { s with faults := { s.faults with
      recs := tset s.faults.recs rid r, order := if now then s.faults.order else s.faults.order ++ [rid],
      opened := (s.faults.opened + 1) % 65536, lastRid := rid, lastDet := det, lastReaction := react, lastTime := s.now } }
    let s := s.logDetection det inst detail h (some rid) true
    let s := s.faultChange
    let s := s.faultEvent 0x0D01 rid (inst % 2 ^ 32 + react * 2 ^ 32 + cls * 2 ^ 36 + b2n injected * 2 ^ 38 + b2n escalated * 2 ^ 39)
    if now then s.react r rid else s

/-! ### Counting (R518 to R520) -/

/-- Sources with an event within W; a further source drops the one with the oldest last event. -/
def FaultMgr.track (f : FaultMgr) (now : Nat) (x : Source) : List Source :=
  let live := f.sources.filter (fun y => !(y.det = x.det && y.inst = x.inst) && decide (now ≤ y.times.headD 0 + f.w * 1000000))
  let live := if live.length < 1024 then live
    else match live.foldl (fun (b : Option Source) y => match b with
        | some z => if y.times.headD 0 < z.times.headD 0 then some y else b
        | none => some y) none with
      | some z => live.erase z
      | none => live
  live ++ [x]

/-- A counted detection: its source becomes severe at N events within W (R518, R519). -/
def State.countSource (s : State) (d : Detector) (det inst detail react : Nat) (injected : Bool) : State :=
  let f := s.faults
  let old := f.sources.find? (fun y => y.det = det && y.inst = inst)
  let times := (s.now :: (match old with
    | some y => y.times
    | none => [])).take f.n
  let severe := decide (f.n ≤ times.length) && decide (s.now ≤ times.getD (f.n - 1) 0 + f.w * 1000000)
  let quiet := d.cls = 0 && f.entered.any (fun e => e.1 = (det, inst) && decide (s.now < e.2 + 10000000))
  let entered := if d.cls = 0 then ((det, inst), s.now) ::
      f.entered.filter (fun e => e.1 ≠ (det, inst) && decide (s.now < e.2 + 10000000)) else f.entered
  if severe then
    let s := { s with faults := { f with
      sources := f.sources.filter (fun y => !(y.det = det && y.inst = inst)), entered := entered } }
    s.openRec d det inst detail react true injected
  else
    let s := { s with faults := { f with
      sources := f.track s.now { det := det, inst := inst, times := times }, entered := if quiet then f.entered else entered } }
    if quiet then s else s.logDetection det inst detail (s.holderOf d.dom inst) none false

/-! ### A detection (R514, R528, R536) -/

/-- A cache line that fails its parity when the run reads it is fetched again at the cost of a miss (R295). -/
def State.refetch (s : State) (sv : Nat) : State :=
  s.modStove sv (fun v => match v.run with
    | none => v
    | some x =>
      let l := tget [] v.cache (setOf x.pc)
      if (psWindow sv x.pc).isSome && l.contains (lineOf x.pc) then
        { v with run := some { x with stalled := true }, cache := tset v.cache (setOf x.pc) (l.erase (lineOf x.pc)) }
      else v)

/-- A fetch from bank b of the stove's die meets an uncorrectable error: the run traps with CHECK (R292). -/
def State.badFetch (s : State) (sv b : Nat) : State :=
  match (s.stove sv).run with
  | none => s
  | some x => match psWindow sv x.pc with
    | some (k, _) => if k % 2 = b then s.trapRun sv 8 else s
    | none => s

/-- The data consequence of an error (R514, log 47): a stove's run traps with CHECK; a chain context (slot in bits [4:0] of the detail,
chain in bit [5]) restarts under R224, where no raw input is lost: the first output carries GAP only where the restart passes a grid edge by; the oldest block of a pond share (of
the stream whose key is in bits [31:0] of the detail, of its capture share with bit [32]) is dropped and the next one carries GAP; a cache line (bit [0] of the detail) is fetched again. A
corrected program-store error counts in its bank (bit [0] of the detail); an uncorrectable one that a fetch met (bit [3]; the stove of the
die in bits [2:1]) traps with CHECK. -/
def State.dataLoss (s : State) (det inst detail : Nat) : State :=
  match det with
  | 0x0A => if bitAt detail 0 then s.refetch inst else s
  | 0x0B => s.trapRun inst 8
  | 0x0F => if bitAt detail 3 then s.badFetch (4 * inst + bits detail 1 2) (detail % 2) else s
  | 0x09 => s.modChain inst (detail / 32 % 2) (fun z => z.modCtx (detail % 32) (fun x => { x with gapOut := true }))
  | 0x0D =>
    s.modShare (detail % 2 ^ 32) (bitAt detail 32) (fun x => match x.pond with
      | [] => { x with gapNext := true }
      | _ :: [] => { x with pond := [], gapNext := true }
      | _ :: rest => { x with pond := markHead rest })
  | 0x0E => s.modBank (2 * inst + detail % 2) (fun b => { b with corrected := b.corrected.bump 32 })
  | _ => s

/-- A detection at the fault manager. -/
def State.detect (s : State) (det inst detail : Nat) : State :=
  match detector det with
  | none => s
  | some d =>
    let inj := match s.faults.injection with
      | some x => if x.det = det && x.inst = inst then some x else none
      | none => none
    let s := { s with faults := { s.faults with detCnt := tmod {} s.faults.detCnt det (·.bump 16) } }
    let s := match inj with
      | some x =>
        if x.left ≤ 1 then { s with faults := { s.faults with injection := none } }.endOp 0x0D04 0 .ok 0
        else { s with faults := { s.faults with injection := some { x with left := x.left - 1 } } }
      | none => s
    let react := match inj with
      | some x => if x.react then s.reactionOf det inst d else 0
      | none => s.reactionOf det inst d
    let injected := inj.isSome
    let s := if d.level && !s.faults.levels.contains (det, inst) then
        { s with faults := { s.faults with levels := s.faults.levels ++ [(det, inst)] } } else s
    let s := s.dataLoss det inst detail
    let merge := if d.cls = 2 || react = 7 then none else s.mergeInto d.dom inst
    match merge with
    | some rid => s.mergeRec rid det inst d.level false
    | none =>
      if d.cls = 2 then s.openRec d det inst detail react false injected
      else if (if s.faults.scheme then d.cls = 1 else d.first) then s.openRec d det inst detail react false injected
      else s.countSource d det inst detail react injected

/-- FAULT_DETECTION: a detector reports. None takes up the first report of the model's own detectors; a report names its source, or
says that the condition of a level detector has ended (log 48). -/
def execFaultDetection (d : Option Detection) (s : State) : Host.Outcome State Fault Refusal :=
  match d with
  | none => match s.faults.reports with
    | [] => .next s
    | x :: rest =>
      let s := { s with faults := { s.faults with reports := rest } }
      if s.node.inReset then .next s else .next (s.detect x.1 x.2.1 x.2.2)
  | some x =>
    match detector x.det with
    | none => .next s
    | some k =>
      if !s.instThere k.dom x.inst then .fault (.absentUnit "source" x.inst)
      else if s.node.inReset then .next s
      else if !x.holds then .next { s with faults := { s.faults with levels := s.faults.levels.filter (· ≠ (x.det, x.inst)) } }
      else .next (s.detect x.det x.inst x.detail)

/-- REACTION_DONE: the reaction of the first record in hand, or of a FATAL one, which waits for none (R528), is in effect, and after a fence its shadow starts (R527, R531). -/
def execReactionDone (rid : Nat) (s : State) : Host.Outcome State Fault Refusal :=
  let first := s.faults.order.head? = some rid || ((s.faultRec rid).cls = 2 && s.faults.order.contains rid)
  if !first || s.node.inReset then .next s
  else
    let s := { s with faults := { s.faults with order := s.faults.order.erase rid } }
    let r := s.faultRec rid
    let fence := decide (1 ≤ r.reaction) && decide (r.reaction ≤ 6)
    let s := s.react r rid
    let s := s.modRec rid (fun r => { r with
      handling := false, reactTime := s.stamp, shadowEnd := if fence then some (s.now + 100000) else none })
    .next s.checkReady

/-- SHADOW_END: the merged level detectors of a record are read again; one that still holds opens its own record, unless it names a die
that is latched (R530, R534). -/
def execShadowEnd (rid : Nat) (s : State) : Host.Outcome State Fault Refusal :=
  let r := s.faultRec rid
  match r.shadowEnd with
  | none => .next s
  | some t =>
    if s.now < t then .next s
    else
      let again := if s.levelHolds r.det r.inst && (match detector r.det with
        | some d => d.level && r.isOpen
        | none => false) then r.merged.filter (· ≠ (r.det, r.inst)) else r.merged
      let s := s.modRec rid (fun r => { r with shadowEnd := none, merged := [] })
      .next (again.foldl (fun s x => match detector x.1 with
        | some d =>
          let latched := match instDie d.dom x.2 with
            | some k => s.faults.fatalDies.contains k
            | none => false
          if s.levelHolds x.1 x.2 && !latched then s.openRec d x.1 x.2 0 (s.reactionOf x.1 x.2 d) false false else s
        | none => s) s)

/-- INJECT_TIMEOUT: 1 s has passed before COUNT detections (R537). -/
def execInjectTimeout (s : State) : Host.Outcome State Fault Refusal :=
  match s.faults.injection with
  | none => .next s
  | some x =>
    if s.now < x.deadline then .next s
    else .next ({ s with faults := { s.faults with injection := none } }.endOp 0x0D04 0 .timeout 0)

/-- TRIP_LINE_SELF_TEST: the 10 ms self-test of a die's trip line (R516). -/
def execTripLineSelfTest (die : Nat) (ok : Bool) (s : State) : Host.Outcome State Fault Refusal :=
  if s.node.dies ≤ die then .fault (.absentUnit "die" die)
  else if s.node.inReset || ok then .next s
  else .next (s.report 0x19 die 0)

/-! ### Clearing (R535) -/

/-- Another open record holds the same fence. -/
def State.heldElsewhere (s : State) (rid : Nat) (p : FaultRec → Bool) : Bool :=
  s.faults.recs.any (fun e => e.1 ≠ rid && e.2.used && e.2.isOpen && p e.2)

/-- A tile's fence is gone: it returns to its committed mode through the queue of its die, and does the power-up calibration it owes
(R254, R535, R562). -/
def State.tileBack (s : State) (n : Nat) : State :=
  if s.tileFenced n then s
  else
    let s := (s.calOwed n).serveNext (groupOfTile n)
    if (s.tile n).force.mode = .off then s else s.kindleTile n

/-- A stove's fence is gone: STOPPED, its loops stay OFF. -/
def State.stoveBack (s : State) (sv : Nat) : State :=
  if s.stoveFenced sv then s else s.modStove sv (fun v => { v with state := .stopped, fenced := false })

/-- A die whose fence is cleared is kindled anew, and its cores calibrate (R535, R562). -/
def State.dieBack (s : State) (d : Nat) : State :=
  let s := s.modKindle d (fun k => { k with
    start := some (s.node.up / 64), nextUnit := 0, kindled := false, bridgeUp := false, triadSettled := false, resend := false })
  (dieCores d).foldl (fun s c => s.modCal c (fun k => { k with state := 0, run := none, stale := false })) s

/-- The release of a record's reaction. DESIGN CHOICE (log 35): a force output drives again at once, while its core still calibrates. -/
def State.release (s : State) (rid : Nat) (r : FaultRec) : State :=
  let f := s.faults
  let other := fun (p : FaultRec → Bool) => s.heldElsewhere rid (fun x => x.reaction = r.reaction && p x)
  match r.reaction with
  | 1 =>
    let c := recCore r
    if other (fun x => recCore x = c) then s
    else
      let s := { s with faults := { f with fencedCores := f.fencedCores.filter (· ≠ c) } }.coreBack c
      if c < 1024 && (s.tile c).force.phase = .fenceLost then s.resumeForce c else s
  | 2 =>
    let n := recTile r
    if other (fun x => recTile x = n) then s
    else { s with faults := { f with fencedTiles := f.fencedTiles.filter (· ≠ n) } }.tileBack n
  | 3 =>
    let g := recGroup r
    if other (fun x => recGroup x = g) then s
    else
      let s := { s with faults := { f with fencedGroups := f.fencedGroups.filter (· ≠ g) } }.coreBack (1024 + g)
      (groupTiles g).foldl (fun s n => s.tileBack n) s
  | 4 =>
    if other (fun x => x.inst = r.inst) then s
    else { s with faults := { f with fencedStoves := f.fencedStoves.filter (· ≠ r.inst) } }.stoveBack r.inst
  | 5 =>
    let d := recDie r
    if other (fun x => recDie x = d) then s
    else
      let s := { s with faults := { f with fencedDies := f.fencedDies.filter (· ≠ d) } }
      (s.dieBack d).modRec rid (fun x => { x with handling := true })
  | 6 => match r.hearth with
    | some h =>
      if other (fun x => x.hearth = some h) then s
      else
        let s := { s with faults := { f with fencedHearths := f.fencedHearths.filter (· ≠ h) } }
        ((List.range s.nStoves).filter (fun sv => s.stoveOwner sv = h)).foldl (fun s sv => s.stoveBack sv) s
    | none => s
  | _ => s

/-! ### Commands (R543 to R547) -/

/-- The package default of R517: the class scheme on the D8. -/
def State.packageScheme (s : State) : Bool := s.node.dies = 8

def faultConfigSpec : CmdSpec :=
  { opcode := 0x0D01
    names := fun _ => [nNode 6]
    opLogged := fun _ _ => true
    refuse := fun r w s =>
      let op := r.u 16 0 2
      let scheme := op = 0 && (r.u 17 0 2 = 3 || r.u 18 0 8 = 0 || r.u 20 0 32 = 0 || 3600000 < r.u 20 0 32)
      let bad := match detector (r.u 24 0 8) with
        | some d => d.cls = 2 || !reactionAllowed d.dom (r.u 25 0 4)
        | none => true
      [(op = 3 || scheme || (op = 1 && bad), .badParam), needs w 1, (r.fn ≠ 0, .rights),
       (s.faults.recs.any (fun e => e.2.handling), .busy)]
    act := fun r s =>
      match r.u 16 0 2 with
      | 0 =>
        let scheme := if r.u 17 0 2 = 2 then s.packageScheme else r.b 17 0
        let restart := scheme ≠ s.faults.scheme
        { st := { s with faults := { s.faults with
            scheme := scheme, n := r.u 18 0 8, w := r.u 20 0 32, sources := if restart then [] else s.faults.sources } } }
      | 1 => { st := { s with faults := { s.faults with reactions := tset s.faults.reactions (r.u 24 0 8) (r.u 25 0 4) } } }
      | _ => { st := { s with faults := { s.faults with reactions := [] } } } }

/-- FAULT_CONFIG (R544). -/
def execFaultConfig (r : Req) (s : State) : Host.Outcome State Fault Refusal := .next (faultConfigSpec.run r s)

/-- FLT_N is low (R532). -/
def State.fltLow (s : State) : Bool :=
  s.faults.recs.any (fun e => e.2.used && e.2.isOpen) || s.faults.fatal || s.node.inReset || !s.faults.selfTest

/-- The word of PF BAR0 at 0x1000 + off (R541); the TIME_HI latch belongs to the register read. -/
def State.faultWord (s : State) (off : Nat) : Nat :=
  let f := s.faults
  let opens := (f.recs.filter (fun e => e.2.used && e.2.isOpen)).length
  match off with
  | 0x00 => b2n s.fltLow + 2 * b2n f.fatal + 4 * b2n f.scheme + 8 * b2n f.injection.isSome + 256 * opens + 65536 * f.changeCnt
  | 0x04 => maskOf 8 f.fencedDies.contains + 256 * maskOf 8 f.fatalDies.contains + 65536 * maskOf 8 f.fencedHearths.contains
  | 0x08 => f.opened + 65536 * f.secondaries
  | 0x0C => f.lastRid + 256 * f.lastDet + 65536 * f.lastReaction
  | 0x10 => f.lastTime % 2 ^ 32
  | 0x14 => f.lastTime / 2 ^ 32
  | 0x18 => if f.fatal then f.fatalDet + 256 * f.fatalDie else 0
  | 0x1C => f.n
  | 0x20 => f.w
  | 0x24 => s.logs.lseq
  | _ => 0

/-- A fault record in the layout of R526. -/
def FaultRec.bytes (r : FaultRec) (rid : Nat) : Nat :=
  if !r.used then 0 else
    mkRec [⟨0, 0, 8, rid⟩, ⟨1, 0, 8, r.det⟩, ⟨2, 0, 4, r.reaction⟩, ⟨2, 4, 2, r.cls⟩, ⟨2, 6, 1, b2n r.injected⟩,
      ⟨2, 7, 1, b2n r.escalated⟩, ⟨3, 0, 1, b2n r.isOpen⟩, ⟨3, 1, 1, b2n r.shadowEnd.isSome⟩, ⟨3, 2, 1, b2n r.scheme⟩,
      ⟨3, 3, 1, b2n r.overflow⟩, ⟨3, 4, 1, b2n r.merges.sat⟩, ⟨4, 0, 32, r.inst⟩, ⟨8, 0, 64, r.time⟩, ⟨16, 0, 64, r.reactTime⟩,
      ⟨24, 0, 16, r.merges.n⟩, ⟨26, 0, 8, r.secDet⟩, ⟨27, 0, 3, r.hearth.getD 0⟩, ⟨27, 3, 1, b2n r.hearth.isSome⟩,
      ⟨28, 0, 16, r.events⟩, ⟨32, 0, 32, r.secInst⟩, ⟨36, 0, 32, r.lseq⟩, ⟨40, 0, 64, r.clearTime⟩, ⟨48, 0, 128, r.detail⟩]

/-- Bytes side by side: values of n bytes each. -/
def packRecs (n : Nat) (l : List Nat) : Nat := l.foldr (fun v a => v + a * 256 ^ n) 0

/-- What FAULT_READ writes: the counts of every detector with their SAT bits, or the fault registers and `count` records from `first`. -/
def State.faultBytes (s : State) (counts : Bool) (first count : Nat) : Nat :=
  if counts then
    let cnt := fun i => tget {} s.faults.detCnt i
    packRecs 2 ((List.range 64).map (fun i => (cnt i).n)) + maskOf 64 (fun i => (cnt i).sat) * 2 ^ 1024
  else
    packRecs 4 ((List.range 10).map (fun i => s.faultWord (4 * i)))
      + packRecs 64 ((List.range count).map (fun i => (s.faultRec (first + i)).bytes (first + i))) * 2 ^ 512

def faultReadSpec : CmdSpec :=
  { opcode := 0x0D02
    read := true
    data := fun r _ => resultAt r 24 (if r.b 18 0 then 136 else 64 + 64 * r.u 17 0 5)
    refuse := fun r w _ =>
      [(127 < r.u 16 0 8 || r.u 17 0 5 = 0 || 16 < r.u 17 0 5, .badParam), (r.fn ≠ 0 || (r.b 18 1 && w ≠ 1), .rights)]
    act := fun r s =>
      let out := reply s r 24 (if r.b 18 0 then 136 else 64 + 64 * r.u 17 0 5) (s.faultBytes (r.b 18 0) (r.u 16 0 8) (r.u 17 0 5))
      if r.b 18 1 && r.b 18 0 then
        { out with st := { out.st with faults := { out.st.faults with detCnt := [] } } } else out }

/-- FAULT_READ (R545). -/
def execFaultRead (r : Req) (s : State) : Host.Outcome State Fault Refusal := .next (faultReadSpec.run r s)

def faultClearSpec : CmdSpec :=
  { opcode := 0x0D03
    names := fun _ => [nNode 6]
    opLogged := fun _ _ => true
    refuse := fun r w s =>
      let x := s.faultRec (r.u 16 0 8)
      [(127 < r.u 16 0 8 || !x.isOpen, .badParam), needs w 1,
       (r.fn ≠ 0 && x.hearth ≠ some (r.fn - 1), .rights), (x.cls = 2, .combination),
       (x.handling || x.shadowEnd.isSome || ((match detector x.det with
          | some d => d.level
          | none => false) && s.levelHolds x.det x.inst), .busy)]
    act := fun r s =>
      let rid := r.u 16 0 8
      let s := s.modRec rid (fun x => { x with isOpen := false, clearTime := s.stamp })
      let x := s.faultRec rid
      let s := s.faultChange
      let s := if rid = 127 then s.modProt (fun p => { p with faultHeld := false }) else s
      let s := ((s.release rid x).tripCheck).faultEvent 0x0D02 rid x.merges.n
      let s := s.logRec {
                          time := s.now, kind := 0x0D02, node := s.ring.nodeNo, hearth := x.hearth.getD 15,
                          subject := x.det + 256 * rid, detail := x.merges.n, anyToken := true }
      { st := s } }

/-- FAULT_CLEAR (R535, R546). -/
def execFaultClear (r : Req) (s : State) : Host.Outcome State Fault Refusal := .next (faultClearSpec.run r s)

def faultInjectSpec : CmdSpec :=
  { opcode := 0x0D04
    names := fun _ => [nNode 6]
    opLogged := fun _ _ => true
    refuse := fun r w s =>
      let det := r.u 16 0 8
      let inst := r.u 20 0 32
      match detector det with
      | none => [(true, .badParam)]
      | some d =>
        let h := s.holderOf d.dom inst
        [(d.inject = 0 || r.u 17 0 8 = 0 || !s.instThere d.dom inst, .badParam), (w ≠ d.inject, .rights),
         (r.fn ≠ 0 && h ≠ some (r.fn - 1), .rights),
         ((match h with
            | some k => s.intact k
            | none => false), .sealed), (s.faults.injection.isSome, .busy)]
    act := fun r s =>
      let x : Injection := {
                             det := r.u 16 0 8, inst := r.u 20 0 32, left := r.u 17 0 8, react := r.b 18 0,
                             deadline := s.now + 1000000000 }
      { st := { s with faults := { s.faults with injection := some x } }.startOp (opMark 0x0D04) 0 r 0 0, late := true } }

/-- FAULT_INJECT (R536, R547). -/
def execFaultInject (r : Req) (s : State) : Host.Outcome State Fault Refusal := .next (faultInjectSpec.run r s)

end Sys2Proof.Machine
end

