-- ==== Sys2Proof/Machine/Logs.lean ====
section
/-! DEFINITION. The event logs: the RAM log, the flash log with its token bucket, their copies to log queues, EVLOG_READ
(R538 to R540, R548, R595 to R597), and the fault manager's self-test (R517). -/

set_option Elab.async false

namespace Sys2Proof.Machine

/-- Bytes 16 to 63 of an event-log record (R538). -/
def LogRec.body (r : LogRec) : Nat :=
  mkRec [⟨0, 0, 16, r.kind⟩, ⟨2, 0, 6, r.node⟩, ⟨3, 0, 4, r.hearth⟩, ⟨4, 0, 32, r.subject⟩, ⟨8, 0, 320, r.detail⟩]

/-- A record as the RAM log holds it (R538). -/
def LogRec.bytes (r : LogRec) : Nat := mkRec [⟨0, 0, 64, r.time⟩, ⟨8, 0, 32, r.lseq⟩, ⟨16, 0, 384, r.body⟩]

/-- A record as the flash log holds it: with the CRC over bytes 0 to 11 and 16 to 63 (R538). -/
def LogRec.flashBytes (r : LogRec) : Nat :=
  r.bytes + crc32c (leBytes (r.bytes % 2 ^ 96) 12 ++ leBytes r.body 48) * 2 ^ 96

/-- A copy for the log queue of a function: without one, or with its hearth fenced, nothing; a full staging area follows the queue's
POLICY (R398, R407, R522). -/
def State.stageCopy (s : State) (f : Nat) (c : LogCopy) : State :=
  match (s.fn f).logQid with
  | none => s
  | some q =>
    if f ≠ 0 && s.hearthFenced (f - 1) then s
    else if (s.fn f).logStage.length < 64 then s.modFn f (fun x => { x with logStage := x.logStage ++ [c] })
    else if (s.queue q).policy then (s.modFn f (fun x => { x with logStage := x.logStage.drop 1 ++ [c] })).queueLost q 1
    else s.queueLost q 1

/-- The copies of an event-log record: to the PF and to the hearth named; a worker sends a LOG frame instead (R398, R434). -/
def State.copyRec (s : State) (hearth : Nat) (c : LogCopy) : State :=
  let s := s.stageCopy 0 c
  if hearth < 8 then s.stageCopy (hearth + 1) c else s

/-- The token a record may take: FAULT openings and clearings and FATAL while one remains, the others while more than 8 do (R540). -/
def Logs.admits (l : Logs) (r : LogRec) : Bool := if r.anyToken then decide (1 ≤ l.tokens) else decide (8 < l.tokens)

/-- A record offered to the flash log (R540). -/
def Logs.offer (l : Logs) (r : LogRec) : Logs :=
  if r.noFlash then l
  else if l.admits r then { l with tokens := l.tokens - 1, flashPending := l.flashPending ++ [r], bank1 := l.bank1 ++ [0] }
  else { l with skip := l.skip.bump 32 }

/-- RAM_LOG_WRITE: the first record of the queue takes its LSEQ and goes into the RAM log, the log queues and the flash log's bucket; no
record before the flash log has been read (R539, R595). -/
def execRamLogWrite (s : State) : Host.Outcome State Fault Refusal :=
  match s.logs.queue with
  | [] => .next s
  | r :: rest =>
    if s.node.inReset || !s.node.trustLoaded then .next s
    else
      let l := s.logs
      let r := { r with lseq := l.lseq }
      let ram := l.ram ++ [r]
      let l := { l with queue := rest, lseq := (l.lseq + 1) % 2 ^ 32, ram := if 65536 < ram.length then ram.drop 1 else ram }
      let s := { s with logs := l.offer r }
      let s := match r.rid with
        | some rid => s.modRec rid (fun x => { x with lseq := r.lseq })
        | none => s
      if s.isWorker then .next (s.sendFrame { type := .log, dst := some 0, aux := 0, body := r.bytes })
      else .next (s.copyRec r.hearth { time := r.time, lseq := r.lseq, source := 0, part := 0, body := r.body })

/-- The largest erase count of the flash log's sectors (R597). -/
def Logs.maxErase (l : Logs) : Nat := l.erases.foldl (fun m e => max m e.2) 0

/-- TOKEN_REFILL: one token a second, up to 64; one in 60 s when a sector of the log has reached 9,000 erases (R540, R597). -/
def execTokenRefill (s : State) : Host.Outcome State Fault Refusal :=
  let period := if 9000 ≤ s.logs.maxErase then 60000000000 else 1000000000
  if s.node.inReset || s.now < s.logs.lastRefill + period then .next s
  else .next { s with logs := { s.logs with lastRefill := s.logs.lastRefill + period, tokens := min 64 (s.logs.tokens + 1) } }

/-- FLASH_LOG_RECORD_DONE: the first record on its way is programmed and read back. The window holds the 16,384 newest, every record that
leaves counts in OVERWRITES, and a sector is erased at every 1,024 records (R540, R596, R597); a failed read-back reports EVLOG_WRITE. A
write that a power-fail has abandoned is made again when the device goes on (R347, log 79). -/
def execFlashLogRecordDone (ok : Bool) (s : State) : Host.Outcome State Fault Refusal :=
  match s.logs.flashPending with
  | [] => .next s
  | r :: rest =>
    if s.node.inReset || s.node.pfStage ≠ .none || !s.logs.turn 0 then .next s
    else
      let l := { s.logs.took 0 with flashPending := rest }
      if !ok then .next ({ s with logs := l }.report 0x25 0 0)
      else
        let flash := l.flash ++ [r]
        let full := decide (16384 < flash.length)
        .next { s with logs := { l with
          flash := if full then flash.drop 1 else flash
          overwrites := if full then l.overwrites.bump 32 else l.overwrites
          flashNext := (r.lseq + 1) % 2 ^ 32
          flashWritten := l.flashWritten + 1
          erases := if l.flashWritten % 1024 = 0 then tmod 0 l.erases (l.flashWritten / 1024 % 20) (satInc 32) else l.erases } }

/-- FAULT_MANAGER_SELF_TEST: passed, FLT_N may rise; failed, FAULT_MGR_UE (R516, R532). -/
def execFaultManagerSelfTest (ok : Bool) (s : State) : Host.Outcome State Fault Refusal :=
  if s.node.inReset then .next s
  else if ok then .next ({ s with faults := { s.faults with selfTest := true } }.checkReady)
  else .next (s.report 0x1C 0 0)

/-- What EVLOG_READ writes: the head of the RAM or the flash log, then up to `n` records from LSEQ `first` on. -/
def State.evlogBytes (s : State) (flash : Bool) (first n : Nat) : Nat :=
  let l := if flash then s.logs.flash else s.logs.ram
  let held := (l.dropWhile (fun x => x.lseq ≠ first)).take n
  let head := mkRec [⟨0, 0, 32, (l.head?.map (fun x => x.lseq)).getD 0⟩, ⟨4, 0, 32, if flash then s.logs.flashNext else s.logs.lseq⟩,
    ⟨8, 0, 32, l.length⟩, ⟨12, 0, 32, if flash then s.logs.overwrites.n else 0⟩,
    ⟨16, 0, 32, if flash then s.logs.skip.n else s.logs.ramSkip.n⟩, ⟨20, 0, 8, if flash then s.logs.tokens else 0⟩]
  head + packRecs 64 (held.map (fun x => if flash then x.flashBytes else x.bytes)) * 2 ^ 512

def evlogReadSpec : CmdSpec :=
  { opcode := 0x0D05
    read := true
    data := fun r _ => resultAt r 32 (64 + 64 * r.u 24 0 7)
    refuse := fun r _ s =>
      let l := if r.b 16 0 then s.logs.flash else s.logs.ram
      [(r.u 24 0 7 = 0 || 64 < r.u 24 0 7 || !l.any (fun x => x.lseq = r.u 20 0 32), .badParam), (r.fn ≠ 0, .rights)]
    act := fun r s =>
      reply s r 32 (64 + 64 * r.u 24 0 7) (s.evlogBytes (r.b 16 0) (r.u 20 0 32) (r.u 24 0 7)) }

/-- EVLOG_READ (R543, R548). -/
def execEvlogRead (r : Req) (s : State) : Host.Outcome State Fault Refusal := .next (evlogReadSpec.run r s)

end Sys2Proof.Machine
end

