-- ==== Sys2Proof/Machine/Power.lean ====
section
/-! DEFINITION. Supplies, resets, kindling and the draught's source (R29, R33 to R38, R347 to R349, R549 to R568). -/

set_option Elab.async false

namespace Sys2Proof.Machine

/-! ### The reset state (R555, R557, R593) -/

/-- The bypass closes (R442). -/
def State.closeBypass (s : State) : State := { s with ring := { s.ring with bypassClosed := true } }

/-- The row fuses of die d after a reset: a burn that was in progress has consumed its row, which holds what was burnt (free values). -/
def Rows.afterReset (x : Rows) (d seed : Nat) : Rows :=
  match x.burning with
  | none => x
  | some b => x.burn d b.1 b.2 seed false

/-- A bank of the program store after a reset: an operation that was running leaves its pages in an undefined state (R301). -/
def PsBank.afterReset (b : PsBank) (seed : Nat) : PsBank :=
  let b := match b.running, b.queue with
    | true, o :: _ => b.spoil o seed
    | _, _ => b
  { cells := b.cells, undef := b.undef, erases := b.erases }

/-- A failure count and its lockout, which counts on from the time left last written (R471). -/
def Lockout.afterReset (l : Lockout) : Lockout :=
  { l with until_ := if l.until_.isSome then some l.leftAtWrite else none }

/-- What a gauge keeps: its hourly means, its points and its marks stand with the plan record (R571, R582, R583). -/
def Gauge.afterReset (g : Gauge) : Gauge :=
  { hours := g.hours, points := g.points, sinceRate := g.sinceRate, warn := g.warn, alarm := g.alarm }

/-- The plan and its record (R573, R582). -/
def Ageing.afterReset (a : Ageing) : Ageing :=
  { a with
    dies := a.dies.map (fun e => (e.1, { e.2 with
      gauges := e.2.gauges.map (fun g => (g.1, g.2.afterReset)), triad := [], drift := [], lastSample := 0 }))
    trigger := 2, since := a.saved, lastHour := a.saved / 3600, replan := none, moves := [], fresh := false }

def PfStage.afterReset (p : PfStage) (cause : Nat) : PfStage :=
  match p with
  | .none => .none
  | .programming _ => .programming (some cause)
  | .readBack _ => .readBack (some cause)

/-- The reset state of a node, by R555, with what R557 and R593 keep; `power` for the resets of a power loss. -/
def State.afterReset (s : State) (cause rail : Nat) (power : Bool) : State :=
  let n := s.node
  let f := s.faults
  { ({} : State) with
    node := {
      dies := n.dies, role := n.role, inReset := true, cause := cause, rail := rail, bootCnt := satInc 32 n.bootCnt,
      badRails := n.badRails, badAt := n.badAt, rstLow := n.rstLow, pfStage := n.pfStage.afterReset cause,
      derated := n.derated, engineStep := n.engineStep, stoveStep := n.stoveStep, temp := n.temp }
    host := { perst := s.host.perst, out := s.host.out, ended := s.host.ended }
    ring := { out := s.ring.out }
    trust := { s.trust with live := [], dormant := [] }
    roles := {
      sessionSeq := s.roles.sessionSeq, challengeId := s.roles.challengeId,
      instLock := s.roles.instLock.afterReset, makerLock := s.roles.makerLock.afterReset }
    clog := { s.clog with staging := if n.pfStage = .none then [] else s.clog.staging.map (fun x => { x with why := .device, names := [] }) }
    faults := {
      scheme := s.packageScheme, fatal := !power && f.fatal, fatalDies := if power then [] else f.fatalDies,
      fencedDies := if power then [] else f.fatalDies, fatalDet := if power then 0 else f.fatalDet,
      fatalDie := if power then 0 else f.fatalDie }
    logs := {
      lseq := s.logs.flashNext, flash := s.logs.flash, flashNext := s.logs.flashNext, flashWritten := s.logs.flashWritten,
      skip := s.logs.skip, overwrites := s.logs.overwrites, erases := s.logs.erases }
    rows := s.rows.map (fun e => (e.1, e.2.afterReset e.1 (s.fresh + 2048 * e.1)))
    ps := s.ps.map (fun e => (e.1, e.2.afterReset (s.fresh + 16384 + 65536 * e.1)))
    meter := { (if n.va5Off then s.meter else s.meter.abandon) with writing := [], lastSnap := 0, lastPeriod := 0, opSeconds := s.age.saved }
    age := s.age.afterReset
    views := s.views
    sealImages := s.sealImages
    fresh := s.fresh + 16384 + 16 * 65536
    pending := s.pending }

/-! ### The power-fail record (R347, R351, R552, R556) -/

/-- Every pair frozen, its open window closed as SHORT (R347). -/
def State.freezePairs (s : State) : State :=
  (List.range s.nPairs).foldl (fun s n => (s.closeWindow n true).modPair n (fun p => { p with frozen := true })) s

/-- The POWER_FAIL record is captured into the armed region, after which the other one is armed (R349), and its programming starts; with the
region not blank METER_PF_UNARMED counts.
Before metering is restored the records of the last run stand. Pairs of dies that did not reach die 0 keep the last snapshot. -/
def State.capturePf (s : State) (lostDies : List Nat) : State :=
  if !s.node.meterRestored then s
  else
    let m := s.meter
    let r := s.meterRecord .powerFail
    let lost := (List.range s.nPairs).filter (fun n => lostDies.contains (n / 8))
    let old := match m.best (meterPages s.node.dies) with
      | some x => x.regs
      | none => []
    let r := { r with
      lost := lost, regs := (List.range s.nPairs).map (fun n =>
      if lost.contains n then old.getD n [0, 0, 0, 0, 0, 0] else r.regs.getD n [0, 0, 0, 0, 0, 0]) }
    let stage := { s.node with pfStage := .programming none }
    if (if m.armB then m.regionB else m.regionA) ≠ .armed then { s with meter := { m with pfUnarmed := m.pfUnarmed + 1 } }
    else if m.armB then { s with node := stage, meter := { m with snapSeq := r.seq, regionB := .used (some r), armB := false } }
    else { s with node := stage, meter := { m with snapSeq := r.seq, regionA := .used (some r), armB := true } }

/-- The keep-alive domain runs events 6 and 7 of R347, with or without a record of metering: the staged entries of the change log are
programmed (R479, R483, R556). -/
def State.pfStart (s : State) : State :=
  if s.node.pfStage = .none then { s with node := { s.node with pfStage := .programming none } } else s

/-- RST_N, DEV_RESET and RESET_GO: the pairs freeze, the record is written in the keep-alive domain, the node resets (R556). -/
def State.resetNode (s : State) (cause : Nat) : State :=
  let s := if s.node.pfStage = .none then ((s.freezePairs).capturePf []).pfStart else s
  s.afterReset cause 0 false

/-! ### Supplies (R549 to R552) -/

/-- POWER_ON: the node is in the reset state, with CAUSE 1. -/
def execPowerOn (s : State) : Host.Outcome State Fault Refusal := .next (s.afterReset 1 0 true)

/-- SUPPLY_BROWN_OUT: a rail of the RAIL codes other than VA5 browns out: a supply-loss reset. A digital rail that goes first lets the
keep-alive domain write the record, for the dies of `sent`; staged entries of the change log are programmed in any case (R479, R483, R551,
R552, R556). -/
def execSupplyBrownOut (rail : Nat) (sent : List Nat) (s : State) : Host.Outcome State Fault Refusal :=
  if rail = 0 || 8 < rail || rail = 3 then .next s
  else
    let s := { s with node := { s.node with badRails := insertSorted rail s.node.badRails } }
    if s.node.inReset then .next s
    else
      let lost := (List.range s.node.dies).filter (fun d => d ≠ 0 && !sent.contains d)
      let s := if 5 ≤ rail && s.node.pfStage = .none then ((s.freezePairs).capturePf lost).pfStart
        else if s.clog.staging.isEmpty then s else s.pfStart
      .next (s.afterReset 2 rail true)

/-- A rail at a die is in its operating range again, or leaves it (R551); it is good when it is so at every die (R565). -/
def Node.railAt (n : Node) (die rail : Nat) (inRange : Bool) : Node :=
  let rest := n.badAt.filter (· ≠ (die, rail))
  if inRange then { n with badAt := rest, badRails := if rest.any (fun e => e.2 = rail) then n.badRails else n.badRails.filter (· ≠ rail) }
  else { n with badAt := (die, rail) :: rest, badRails := insertSorted rail n.badRails }

/-- SUPPLY_RANGE: a rail leaves its operating range at a die, and reports with the rail and its reading, a free value, or is back in it
(R516, R526, R551). -/
def execSupplyRange (die rail : Nat) (inRange : Bool) (s : State) : Host.Outcome State Fault Refusal :=
  if s.node.dies ≤ die then .fault (.absentUnit "die" die)
  else if rail = 0 || 8 < rail then .next s
  else
    let s := { s with node := s.node.railAt die rail inRange }
    .next (if inRange || s.node.inReset then s else s.free.2.report 0x18 die (rail + 256 * (s.free.1 % 65536)))

/-- VA5_POWER_FAIL: events 1 to 5 of R347. The windows close as SHORT, the VA5 loads go off with every force output at Hi-Z, what bank 1 was
writing is abandoned (it is written again after a recovery), the record is captured. -/
def execVa5PowerFail (s : State) : Host.Outcome State Fault Refusal :=
  if s.node.inReset || s.node.pfStage ≠ .none || s.node.va5Off then .next s
  else
    let s := { s with node := { s.node with badRails := insertSorted 3 s.node.badRails } }
    let s := s.freezePairs
    let s := (List.range s.nTiles).foldl (fun s n => (s.closeTile n (fun _ => true)).forceLost n) s
    let s := { s with node := { s.node with va5Off := true }, meter := s.meter.abandon }
    let s := s.capturePf []
    .next s.pfStart

/-- POWER_FAIL_PROGRAM_DONE: the record and the staged change-log entries are programmed (event 6). -/
def execPowerFailProgramDone (s : State) : Host.Outcome State Fault Refusal :=
  match s.node.pfStage with
  | .programming x =>
    let s := { s with node := { s.node with pfStage := .readBack x } }
    if x.isSome then
      let l := s.clog.staging
      .next (l.foldl (fun s e => s.clogAppend e) { s with clog := { s.clog with staging := [] } })
    else .next s
  | _ => .next s

/-- VA5 is back: every tile that was not OFF returns through the queue of its die, the pairs resume at their next boundary, the used region
is erased (R349, R562). -/
def State.va5Back (s : State) : State :=
  let s := { s with node := { s.node with pfStage := .none, va5Off := false } }
  let s := (List.range s.nTiles).foldl (fun s n => s.tileBack n) s
  let s := (List.range s.nPairs).foldl (fun s n => s.modPair n (fun p =>
    if p.state = .running || p.state = .mismatch then { p with startPending := true } else { p with frozen := false })) s
  let r := match (if s.meter.armB then s.meter.regionA else s.meter.regionB) with
    | .used (some r) => some r
    | _ => none
  ({ s with meter := match r with
      | some r => { s.meter with lastSeq := r.seq, lastSnap := s.stamp }
      | none => s.meter }).eraseUsed

/-- POWER_FAIL_READBACK_DONE: event 7. With every rail in range the device goes on, else it resets with CAUSE 3 (R349, R551). -/
def execPowerFailReadbackDone (s : State) : Host.Outcome State Fault Refusal :=
  match s.node.pfStage with
  | .readBack (some _) => .next { s with node := { s.node with pfStage := .none } }
  | .readBack none =>
    if s.node.badRails.isEmpty then .next s.va5Back
    else
      let l := s.clog.staging
      let s := l.foldl (fun s e => s.clogAppend e) { s with clog := { s.clog with staging := [] } }
      let s := { s with node := { s.node with pfStage := .none } }
      .next (s.afterReset 3 3 true)
  | _ => .next s

/-- RST_N_ASSERT: RST_N is low for 1 us or more (R555, R556). -/
def execRstNAssert (s : State) : Host.Outcome State Fault Refusal :=
  let s := { s with node := { s.node with rstLow := true } }
  .next (if s.node.inReset then s else s.resetNode 4)

/-- RESET_RELEASE: every rail is valid and RST_N is high: ROLE is sampled, the reference of kindling is now, device time starts at zero
(R6, R40, R555). -/
def execResetRelease (role : Nat) (s : State) : Host.Outcome State Fault Refusal :=
  if !s.node.inReset then .next s
  else .next { s with node := { s.node with
    inReset := false, rstLow := false, badRails := [], badAt := [], role := role % 4, clock := 0, up := 0 } }

/-! ### Kindling (R559 to R562) -/

/-- The offsets of R559 in nanoseconds: 0 core logic, 1 aligner, 2 + 9 g + t the tiles and (t = 8) the reserve core of group g, 38 filter
engine, 39 to 42 stoves, 43 metering block, 44 KINDLED. -/
def kindleOffset (u : Nat) : Nat :=
  if u = 0 then 0
  else if u = 1 then 50000
  else if u < 38 then
    let g := (u - 2) / 9
    let t := (u - 2) % 9
    if t = 8 then 287500 + 200000 * g else 100000 + 200000 * g + 25000 * t
  else if u = 38 then 900000
  else if u < 43 then 925000 + 25000 * (u - 39)
  else if u = 43 then 1025000
  else 1050000

/-- Nanoseconds since the reference (R555). -/
def State.sinceRef (s : State) : Nat := s.node.up / 64

/-- KINDLE_DIE: die d starts at 2 d ms; under a FATAL kept from before only die 0, and a latched die stays fenced (R534, R558, R559). -/
def execKindleDie (die : Nat) (s : State) : Host.Outcome State Fault Refusal :=
  if s.node.dies ≤ die then .fault (.absentUnit "die" die)
  else
    let k := tget {} s.node.kindle die
    if s.node.inReset || k.start.isSome || s.sinceRef < 2000000 * die || s.dieFenced die || (s.faults.fatal && die ≠ 0) then .next s
    else .next (s.modKindle die (fun k => { k with start := some (2000000 * die) }))

/-- The factory layout, with the counts that no role may lower (R458, R460). -/
def Trust.factory (t : Trust) : Trust := { legalCnt := satInc 32 t.legalCnt, unlogged := t.unlogged, archiveCnt := t.archiveCnt }

/-- The records of die 0 are read: trust record, counter record, plan record, flash log (R460, R539, R582). -/
def State.readRecords (s : State) (chk : KindleChecks) : State :=
  let s := if chk.trust then s
    else ({ s with trust := s.trust.factory, sealImages := [] }.stageDevice 0xFF02 0).report 0x22 0 0
  let s := if chk.counters then s
    else { s with
      trust := { s.trust with legalCnt := 2 ^ 32 - 1, unlogged := 2 ^ 32 - 1, archiveCnt := 0 }
      roles := { s.roles with instLock := {}, makerLock := {} } }.report 0x22 0 0
  let s := if chk.plan then s
    else { s with
      node := { s.node with derated := [], engineStep := [], stoveStep := [] }
      age := {
        fresh := true, trigger := 2, since := s.meter.opSeconds, saved := s.meter.opSeconds, lastHour := s.meter.opSeconds / 3600 } }.report 0x2C 0 0
  { s with node := { s.node with trustLoaded := true } }

/-- A die is KINDLED: a fence of it that is being cleared ends its handling (R531, R535). -/
def State.dieKindled (s : State) (die : Nat) : State :=
  let s := s.modKindle die (fun k => { k with kindled := true })
  let t := s.now
  { s with faults := { s.faults with
      recs := s.faults.recs.map (fun e =>
      if e.2.handling && !e.2.isOpen && e.2.reaction = 5 && recDie e.2 = die then
        (e.1, { e.2 with handling := false, shadowEnd := some (t + 100000) })
      else e) } }

/-! ### Islands (R26, R29) -/

/-- The islands, 43 for each die: its tiles, its reserve cores from 32 on, its stoves from 36 on, its filter engine, its metering block, its
sample fabric; after all dies the two ends of each flue bridge, then the host controller, the fault manager and the two SerDes groups (log 18). -/
def State.islands (s : State) : Nat := 43 * s.node.dies + 2 * (s.node.dies - 1) + 4

/-- The island of a unit of kindling, for the core logic the sample fabric, the bridge ends and, on die 0, the blocks that only it has. -/
def State.islandsOf (s : State) (die u : Nat) : List Nat :=
  let base := 43 * die
  let ends := 43 * s.node.dies
  if u = 0 then
    (base + 42) :: (if die = 0 then [s.islands - 4, s.islands - 3] else [ends + 2 * (die - 1), ends + 2 * (die - 1) + 1])
  else if u = 1 || 43 < u then []
  else if u < 38 then [if (u - 2) % 9 = 8 then base + 32 + (u - 2) / 9 else base + 8 * ((u - 2) / 9) + (u - 2) % 9]
  else if u = 38 then [base + 40]
  else if u < 43 then [base + 36 + (u - 39)]
  else [base + 41]

/-- The oscillators of these islands are trimmed: each between its step frequency and 3 % above it, a free value (R29, log 18). -/
def State.trimIslands (s : State) (l : List Nat) : State :=
  { s with
    node := { s.node with trim := (List.range l.length).foldl (fun t j => tset t (l.getD j 0) (Config.freeVal (s.fresh + j) % 30001)) s.node.trim }
    fresh := s.fresh + l.length }

/-- What the kindling of a unit does: the checks of the core logic; a tile or stove of a die that returns resumes (R535, R557). -/
def State.kindleEffect (s : State) (die u : Nat) (chk : KindleChecks) : State :=
  if u = 0 then
    let ok := (s.rowsOf die).valid die (s.rowsOf die).inForce
    let s := s.modRows die (fun x => { x with rowOk := ok })
    let s := if ok then s else s.report 0x1F die 0
    let s := s.modKindle die (fun k => { k with lastTransfer := s.now })
    if die = 0 && !s.node.trustLoaded then s.readRecords chk else s
  else if u = 1 then s
  else if u < 38 then
    if (u - 2) % 9 = 8 then s
    else
      let n := 32 * die + 8 * ((u - 2) / 9) + (u - 2) % 9
      if s.tileFenced n then s else s.resumeTile n
  else if u = 38 then s
  else if u < 43 then s.stoveBack (4 * die + (u - 39))
  else if u = 43 then s
  else s.dieKindled die

/-- KINDLE_UNIT: the next unit of a die reaches its offset and kindles; under FATAL only the core logic of die 0 (R558, R559). -/
def execKindleUnit (die : Nat) (chk : KindleChecks) (s : State) : Host.Outcome State Fault Refusal :=
  if s.node.dies ≤ die then .fault (.absentUnit "die" die)
  else
    let k := tget {} s.node.kindle die
    match k.start with
    | none => .next s
    | some t =>
      let u := k.nextUnit
      if s.node.inReset || 44 < u || s.sinceRef < t + kindleOffset u || s.dieFenced die || (s.faults.fatal && u ≠ 0) then .next s
      else
        let s := s.modKindle die (fun k => { k with nextUnit := u + 1, bridgeUp := k.bridgeUp || (die ≠ 0 && chk.bridge) })
        .next ((s.trimIslands (s.islandsOf die u)).kindleEffect die u chk).checkReady

/-- KINDLE_LANE: the next PCIe lane, or ring lane, reaches its slot, the oscillator of a SerDes group with its first one; a PCIe lane waits for the release of PCIE_PERST_N (R560). -/
def execKindleLane (ring : Bool) (s : State) : Host.Outcome State Fault Refusal :=
  let n := s.node
  let first := 2000000 * n.dies
  if n.inReset then .next s
  else if ring then
    if s.isAlone || s.faults.fatal || 8 ≤ n.ringLanes || s.sinceRef < first + 2000000 + 250000 * n.ringLanes then .next s
    else
      let s := if n.ringLanes % 4 = 0 then s.trimIslands [s.islands - 2 + n.ringLanes / 4] else s
      .next ({ s with node := { s.node with ringLanes := n.ringLanes + 1 } }.checkReady)
  else if s.isWorker || s.host.perst || 8 ≤ n.pcieLanes || s.sinceRef < first + 250000 * n.pcieLanes then .next s
  else .next ({ s with node := { n with pcieLanes := n.pcieLanes + 1 } }.checkReady)

/-- FLUE_BRIDGE_TIMEOUT: the bridge of a non-lead die has not come up 5 ms after its start (R561). -/
def execFlueBridgeTimeout (die : Nat) (s : State) : Host.Outcome State Fault Refusal :=
  if s.node.dies ≤ die then .fault (.absentUnit "die" die)
  else
    let k := tget {} s.node.kindle die
    match k.start with
    | none => .next s
    | some t =>
      if s.node.inReset || die = 0 || k.bridgeUp || s.sinceRef < t + 5000000 || s.dieFenced die
          || s.faults.reports.contains (0x12, die, 0) then .next s
      else .next (s.report 0x12 die 0)

/-! ### The flue bridges (R25, R516) -/

/-- FLUE_TRANSFER: a transfer from a die; its first CRC failure is resent and reports FLUE_CRC, a second one reports FLUE_FAIL. -/
def execFlueTransfer (die : Nat) (bad : Bool) (s : State) : Host.Outcome State Fault Refusal :=
  if s.node.dies ≤ die || die = 0 then .fault (.absentUnit "flue bridge" die)
  else
    let k := tget {} s.node.kindle die
    if s.node.inReset || !k.bridgeUp || s.dieFenced die then .next s
    else if !bad then .next (s.modKindle die (fun k => { k with resend := false, lastTransfer := s.now }))
    else if k.resend then .next ((s.modKindle die (fun k => { k with resend := false })).report 0x11 die 0)
    else .next ((s.modKindle die (fun k => { k with resend := true })).report 0x10 die 0)

/-- DIE_KEEPALIVE_TIMEOUT: no valid transfer or keepalive from a die for 8 us: DIE_LOST. -/
def execDieKeepaliveTimeout (die : Nat) (s : State) : Host.Outcome State Fault Refusal :=
  if s.node.dies ≤ die || die = 0 then .fault (.absentUnit "flue bridge" die)
  else
    let k := tget {} s.node.kindle die
    if s.node.inReset || !k.bridgeUp || s.dieFenced die || s.now < k.lastTransfer + 8000
        || s.faults.reports.contains (0x12, die, 0) then .next s
    else .next (s.report 0x12 die 0)

/-! ### The draught's source (R33, R36 to R38, R563) -/

/-- The source is lost: holdover, and its report (R36). -/
def State.holdOver (s : State) : State :=
  let s := { s with node := { s.node with dclkPresent := false, draughtLocked := false, holdover := true } }
  s.report 0x15 0 0

/-- DCLK_LOSS: no DCLK edge for 8 periods, on a part that runs from DCLK. -/
def execDclkLoss (s : State) : Host.Outcome State Fault Refusal :=
  if s.node.inReset || s.isWorker || !s.node.dclkPresent then .next s else .next s.holdOver

/-- DCLK_ABSENT_TIMEOUT: DCLK has not arrived 100 ms after the reference. -/
def execDclkAbsentTimeout (s : State) : Host.Outcome State Fault Refusal :=
  if s.node.inReset || s.isWorker || s.node.dclkPresent || s.node.holdover || s.sinceRef < 100000000 then .next s
  else .next s.holdOver

/-- DRAUGHT_SOURCE_RETURN: DCLK, or on a worker the clock of a receive port, is there; the draught locks to it without a phase step. -/
def execDraughtSourceReturn (east : Bool) (s : State) : Host.Outcome State Fault Refusal :=
  if s.node.inReset then .next s
  else
    let s := { s with node := { s.node with draughtLocked := true, holdover := false, everLocked := true } }
    if !s.isWorker then .next { s with node := { s.node with dclkPresent := true } }
    else if east then .next { s with ring := { s.ring with east := { s.ring.east with clockLost := false } } }
    else .next { s with ring := { s.ring with west := { s.ring.west with clockLost := false } } }

/-- RECOVERED_CLOCK_LOSS: a receive port of a worker loses lock: its other port takes over, or the draught goes to holdover (R36, R38). -/
def execRecoveredClockLoss (east : Bool) (s : State) : Host.Outcome State Fault Refusal :=
  if s.node.inReset || !s.isWorker then .next s
  else
    let r := s.ring
    let r := if east then { r with east := { r.east with clockLost := true } } else { r with west := { r.west with clockLost := true } }
    if r.east.clockLost && r.west.clockLost then
      .next (if s.node.holdover then { s with ring := r } else { s with ring := r }.holdOver)
    else .next { s with ring := if r.activeEast = east then { r with activeEast := !east } else r }

/-- OSCILLATOR_TRIM: every 10 ms each island is trimmed (R26, R29, log 18). -/
def execOscillatorTrim (s : State) : Host.Outcome State Fault Refusal :=
  if s.node.inReset || s.now < s.node.trimAt + 10000000 then .next s
  else .next ({ s with node := { s.node with trimAt := s.now } }.trimIslands (List.range s.islands))

/-! ### DEV_RESET (R567) -/

/-- The nodes of a DEV_RESET mask but this one. -/
def resetNodes (r : Req) : List Nat := (List.range 64).filter (fun j => j ≠ 0 && r.b (16 + j / 8) (j % 8))

/-- DEV_RESET is acknowledged by every worker named: the node resets itself last, or the command completes (R567). -/
def State.devResetDone (s : State) (r : Req) : State :=
  if r.b 16 0 then s.resetNode 5 else s.finish r .ok 0

def devResetSpec : CmdSpec :=
  { opcode := 0x0E01
    opLogged := fun _ _ => true
    node := .zeroOnly
    refuse := fun r w s =>
      let mask := r.u 16 0 64
      [(r.origin = .ring && (mask = 0 || (s.isAlone && mask ≠ 1) || (resetNodes r).any (fun j => !s.nodeThere j)), .badParam),
       needs w 1, (r.fn ≠ 0, .rights)]
    act := fun r s =>
      match r.origin with
      | .frame _ _ => { st := s.resetNode 5, late := true }
      | .ring =>
        let l := resetNodes r
        if l.isEmpty then { st := s.devResetDone r, late := true }
        else
          let s := l.foldl (fun s j => s.sendAcked .cmd j (mkRec [⟨1, 0, 8, 1⟩, ⟨16, 0, 512, r.entry.toNat⟩])) s
          { st := s.startOp (opMark 0x0E01) 0 r 0 0, late := true } }

/-- DEV_RESET (R567). -/
def execDevReset (r : Req) (s : State) : Host.Outcome State Fault Refusal := .next (devResetSpec.run r s)

end Sys2Proof.Machine
end

