-- ==== Sys2Proof/Machine/Seal.lean ====
section
/-! DEFINITION. Seal images: their capture, their restoration when a sealed hearth becomes live, and liveness itself (R459, R475, R476). -/

set_option Elab.async false

namespace Sys2Proof.Machine

/-- The tiles whose chain 1 a hearth holds, its pairs and its stoves. -/
def State.chain1Tiles (s : State) (h : Nat) : List Nat := (List.range s.nTiles).filter (fun n => s.chain1Holder n = h)
def State.hearthPairs (s : State) (h : Nat) : List Nat :=
  (List.range s.nPairs).filter (fun n => (s.pair n).state ≠ PairState.unconfigured && s.pairHolder n = h)
def State.hearthStoves (s : State) (h : Nat) : List Nat := (List.range s.nStoves).filter (fun n => s.stoveOwner n = h)

/-- The seal image of a hearth as it stands (R475). -/
def State.sealImage (s : State) (h : Nat) : SealImage :=
  { tiles := (s.chain1Tiles h).map (fun n => (n, s.tile n))
    pairs := (s.hearthPairs h).map (fun n => (n, s.pair n))
    stoves := (s.hearthStoves h).map (fun n => (n, s.stove n)) }

/-- The distinct banks of a hearth's chains: coefficients and tap count (R475). -/
def State.imageBanks (s : State) (h : Nat) : List (List Int × Nat) :=
  ((s.chain1Tiles h).flatMap (fun n =>
    let c := (s.tile n).c1
    [(c.active.coefs, c.ntaps), (c.shadow.coefs, c.ntaps)])).eraseDups

/-- The size of the image in bytes (R475). -/
def State.imageSize (s : State) (h : Nat) : Nat :=
  64 + 256 * (s.chain1Tiles h).length + 576 * (s.imageBanks h).length + 64 * (s.hearthPairs h).length
    + 135168 * (s.hearthStoves h).length

/-- Chain 1 as an image restores it: the configuration with both banks and the DC-blocking estimates; counters and contexts start anew. -/
def Chain.fromImage (c : Chain) : Chain :=
  { c with
    swap := none, swapGo := false, fclamp := {}, govf := {}, lastGovf := 0,
    ctx := c.ctx.map (fun e => (e.1, { est := e.2.est })) }

/-- A tile takes its FE_CONFIG, its active list and sequencer mode, its tile mode and its chain-1 configuration from an image. -/
def Tile.fromImage (t x : Tile) : Tile :=
  { t with
    fe := { t.fe with chop := x.fe.chop, refsel := x.fe.refsel, cmxEv := x.fe.cmxEv, ovpEv := x.fe.ovpEv }
    seq := { t.seq with
      active := x.seq.active, shadow := x.seq.active ++ t.seq.shadow.drop x.seq.active.length, mode := x.seq.mode,
      passes := x.seq.passes, trigSrc := x.seq.trigSrc, trigArg := x.seq.trigArg }
    force := { t.force with mode := x.force.mode }
    c1 := x.c1.fromImage }

/-- A pair takes its configuration; one recorded as running starts at the next window boundary. -/
def Pair.fromImage (p x : Pair) : Pair :=
  { p with
    kind := x.kind, vTile := x.vTile, iTile := x.iTile, vSlot := x.vSlot, iSlot := x.iSlot, w := x.w, delay := x.delay,
    qid := x.qid, vFs := x.vFs, iFs := x.iFs, state := .stopped,
    startPending := decide (x.state = .running) || decide (x.state = .mismatch) || x.startPending }

/-- A law as an image restores it. -/
def Law.fromImage (l : Law) : Law :=
  { enable := l.enable, trigKind := l.trigKind, trigMask := l.trigMask, entry := l.entry, codeBase := l.codeBase, codeLen := l.codeLen,
    maxCycles := l.maxCycles, ovrLimit := l.ovrLimit, loops := l.loops, alignWait := l.alignWait }

/-- A stove takes its SRAM images with the loop records, its laws, bindings and configuration, and is STOPPED. -/
def Stove.fromImage (v x : Stove) : Stove :=
  { v with
    isram := x.isram, dsram := x.dsram, trapMask := x.trapMask, trapAction := x.trapAction, psBank := x.psBank,
    psFirst := x.psFirst, psCount := x.psCount, laws := x.laws.map (fun e => (e.1, e.2.fromImage)),
    ports := x.ports.map (fun e => (e.1, { bound := e.2.bound })), forceBind := x.forceBind, msgBind := x.msgBind,
    recBind := x.recBind }

/-- The image of a hearth is applied: tiles that are not OFF in it kindle through the queues of their dies (R476). -/
def State.restoreImage (s : State) (h : Nat) : State :=
  let x := tget {} s.sealImages h
  let s := x.tiles.foldl (fun (s : State) e =>
    let s := s.modTile e.1 (fun t => t.fromImage e.2)
    if e.2.force.mode = .off then s else s.kindleTile e.1) s
  let s := x.pairs.foldl (fun (s : State) e => s.modPair e.1 (fun p => p.fromImage e.2)) s
  x.stoves.foldl (fun (s : State) e => s.modStove e.1 (fun v => v.fromImage e.2)) s

/-- A hearth becomes live: a sealed one has its image restored first; an image whose CRC fails leaves the hearth's resources dormant and
reports SEAL_IMAGE_INVALID (R459, R476). -/
def State.makeLive (s : State) (badImages : List Nat) (h : Nat) : State :=
  if s.isLive h then s
  else
    let fails := s.intact h && badImages.contains h
    let s := if fails then s.report 0x23 h 0 else if s.intact h then s.restoreImage h else s
    { s with trust := { s.trust with
      live := insertSorted h s.trust.live, dormant := if fails then insertSorted h s.trust.dormant else s.trust.dormant } }

end Sys2Proof.Machine
end

