-- ==== Sys2Proof/Machine/Host.lean ====
section
/-! DEFINITION. The PCIe link, function-level resets, the functions, vectors and registers of the host interface (R357 to R376, R565,
R566, R608 to R618, R622). -/

set_option Elab.async false

namespace Sys2Proof.Machine

/-! ### Function-level resets (R371, R372) -/

/-- A queue as a reset of its function leaves it: not live, its context dropped; the kind stays while streams are bound to it (R415). -/
def State.dropQueue (s : State) (q : Nat) : State :=
  let bound := !(s.streamsOf q).isEmpty
  let x := s.queue q
  let kept : Option Nat := if !bound then none else if x.live then some x.kind else x.keptKind
  let queues := if bound then tset s.host.queues q { keptKind := kept } else terase s.host.queues q
  let drop := fun (x : Share) => if x.qid = some q then { x with openBlock := none, pond := [], gapNext := true } else x
  let h := s.host
  { s with host := { h with
    queues := queues, ctxOrder := h.ctxOrder.filter (· ≠ q), reads := h.reads.filter (fun x => x.qid ≠ q),
    recWait := h.recWait.filter (fun x => x.1 ≠ q), leftover := h.leftover.filter (fun x => x.qid ≠ q),
    streams := h.streams.map (fun e => (e.1, { e.2 with sample := drop e.2.sample, capture := drop e.2.capture })) } }

/-- The QIDs of a function that the device holds. -/
def State.queuesOf (s : State) (f : Nat) : List Nat :=
  (s.host.queues.map (fun e => e.1)).filter (fun q => s.qidOwner q = some f)

/-- A session opened on a function closes (R467). -/
def State.closeSessionsOf (s : State) (f : Nat) : State :=
  let keep := fun (x : Option Session) => x.filter (fun y => y.fn ≠ f)
  { s with roles := { s.roles with installer := keep s.roles.installer, maker := keep s.roles.maker } }

/-- A command of a queue of function f is parted from its queue: it runs to its end, and its completion and its results are discarded (R371). -/
def State.part (s : State) (f : Nat) (r : Req) : Req :=
  if r.origin = .ring && s.qidOwner r.qid = some f then { r with qid := goneQid } else r

/-- What a staged change-log entry is for, with its command parted from its queue. -/
def ClogFor.mapReq (w : ClogFor) (g : Req → Req) : ClogFor :=
  match w with
  | .command r => .command (g r)
  | .ended r st n => .ended (g r) st n
  | .archive r => .archive (g r)
  | .device => .device
  | .resetGo => .resetGo

/-- Every command in hand of a function's queues is parted from its queue, and a QUEUE_DESTROY that waits for one of them ends (R371). -/
def State.partCommands (s : State) (f : Nat) : State :=
  let p := s.part f
  let mine := fun q => decide (s.qidOwner q = some f)
  let h := s.host
  let s : State := { s with
    host := { h with
      ops := h.ops.map (fun o => { o with req := p o.req }), waiting := h.waiting.map (fun e => (p e.1, e.2)),
      fetched := h.fetched.map (fun e => if mine e.1 then (goneQid, e.2) else e),
      rights := h.rights.map (fun e => if mine e.1.1 then ((goneQid, e.1.2), e.2) else e) }
    clog := { s.clog with staging := s.clog.staging.map (fun e => { e with why := e.why.mapReq p }) }
    ring := { s.ring with forwarded := s.ring.forwarded.map (fun x => { x with req := p x.req }) }
    ps := s.ps.map (fun b => (b.1, { b.2 with queue := b.2.queue.map (fun o => { o with req := o.req.map p }) }))
    stoveTab := s.stoveTab.map (fun v => (v.1, { v.2 with loopWait := v.2.loopWait.map p }))
    age := { s.age with replan := s.age.replan.map (fun x => { x with req := x.req.map p }) } }
  (s.host.ops.filter (fun o => o.opcode = 0x0902 && mine o.key)).foldl
    (fun (s : State) o => { s with host := { s.host with ops := s.host.ops.erase o } }.finishOne o.req .ok 0) s

/-- A function-level reset: the host face of the function goes, the configuration of its hearth stays (R371). -/
def State.resetFn (s : State) (f : Nat) : State :=
  let s := s.partCommands f
  let s := (s.queuesOf f).foldl (fun s q => s.dropQueue q) s
  let h := s.host
  let s := { s with host := { h with
    cplWait := h.cplWait.filter (fun c => s.qidOwner c.qid ≠ some f), tlb := h.tlb.filter (fun t => t.fn ≠ f),
    vecs := h.vecs.filter (fun e => e.1 / 2048 ≠ f) } }
  let s := s.modFn f (fun x => { x with
    cfg := {}, admin := {}, barErr := {}, timeLatch := 0, faultLatch := 0, evQid := none, logQid := none, evStage := [], logStage := [],
    root := { x.root with en := false, active := false, flrBusy := true } })
  let s := if f = 0 then s else s.safeActions (s.forceTilesOf (f - 1))
  let s := s.closeSessionsOf f
  let s := s.logEv 0x0101 15 (hearthOfFn f) 0
  s.raiseFnReset f

/-- What acts as an FLR of every function, the PF included: VF Enable falls with the configuration space (R372). -/
def State.resetAllFns (s : State) : State :=
  let s := (List.range 9).foldl (fun s f => s.resetFn (8 - f)) s
  { s with host := { s.host with vfEnable := false, numVfs := 0 } }

/-- A function is there: the PF, or a VF that exists (R361). -/
def State.fnThere (s : State) (f : Nat) : Bool := f = 0 || (decide (f < 9) && s.vfExists (f - 1))

/-- The host reaches the device: a link in L0 of a part that has one (R360, R533). -/
def State.hostUp (s : State) : Bool :=
  !s.node.inReset && !s.isWorker && s.host.linkUp && !s.host.retraining && !(s.faults.fatal && s.faults.fatalDet = 0x1B)

/-- The BARs of a function answer: it is in D0 with Memory Space set, and no reset of it is in progress (R363, R371, R374). -/
def State.barUp (s : State) (f : Nat) : Bool :=
  s.hostUp && s.fnThere f && !(s.fn f).root.flrBusy && (s.fn f).cfg.memory && !(s.fn f).cfg.d3hot

/-- A function may issue requests: in D0 with Bus Master set (R374). -/
def State.busOn (s : State) (f : Nat) : Bool := (s.fn f).cfg.master && !(s.fn f).cfg.d3hot

/-- FLR of a function: a VF alone, or with the PF every function (R371, R372). -/
def execFlr (fn : Nat) (s : State) : Host.Outcome State Fault Refusal :=
  if !s.hostUp || !s.fnThere fn then .next s
  else if fn = 0 then .next s.resetAllFns
  else .next (s.resetFn fn)

/-- FLR_DONE: every step of the reset has ended. -/
def execFlrDone (fn : Nat) (s : State) : Host.Outcome State Fault Refusal :=
  if s.node.inReset || !(s.fn fn).root.flrBusy then .next s
  else .next (s.modFn fn (fun x => { x with root := { x.root with flrBusy := false } }))

/-- The link is down: what it had trained to is gone. -/
def State.linkLost (s : State) : State :=
  { s.resetAllFns with host := { s.resetAllFns.host with linkUp := false, retraining := false, width := 0, rate := 0 } }

/-- DL_DOWN: the link falls (R372). -/
def execDlDown (s : State) : Host.Outcome State Fault Refusal :=
  if s.node.inReset || s.isWorker || !s.host.linkUp then .next s else .next s.linkLost

/-- HOT_RESET (R372). -/
def execHotReset (s : State) : Host.Outcome State Fault Refusal :=
  if s.node.inReset || s.isWorker || !s.host.linkUp then .next s else .next s.linkLost

/-- PCIE_PERST_N_ASSERT (R360, R372). -/
def execPciePerstNAssert (s : State) : Host.Outcome State Fault Refusal :=
  if s.node.inReset || s.isWorker then .next { s with host := { s.host with perst := true } }
  else .next { s.linkLost with host := { s.linkLost.host with perst := true } }

/-- PCIE_PERST_N_RELEASE: the lanes whose slots have passed kindle (R560). -/
def execPciePerstNRelease (s : State) : Host.Outcome State Fault Refusal :=
  let s := { s with host := { s.host with perst := false } }
  let due := (List.range 8).filter (fun k => 2000000 * s.node.dies + 250000 * k ≤ s.sinceRef)
  if s.node.inReset || s.isWorker then .next s
  else .next ({ s with node := { s.node with pcieLanes := max s.node.pcieLanes due.length } }.checkReady)

/-! ### Training (R49, R409, R613, R614) -/

/-- SHORTFALL: the link is up, and ADMITTED exceeds ADMIT, both exact (R49, R613). -/
def State.shortfall (s : State) : Bool := s.host.linkUp && decide (s.pcieAdmit < s.admitted)

/-- A width and rate the link can train to. -/
def State.trains (s : State) (width rate : Nat) : Bool :=
  [1, 2, 4, 8].contains width && decide (1 ≤ rate) && decide (rate ≤ s.host.targetRate)

/-- PCIE_LINK_UP: the link reaches L0, unless HOST_CTRL_UE holds the transmitters idle (R374, R533). -/
def execPcieLinkUp (width rate : Nat) (s : State) : Host.Outcome State Fault Refusal :=
  if s.node.inReset || s.isWorker || s.host.linkUp || s.host.perst || s.node.pcieLanes < 8 || !s.trains width rate
      || (s.faults.fatal && s.faults.fatalDet = 0x1B) then .next s
  else .next { s with host := { s.host with linkUp := true, width := width, rate := rate } }

/-- The functions that own a queue of an admitted stream. -/
def State.admittedFns (s : State) : List Nat :=
  (List.range 9).filter (fun f => s.host.streams.any (fun e => match e.2.sample.qid with
    | some q => s.qidOwner q = some f
    | none => false))

/-- Entries per second beyond the admissible figure, rounded up. -/
def State.beyond (s : State) : Nat := (s.admitted - s.pcieAdmit).ceil.toNat

/-- LINK_RETRAIN_START: no TLP passes until the retrain ends. -/
def execLinkRetrainStart (s : State) : Host.Outcome State Fault Refusal :=
  if !s.hostUp then .next s else .next { s with host := { s.host with retraining := true } }

/-- LINK_RETRAIN_DONE: width and rate follow, and ADMIT with them; a lower figure raises LINK_SHORTFALL to every function with admitted
streams, with what they have beyond it (R49, R409). -/
def execLinkRetrainDone (width rate : Nat) (s : State) : Host.Outcome State Fault Refusal :=
  if s.node.inReset || !s.host.retraining || !s.trains width rate then .next s
  else
    let before := s.pcieAdmit
    let s := { s with host := { s.host with
      retraining := false, width := width, rate := rate, retrain := s.host.retrain.bump 16 } }
    if s.pcieAdmit < before then
      .next (s.admittedFns.foldl (fun (s : State) f => s.raise 0x0906 (hearthOfFn f) (hearthOfFn f) s.beyond) s)
    else .next s

/-! ### Functions (R361, R369) -/

/-- VF_ENABLE: a change of VF Enable and NumVFs. VFs come into being and their hearths live, each change sent to the workers; or all
functions are reset (R361, R372, R459). -/
def execVfEnable (num : Nat) (enable : Bool) (badImages : List Nat) (s : State) : Host.Outcome State Fault Refusal :=
  if !s.hostUp || 8 < num then .next s
  else if !enable then
    if s.host.vfEnable then .next s.resetAllFns else .next { s with host := { s.host with numVfs := num } }
  else
    let s := { s with host := { s.host with vfEnable := true, numVfs := num } }
    let before := s.trust.live
    let s := (List.range num).foldl (fun s h => s.makeLive badImages h) s
    let mask := maskOf 8 s.trust.live.contains
    if s.trust.live = before || !s.isManager then .next s
    else .next ((s.ring.table.filter (fun e => e.2.present)).foldl (fun (s : State) e =>
      s.sendAcked .cmd e.1 (mkRec [⟨2, 0, 8, mask⟩, ⟨3, 0, 8, 1⟩])) s)

/-- FN_CTRL_EN: the PF driver sets or clears EN of a root block; ignored for a VF that does not exist and during a reset (R369, R371). -/
def execFnCtrlEn (fn : Nat) (en : Bool) (s : State) : Host.Outcome State Fault Refusal :=
  if !s.barUp 0 || !s.fnThere fn || (en && (s.fn fn).root.flrBusy) then .next s
  else .next (s.modFn fn (fun x => { x with root := { x.root with en := en, active := en } }))

/-- An invalidation starts: the translations in its range are dropped (R403). -/
def State.startInval (s : State) (x : Inval) : State :=
  let hit := fun (t : TlbEntry) => t.fn = x.fn && decide (t.base < x.hi) && decide (x.lo < t.base + 2 ^ t.bits)
  { s with host := { s.host with tlb := s.host.tlb.filter (fun t => !hit t), invals := s.host.invals ++ [x] } }

/-- TLB_INV: a write of 1 to a root block's TLB_INV (R369). -/
def execTlbInv (fn : Nat) (s : State) : Host.Outcome State Fault Refusal :=
  if !s.barUp 0 || 9 ≤ fn then .next s
  else .next (s.startInval { fn := fn, lo := 0, hi := 2 ^ 52, viaRoot := true })

/-- The cached contexts of a function are written back and dropped; so is what has changed in one that was evicted (R380, R403). -/
def State.flushContexts (s : State) (f : Nat) : State :=
  (s.queuesOf f).foldl (fun (s : State) q =>
    let x := s.queue q
    if q < 18 || !(x.cached || x.dirty) then s
    else
      let s := s.emit (.context q (x.stateHalf x.live (s.streamsOf q).length))
      let s := s.modQueue q (fun x => { x with cached := false, dirty := false })
      { s with host := { s.host with ctxOrder := s.host.ctxOrder.filter (· ≠ q) } }) s

/-- INVALIDATION_END: the first invalidation in progress ends: INV_CNT advances, or LMAP_INVAL completes (R369, R403, R417). -/
def execInvalidationEnd (s : State) : Host.Outcome State Fault Refusal :=
  match s.host.invals with
  | [] => .next s
  | x :: rest =>
    let s := { s with host := { s.host with invals := rest } }
    if x.viaRoot then
      .next ((s.flushContexts x.fn).modFn x.fn (fun y => { y with root := { y.root with invCnt := (y.root.invCnt + 1) % 256 } }))
    else .next (s.endOp 0x0905 x.fn .ok 0)

/-! ### The admin pairs (R366 to R368) -/

/-- Admin rings start empty. -/
def adminQueue (a : AdminBlock) (cpl : Bool) (q : Nat) : Queue :=
  { kind := if cpl then 1 else 0, int := cpl, log2 := if cpl then a.cplLog2 else a.cmdLog2, vec := a.vec, cplQid := if cpl then 0 else q + 1,
    ringBase := if cpl then a.cplBase else a.cmdBase, live := true, cached := true, pinned := false }

/-- ADMQ_EN_SET: EN of an admin block is set, with VEC: the checks of R367, then the pair runs with empty rings. -/
def execAdmqEnSet (fn v : Nat) (s : State) : Host.Outcome State Fault Refusal :=
  let a := (s.fn fn).admin
  if !s.barUp fn || a.stopping || a.run then .next s
  else
    let err := if a.cmdBase % 4096 ≠ 0 || a.cplBase % 4096 ≠ 0 then 1
      else if a.cmdLog2 < 6 || 12 < a.cmdLog2 || a.cplLog2 < 6 || 12 < a.cplLog2 || a.cplLog2 < a.cmdLog2 then 2
      else if fn ≠ 0 && !(s.fn fn).root.en then 3
      else 0
    let a := { a with en := decide (err = 0), run := decide (err = 0), err := err, vec := v % 2048 }
    let s := s.modFn fn (fun x => { x with admin := a })
    if err ≠ 0 then .next s
    else .next { s with host := { s.host with
      queues := tset (tset s.host.queues (2 * fn) (adminQueue a false (2 * fn))) (2 * fn + 1) (adminQueue a true (2 * fn + 1)) } }

/-- Fetching stops; commands in hand run to their end under STOPPING, and their completions are written (R367, R368). -/
def State.stopAdmin (s : State) (fn err : Nat) : State :=
  (s.modFn fn (fun x => { x with admin := { x.admin with en := false, err := err, stopping := x.admin.run } })).adminRest fn

/-- ADMQ_EN_CLEAR (R368). -/
def execAdmqEnClear (fn : Nat) (s : State) : Host.Outcome State Fault Refusal :=
  if !s.barUp fn || !(s.fn fn).admin.run || (s.fn fn).admin.stopping then .next s
  else .next (s.stopAdmin fn (s.fn fn).admin.err)

/-! ### Vectors (R373) -/

/-- One message for the causes gathered, or the pending bit of a masked vector. -/
def State.sendVec (s : State) (fn v : Nat) : State :=
  if s.vecHeld fn v then s.modVec fn v (fun x => { x with pendingBit := true })
  else (s.modVec fn v (fun x => { x with causes := 0, pendingBit := false, sent := (x.sent + 1) % 65536 })).emit (.message fn v)

/-- MSIX_MOD_TIMER: MOD_TIME has passed since the first cause gathered. -/
def execMsixModTimer (fn v : Nat) (s : State) : Host.Outcome State Fault Refusal :=
  let x := s.vec fn v
  if !s.hostUp || x.causes = 0 || x.modTime = 0 || s.now < x.first + 100 * x.modTime || x.pendingBit then .next s
  else .next (s.sendVec fn v)

/-- The mask bit of a vector is cleared: one message for what is pending. -/
def State.unmask (s : State) (fn v : Nat) : State :=
  let s := s.modVec fn v (fun x => { x with masked := false })
  if (s.vec fn v).pendingBit then s.sendVec fn v else s

/-- MSIX_UNMASK. -/
def execMsixUnmask (fn v : Nat) (s : State) : Host.Outcome State Fault Refusal :=
  if !s.barUp fn || vecCount fn ≤ v then .next s else .next (s.unmask fn v)

/-- Messages may go again: one for each vector with its pending bit set that nothing holds any more. -/
def State.sendPending (s : State) (fn : Nat) : State :=
  (s.host.vecs.filter (fun e => e.1 / 2048 = fn && e.2.pendingBit && !s.vecHeld fn (e.1 % 2048))).foldl
    (fun (s : State) e => s.sendVec fn (e.1 % 2048)) s

/-! ### Register reads (R365, R541, R608 to R617) -/

/-- ROWS_IN_FORCE of R610. -/
def State.rowsInForce (s : State) : Nat :=
  ((List.range s.node.dies).map (fun d => (s.rowsOf d).inForce % 16 * 16 ^ d)).foldl (· + ·) 0

/-- DEV_STATUS of R611, with BAR_ERR of a function. -/
def State.devStatus (s : State) (c : Cnt) : Nat :=
  let n := s.node
  mkRec [⟨0, 0, 8, maskOf 8 (fun d => (tget {} n.kindle d).kindled)⟩, ⟨0, 8, 1, b2n n.ready⟩, ⟨0, 9, 1, b2n s.faults.fatal⟩,
    ⟨0, 10, 1, b2n s.fltLow⟩, ⟨0, 11, 1, b2n n.holdover⟩, ⟨0, 12, 1, b2n n.dclkPresent⟩, ⟨0, 15, 1, b2n c.sat⟩, ⟨0, 16, 16, c.n⟩]

/-- ROLE_RB of R615. -/
def State.roleRb (s : State) : Nat :=
  let workers := (s.ring.table.filter (fun e => e.2.present)).length
  s.node.role + 256 * (if s.isWorker then s.ring.nodeNo else 0)
    + (if s.isManager then 65536 * workers + 2 ^ 22 * s.ring.view else 0)

/-- HEARTH_RB of R615. -/
def State.hearthRb (s : State) : Nat :=
  mkRec [⟨0, 0, 8, maskOf 8 s.isLive⟩, ⟨1, 0, 8, maskOf 8 s.intact⟩, ⟨2, 0, 8, maskOf 8 s.hearthFenced⟩,
    ⟨3, 0, 3, s.trust.protHearth.getD 0⟩, ⟨3, 3, 1, b2n s.trust.protHearth.isSome⟩,
    ⟨3, 4, 2, match s.prot.state with
      | .notProven => 0 | .proven => 1 | .armed => 2 | .tripped => 3⟩]

/-- VF_INFO of R617. -/
def State.vfInfo (s : State) (h : Nat) : Nat :=
  let opens := (s.faults.recs.filter (fun e => e.2.isOpen && e.2.hearth = some h)).length
  mkRec [⟨0, 0, 3, h⟩, ⟨0, 3, 1, b2n (s.isLive h)⟩,
    ⟨0, 4, 2, match s.seal h with
      | .never => 0 | .intact => 1 | .broken => 2⟩, ⟨0, 6, 1, b2n (s.hearthFenced h)⟩,
    ⟨0, 7, 1, b2n (s.trust.protHearth = some h)⟩, ⟨1, 0, 8, min opens 255⟩]

/-- The words of an admin block (R366). -/
def AdminBlock.word (a : AdminBlock) (off : Nat) : Nat :=
  match off with
  | 0x00 => a.cmdBase % 2 ^ 32
  | 0x04 => a.cmdBase / 2 ^ 32
  | 0x08 => a.cplBase % 2 ^ 32
  | 0x0C => a.cplBase / 2 ^ 32
  | 0x10 => a.cmdLog2 + 256 * a.cplLog2
  | 0x14 => b2n a.en + 65536 * a.vec
  | 0x18 => b2n a.run + 2 * b2n a.stopping + 256 * a.err
  | _ => 0

/-- The words of a root block (R369, R616). -/
def Fn.rootWord (x : Fn) (off : Nat) : Nat :=
  match off with
  | 0x00 => x.root.ctxBase % 2 ^ 32
  | 0x04 => x.root.ctxBase / 2 ^ 32
  | 0x08 => x.root.lmapRoot % 2 ^ 32
  | 0x0C => x.root.lmapRoot / 2 ^ 32
  | 0x10 => b2n x.root.en
  | 0x14 => b2n x.root.active + 2 * b2n x.root.flrBusy + 256 * x.root.invCnt
  | 0x18 => x.dbRej.n + 65536 * b2n x.dbRej.sat
  | _ => 0

/-- The identity block (R610). -/
def State.identityWord (s : State) (off : Nat) : Nat :=
  match off with
  | 0x00 => s.node.dies + 256 + 65536 * 0x09A0
  | 0x04 => Config.stepping % 256 + 256 * (Config.fuseMap % 256)
  | 0x08 => Config.serial % 2 ^ 32
  | 0x0C => Config.serial / 2 ^ 32 % 2 ^ 32
  | 0x10 => s.node.bootCnt
  | 0x14 => s.opSeconds / 3600 % 2 ^ 32
  | 0x18 => s.rowsInForce
  | _ => 0

/-- The link block (R613). -/
def State.linkWord (s : State) (off : Nat) : Nat :=
  let h := s.host
  match off with
  | 0x00 => h.width + 16 * h.rate + 128 * b2n h.linkUp + 256 * b2n s.shortfall + 512 * b2n h.retraining
  | 0x04 => h.retrain.n + 65536 * b2n h.retrain.sat
  | 0x08 => h.targetRate
  | 0x0C => (s.pcieAdmit / 1000).floor.toNat % 2 ^ 32
  | 0x10 => (s.admitted / 1000).ceil.toNat % 2 ^ 32
  | _ => 0

/-- The reset controls (R565). -/
def State.resetWord (s : State) (off : Nat) : Nat :=
  let n := s.node
  let dies := List.range n.dies
  match off with
  | 0x00 => n.cause + 16 * n.rail
  | 0x04 => n.bootCnt
  | 0x08 => mkRec [⟨0, 0, 8, maskOf 8 (fun d => (tget {} n.kindle d).kindled)⟩,
      ⟨1, 0, 8, maskOf 8 (fun d => decide (d < n.dies) && (dieCores d).all s.calUp)⟩, ⟨2, 0, 1, b2n (n.pcieLanes = 8)⟩,
      ⟨2, 1, 1, b2n (n.ringLanes = 8)⟩, ⟨2, 2, 1, b2n n.trustLoaded⟩, ⟨2, 3, 1, b2n n.meterRestored⟩, ⟨2, 4, 1, b2n n.ready⟩]
  | 0x0C => maskOf 8 (fun r => !n.badRails.contains (r + 1))
  | 0x10 => b2n n.resetArm.isSome
  | 0x18 => dies.foldl (fun a d => a + (tget {} n.kindle d).queue.length) 0
  | _ => 0

/-! ### Configuration space (R358, R360) -/

/-- The identification of a function in configuration space. -/
structure FnIds where
  vendor : Nat
  device : Nat
  classCode : Nat
  revision : Nat
  subVendor : Nat
  subDevice : Nat
  deriving DecidableEq, Repr

/-- What configuration space shows of function fn, 0 the PF; a worker has none (R358, R360). -/
def State.fnIds (s : State) (fn : Nat) : Option FnIds :=
  let dev := if fn = 0 then 0x09A0 else 0x09A1
  if s.isWorker || 8 < fn then none
  else some {
    vendor := 0x1F4C, device := dev, classCode := 0x118000, revision := Config.stepping % 256, subVendor := 0x1F4C, subDevice := dev }

/-! The registers of configuration space that the model holds stand at the offsets of the PCI Express specification, those of a capability
at an offset of the model's own: power management at 0x40, MSI-X at 0x50, PCI Express at 0x70, AER at 0x100, SR-IOV at 0x160 (log 80). -/

/-- The size of a BAR of a function (R363). -/
def barSize (fn bar : Nat) : Nat :=
  match bar with
  | 0 => if fn = 0 then 65536 else 4096
  | 2 => 1048576
  | 4 => 8192
  | _ => 0

/-- The BAR that offset `off` of configuration space holds: the function that has it, its number, and whether the offset is its upper half; the
VFs' stand in the SR-IOV capability of the PF. -/
def barAt (off : Nat) : Option (Nat × Nat × Bool) :=
  if 0x10 ≤ off && off < 0x28 then some (0, (off - 0x10) / 8 * 2, (off - 0x10) % 8 ≠ 0)
  else if 0x184 ≤ off && off < 0x19C then some (1, (off - 0x184) / 8 * 2, (off - 0x184) % 8 ≠ 0)
  else none

/-- Where a BAR of a function lies: that of VFk at k times its size from the first (R361, R363). -/
def State.barAddr (s : State) (fn bar : Nat) : Nat :=
  let c := (s.fn 0).cfg
  let o := (if fn = 0 then 0x10 else 0x184) + 4 * bar
  tget 0 c.bars o + tget 0 c.bars (o + 4) * 2 ^ 32 + (if fn = 0 then 0 else (fn - 1) * barSize fn bar)

/-- A 4 B read of configuration space; none: no function there, or Request Retry Status while the link is not in L0 (R358, R361, R363, R374). -/
def State.cfgRead (s : State) (fn off : Nat) : Option Nat :=
  let c := (s.fn fn).cfg
  match s.fnIds fn with
  | none => none
  | some x =>
    if !s.hostUp || !s.fnThere fn then none
    else some (match off with
      | 0x00 => x.vendor + 65536 * x.device
      | 0x04 => 2 * b2n c.memory + 4 * b2n c.master
      | 0x08 => x.revision + 256 * x.classCode
      | 0x2C => x.subVendor + 65536 * x.subDevice
      | 0x44 => 3 * b2n c.d3hot
      | 0x50 => (vecCount fn - 1) * 65536 + 2 ^ 30 * b2n c.msixMask + 2 ^ 31 * b2n c.msixEn
      | 0x78 => 16 * b2n c.relax + 32 * c.payload + 4096 * c.readReq
      | 0x98 => c.timeout + 4096 * b2n c.tag10
      | 0x104 => c.aer
      | 0x168 => if fn = 0 then b2n s.host.vfEnable else 0
      | 0x16C => if fn = 0 then 8 + 65536 * 8 else 0
      | 0x170 => if fn = 0 then s.host.numVfs else 0
      | 0x174 => if fn = 0 then 1 + 65536 * 1 else 0
      | 0x178 => if fn = 0 then 65536 * 0x09A1 else 0
      | _ => match barAt off with
        | some (_, bar, hi) => if fn ≠ 0 then 0 else tget 0 c.bars off + (if hi then 0 else if bar = 2 then 12 else 4)
        | none => 0)

/-- A 4 B write of configuration space; VF Enable and NumVFs change by VF_ENABLE. -/
def CfgSpace.write (c : CfgSpace) (fn off v : Nat) : CfgSpace :=
  match off with
  | 0x04 => { c with memory := bitAt v 1, master := bitAt v 2 }
  | 0x44 => { c with d3hot := decide (bits v 0 2 = 3) }
  | 0x50 => { c with msixMask := bitAt v 30, msixEn := bitAt v 31 }
  | 0x78 => { c with
      relax := bitAt v 4, payload := if bits v 5 3 ≤ 2 then bits v 5 3 else c.payload,
      readReq := if bits v 12 3 ≤ 5 then bits v 12 3 else c.readReq }
  | 0x98 => { c with timeout := bits v 0 4, tag10 := bitAt v 12 }
  | 0x104 => { c with aer := maskOf 32 (fun i => bitAt c.aer i && !bitAt v i) }
  | _ => match barAt off with
    | some (f, bar, hi) =>
      if fn ≠ 0 then c
      else { c with bars := tset c.bars off (if hi then v % 2 ^ 32 else v % 2 ^ 32 / barSize f bar * barSize f bar) }
    | none => c

/-- AER logs an error: 12 a poisoned TLP, 14 a completion timeout, 20 an Unsupported Request (R357, R359). -/
def State.aerLog (s : State) (fn bit : Nat) : State :=
  s.modFn fn (fun x => { x with cfg := { x.cfg with aer := if bitAt x.cfg.aer bit then x.cfg.aer else x.cfg.aer + 2 ^ bit } })

/-- A read of BAR2 of a function (R363, R370). -/
def State.bar2Read (_s : State) (_fn _off : Nat) : Nat := 0

/-- A 4 B read of BAR4 of a function: the MSI-X table, the pending bits and the moderation table (R373). -/
def State.bar4Read (s : State) (fn off : Nat) : Nat :=
  let v := fun (k : Nat) => s.vec fn k
  if (s.fn fn).root.flrBusy then 0
  else if off < 16 * vecCount fn then
    let x := v (off / 16)
    match off % 16 with
    | 0 => x.addr % 2 ^ 32
    | 4 => x.addr / 2 ^ 32
    | 8 => x.data
    | _ => b2n x.masked
  else if 0x1000 ≤ off && off < 0x1000 + (if fn = 0 then 8 else 32) then maskOf 32 (fun i => (v (8 * (off - 0x1000) + i)).pendingBit)
  else if 0x1800 ≤ off && off < 0x1800 + 8 * vecCount fn then
    let x := v ((off - 0x1800) / 8)
    if off % 8 = 0 then x.modTime + 65536 * x.modCount else x.sent
  else 0

/-- A 4 B read of BAR0 of a function: the register as it stands; a HI half of a time reads the function's latch (R364, R609, R617). -/
def State.bar0Read (s : State) (fn off : Nat) : Nat :=
  let x := s.fn fn
  if x.root.flrBusy then 0
  else if off < 0x20 then s.identityWord off
  else if off = 0x100 then s.devStatus x.barErr
  else if off = 0x108 then s.now % 2 ^ 32
  else if off = 0x10C then x.timeLatch
  else if off = 0x300 then s.roleRb
  else if 0x400 ≤ off && off < 0x41C then x.admin.word (off - 0x400)
  else if fn ≠ 0 then
    if off = 0x304 then s.vfInfo (fn - 1)
    else if 0x800 ≤ off && off < 0x81C then x.rootWord (off - 0x800)
    else 0
  else if 0x200 ≤ off && off < 0x214 then s.linkWord (off - 0x200)
  else if off = 0x304 then s.hearthRb
  else if 0x800 ≤ off && off < 0xA40 then (s.fn ((off - 0x800) / 64)).rootWord (off % 64)
  else if off = 0x1014 then x.faultLatch
  else if 0x1000 ≤ off && off < 0x1028 then s.faultWord (off - 0x1000)
  else if 0x1800 ≤ off && off < 0x181C then s.resetWord (off - 0x1800)
  else 0

/-- An 8 B read of BAR0 of a function: two registers, and of a time both halves from one instant (R365, R541). -/
def State.bar0Read8 (s : State) (fn off : Nat) : Nat :=
  let hi := if off = 0x108 then s.now / 2 ^ 32 % 2 ^ 32
    else if off = 0x1010 && fn = 0 then s.faults.lastTime / 2 ^ 32 % 2 ^ 32
    else s.bar0Read fn (off + 4)
  if (s.fn fn).root.flrBusy then 0 else s.bar0Read fn off + hi * 2 ^ 32

/-- DEV_TIME_LO_READ: a 4 B read latches device time for the HI half (R365). -/
def execDevTimeLoRead (fn : Nat) (s : State) : Host.Outcome State Fault Refusal :=
  if !s.barUp fn then .next s
  else .next (s.modFn fn (fun x => { x with timeLatch := s.now / 2 ^ 32 % 2 ^ 32 }))

/-- FAULT_TIME_LO_READ: the PF's latch of FAULT_TIME (R541). -/
def execFaultTimeLoRead (s : State) : Host.Outcome State Fault Refusal :=
  if !s.barUp 0 then .next s
  else .next (s.modFn 0 (fun x => { x with faultLatch := s.faults.lastTime / 2 ^ 32 % 2 ^ 32 }))

/-- A malformed access counts in BAR_ERR (R359). -/
def State.barError (s : State) (fn : Nat) : State := s.modFn fn (fun x => { x with barErr := x.barErr.bump 16 })

/-- MALFORMED_BAR_READ (R359). -/
def execMalformedBarRead (fn : Nat) (s : State) : Host.Outcome State Fault Refusal :=
  if !s.barUp fn then .next s else .next (s.barError fn)

/-! ### RWL writes (R12, R565, R609, R612, R626) -/

/-- An installer session opened on the PF with the password is open (R565). -/
def State.rwlOpen (s : State) : Bool :=
  match s.roles.installer with
  | some x => x.fn = 0 && !x.noPassword
  | none => false

/-- RWL_DENIED in the event log: SUBJECT is the BAR0 offset (R12, R538). -/
def State.rwlDenied (s : State) (off : Nat) : State := s.logEv 0x0D20 15 off 0

/-- The installer session's serial number. -/
def State.rwlSerial (s : State) : Nat :=
  match s.roles.installer with
  | some x => x.serial
  | none => 0

/-- An RWL write that the change log enters: denied without the role or with a full log, else entered and in effect (R612, R626). -/
def State.rwlWrite (s : State) (off value : Nat) (f : State → State) : State :=
  if !s.barUp 0 then s
  else if !s.rwlOpen || 4080 ≤ s.clogUsed then s.rwlDenied off
  else
    let e : ClogStaged := {
      action := 0x1000 + 0x100 * (if off < 0x200 then 1 else 2) + off % 256 / 4, status := .ok, role := 1, time := s.now,
      node := s.ring.nodeNo, func := 15, serial := s.rwlSerial,
      detail := value % 2 ^ 32 + s.bar0Read 0 off % 2 ^ 32 * 2 ^ 32, why := .device }
    (f s).stage e

/-- What a value written to the clearing register clears (R611, R612). -/
def State.clearCounts (s : State) (v : Nat) : State :=
  let s := if bitAt v 0 then { s with host := { s.host with fns := s.host.fns.map (fun e => (e.1, { e.2 with barErr := {} })) } } else s
  let s := if bitAt v 1 then { s with host := { s.host with retrain := {} } } else s
  { s with host := { s.host with
      fns := s.host.fns.map (fun e =>
      if bitAt v (8 + e.1) then (e.1, { e.2 with dbRej := {} }) else e) } }

/-- A write to offset 0x110; a write that clears nothing takes no effect, but without the role it is an attempt like any other (R12). -/
def State.writeClear (s : State) (v : Nat) : State :=
  if bits v 0 2 = 0 && bits v 8 9 = 0 && s.rwlOpen then s else s.rwlWrite 0x110 v (fun s => s.clearCounts v)

/-- CLR_BAR_ERR (R612). -/
def execClrBarErr (s : State) : Host.Outcome State Fault Refusal := .next (s.writeClear 1)
/-- CLR_RETRAIN (R612). -/
def execClrRetrain (s : State) : Host.Outcome State Fault Refusal := .next (s.writeClear 2)
/-- CLR_DB_PF (R612). -/
def execClrDbPf (s : State) : Host.Outcome State Fault Refusal := .next (s.writeClear 256)
/-- CLR_DB_VF (R612). -/
def execClrDbVf (k : Nat) (s : State) : Host.Outcome State Fault Refusal :=
  .next (if k < 8 then s.writeClear (512 * 2 ^ k) else s)

/-- A write to LINK_CTRL: TARGET_RATE for the next training, RETRAIN unless one runs (R613, R614). -/
def State.writeLink (s : State) (v : Nat) : State :=
  let rate := bits v 0 3
  let go := bitAt v 3 && s.host.linkUp && !s.host.retraining
  if !go && (rate = 0 || 5 < rate) && s.rwlOpen then s
  else s.rwlWrite 0x208 v (fun s => { s with host := { s.host with
    targetRate := if rate = 0 || 5 < rate then s.host.targetRate else rate, retraining := s.host.retraining || go } })

/-- RETRAIN (R614). -/
def execRetrain (s : State) : Host.Outcome State Fault Refusal := .next (s.writeLink 8)

/-- A write to RESET_ARM (R565). -/
def State.writeArm (s : State) (v : Nat) : State :=
  if !s.barUp 0 then s
  else if !s.rwlOpen then s.rwlDenied 0x1810
  else { s with node := { s.node with resetArm := if v = 0xA5C3 then some (s.now + 1000000) else none } }

/-- RESET_ARM (R565). -/
def execResetArm (value : Nat) (s : State) : Host.Outcome State Fault Refusal := .next (s.writeArm value)

/-- RESET_ARM_EXPIRY: 1 ms after the arming. -/
def execResetArmExpiry (s : State) : Host.Outcome State Fault Refusal :=
  match s.node.resetArm with
  | none => .next s
  | some t => if s.now < t then .next s else .next { s with node := { s.node with resetArm := none } }

/-- A write of 1 to RESET_GO while armed: REG_RESET is entered, and the reset follows its entry; with a full log it is discarded and
disarmed (R565, R566). -/
def State.writeGo (s : State) (v : Nat) : State :=
  if !s.barUp 0 then s
  else if !s.rwlOpen then s.rwlDenied 0x1814
  else if !bitAt v 0 || s.node.resetArm.isNone then s
  else
    let s := { s with node := { s.node with resetArm := none } }
    if 4080 ≤ s.clogUsed then s.rwlDenied 0x1814
    else s.stage {
                   action := 0xFF03, status := .ok, role := 1, time := s.now, node := s.ring.nodeNo, func := 15,
                   serial := s.rwlSerial, detail := v % 2 ^ 32, why := .resetGo }

/-- RESET_GO (R566). -/
def execResetGo (s : State) : Host.Outcome State Fault Refusal := .next (s.writeGo 1)

/-! ### Other register writes (R12, R366, R369, R373) -/

/-- The low or high half of a 64-bit address register, its low bits reserved. -/
def setHalf (a v low : Nat) (hi : Bool) : Nat :=
  if hi then a % 2 ^ 32 + v % 2 ^ 32 * 2 ^ 32 else a / 2 ^ 32 * 2 ^ 32 + v % 2 ^ 32 / 2 ^ low * 2 ^ low

/-- A write to an admin block; EN is written with VEC, which a running pair uses from then on (R366). -/
def State.writeAdmin (s : State) (fn off v : Nat) : State :=
  let a := (s.fn fn).admin
  let put := fun (a : AdminBlock) => s.modFn fn (fun x => { x with admin := a })
  if off = 0x14 then
    let vec := bits v 16 11
    let put := fun (a : AdminBlock) => if a.run then (put a).modQueue (2 * fn + 1) (fun x => { x with vec := vec }) else put a
    if bitAt v 0 then
      if a.run then put { a with vec := vec }
      else match execAdmqEnSet fn vec s with
        | .next t => t
        | _ => s
    else
      let s := put { a with vec := vec }
      match execAdmqEnClear fn s with
        | .next t => t
        | _ => s
  else if a.run || a.stopping then s
  else match off with
    | 0x00 => put { a with cmdBase := setHalf a.cmdBase v 12 false }
    | 0x04 => put { a with cmdBase := setHalf a.cmdBase v 0 true }
    | 0x08 => put { a with cplBase := setHalf a.cplBase v 12 false }
    | 0x0C => put { a with cplBase := setHalf a.cplBase v 0 true }
    | 0x10 => put { a with cmdLog2 := bits v 0 4, cplLog2 := bits v 8 4 }
    | _ => s

/-- A write to a root block (R369). -/
def State.writeRoot (s : State) (fn off v : Nat) : State :=
  let x := (s.fn fn).root
  let put := fun (y : Root) => s.modFn fn (fun z => { z with root := y })
  if off = 0x10 then
    let s := match execFnCtrlEn fn (bitAt v 0) s with
      | .next t => t
      | _ => s
    if bitAt v 1 then s.startInval { fn := fn, lo := 0, hi := 2 ^ 52, viaRoot := true } else s
  else if x.en then s
  else match off with
    | 0x00 => put { x with ctxBase := setHalf x.ctxBase v 24 false }
    | 0x04 => put { x with ctxBase := setHalf x.ctxBase v 0 true }
    | 0x08 => put { x with lmapRoot := setHalf x.lmapRoot v 12 false }
    | 0x0C => put { x with lmapRoot := setHalf x.lmapRoot v 0 true }
    | _ => s

/-- A 4 B write to BAR0 of a function: each field by its access code. -/
def State.writeBar0 (s : State) (fn off v : Nat) : State :=
  if 0x400 ≤ off && off < 0x41C then s.writeAdmin fn (off - 0x400) v
  else if fn ≠ 0 then s
  else if off = 0x110 then s.writeClear v
  else if off = 0x208 then s.writeLink v
  else if 0x800 ≤ off && off < 0xA40 then s.writeRoot ((off - 0x800) / 64) (off % 64) v
  else if off = 0x1810 then s.writeArm v
  else if off = 0x1814 then s.writeGo v
  else s

/-- A 4 B write to BAR4: the MSI-X table and the moderation table. -/
def State.writeBar4 (s : State) (fn off v : Nat) : State :=
  if off < 16 * vecCount fn then
    let k := off / 16
    match off % 16 with
    | 0 => s.modVec fn k (fun x => { x with addr := setHalf x.addr v 2 false })
    | 4 => s.modVec fn k (fun x => { x with addr := setHalf x.addr v 0 true })
    | 8 => s.modVec fn k (fun x => { x with data := v % 2 ^ 32 })
    | _ => if bitAt v 0 then s.modVec fn k (fun x => { x with masked := true }) else s.unmask fn k
  else if 0x1800 ≤ off && off < 0x1800 + 8 * vecCount fn && off % 8 = 0 then
    s.modVec fn ((off - 0x1800) / 8) (fun x => { x with modTime := bits v 0 16, modCount := bits v 16 12 })
  else s

/-- REGISTER_WRITE of BAR0 or BAR4: a poisoned one is discarded and logged, one beyond the BAR is an Unsupported Request, a malformed one is
discarded and counted, an 8 B one is two halves (R12, R359, R363, R371, R609). Number 6 stands for configuration space, where the messages
that a write lets go follow it (R374, log 80). -/
def execRegisterWrite (fn bar off : Nat) (len : WriteLen) (value : Nat) (s : State) : Host.Outcome State Fault Refusal :=
  if bar = 6 then
    if !s.hostUp || !s.fnThere fn || (s.fn fn).root.flrBusy then .next s
    else if len.poisoned then .next (s.aerLog fn 12)
    else if len.bytes ≠ 4 || off % 4 ≠ 0 then .next s
    else .next ((s.modFn fn (fun x => { x with cfg := x.cfg.write fn off value })).sendPending fn)
  else if !s.barUp fn || (bar ≠ 0 && bar ≠ 4) then .next s
  else if len.poisoned then .next (s.aerLog fn 12)
  else if barSize fn bar ≤ off then .next (s.aerLog fn 20)
  else if (len.bytes ≠ 4 && len.bytes ≠ 8) || off % len.bytes ≠ 0 then .next (s.barError fn)
  else
    let put := fun (s : State) (off v : Nat) => if bar = 0 then s.writeBar0 fn off v else s.writeBar4 fn off v
    let s := put s off (value % 2 ^ 32)
    .next (if len.bytes = 8 then put s (off + 4) (value / 2 ^ 32 % 2 ^ 32) else s)

/-! ### DEV_IDENTIFY (R622) -/

/-- The identity record. -/
def State.identity (s : State) : Nat :=
  let f := s.faults
  let opens := (f.recs.filter (fun e => e.2.isOpen)).length
  mkRec [⟨0, 0, 32, s.identityWord 0⟩, ⟨4, 0, 32, s.identityWord 4⟩, ⟨8, 0, 64, Config.serial⟩, ⟨16, 0, 32, s.roleRb⟩,
    ⟨20, 0, 32, s.hearthRb⟩, ⟨24, 0, 32, s.devStatus (if s.isWorker then {} else (s.fn 0).barErr)⟩, ⟨28, 0, 32, s.node.bootCnt⟩,
    ⟨32, 0, 32, s.identityWord 0x14⟩, ⟨36, 0, 32, s.rowsInForce⟩, ⟨40, 0, 64, s.now⟩, ⟨48, 0, 8, opens⟩,
    ⟨49, 0, 8, maskOf 8 f.fencedDies.contains⟩, ⟨50, 0, 8, maskOf 8 f.fatalDies.contains⟩, ⟨51, 0, 1, b2n f.fatal⟩]

def devIdentifySpec : CmdSpec :=
  { opcode := 0x0101
    read := true
    data := fun r _ => resultAt r 24 64
    refuse := fun _ _ _ => []
    act := fun r s => reply s r 24 64 s.identity }

/-- DEV_IDENTIFY (R622). -/
def execDevIdentify (r : Req) (s : State) : Host.Outcome State Fault Refusal := .next (devIdentifySpec.run r s)

end Sys2Proof.Machine
end

