-- ==== Sys2Proof/Machine/Queues.lean ====
section
/-! DEFINITION. Queues: contexts and their cache, indices, doorbells, fetch, entries, the damper, the queue commands (R377 to R417). -/

set_option Elab.async false

namespace Sys2Proof.Machine

/-! ### Contexts (R379, R381, R386) -/

/-- The configuration half of a context (R379). -/
def Queue.withConfig (x : Queue) (v : Nat) : Queue :=
  { x with
    kind := bits v 0 3, int := bitAt v 3 && bits v 0 3 ≠ 0, policy := bitAt v 4, relax := bitAt v 5, log2 := bits v 8 5,
    vec := bits v 16 8, prio := bits v 24 2, cplQid := bits v 32 18, ringBase := bits v 64 64, flush := bits v 128 24,
    pond := bits v 160 16 }

/-- The state half of a context, from bytes 32 to 63. -/
def Queue.withState (x : Queue) (v : Nat) : Queue :=
  { x with
    devIdx := bits v 0 16, devPhase := bitAt v 16, live := bitAt v 17, loss := { n := bits v 64 32, sat := bitAt v 18 },
    damp := bits v 19 2, err := bits v 24 8, hostIdx := bits v 32 16, hostPhase := bitAt v 48, entryCnt := bits v 96 32,
    lastLoss := bits v 128 64, inHand := bits v 208 16 }

/-- CFG_CRC is the CRC-32C of bytes 0 to 27. -/
def ctxCrcOk (v : Nat) : Bool := bits v 224 32 = crc32c (leBytes (v % 2 ^ 224) 28)

/-- A context field out of its range for a function. -/
def ctxBad (fn v : Nat) : Bool :=
  let kind := bits v 0 3
  let buffered := kind = 2 || kind = 4
  6 ≤ kind || bits v 8 5 < 6 || 16 < bits v 8 5 || vecCount fn ≤ bits v 16 8 || bits v 64 12 ≠ 0
    || (buffered && (bits v 160 16 < 2 || 4096 < bits v 160 16))

/-- A little-endian read of host memory through a function's lake map: the value, or a fault reason of R401, or 0: the read itself failed. -/
def State.readVia (s : State) (cells : List Host.Cell) (fn iova n : Nat) : Except Nat (TlbEntry × Nat) :=
  match s.resolve cells fn iova false with
  | .error e => .error e
  | .ok t =>
    match hostRead cells (t.addr + (iova - t.base)) n with
    | some v => .ok (t, v)
    | none => .error 0

/-- An admin pair stops for a fault of one of its rings: ERR = BUS; completions that a fault of the completion ring leaves no way to write are
discarded (R367). -/
def State.stopPair (s : State) (f q : Nat) : State :=
  let s := if q % 2 = 0 then s else
    { s with host := { s.host with cplWait := s.host.cplWait.filter (fun c => c.dest ≠ q) } }.modQueue q (fun x => { x with live := false })
  s.stopAdmin f 4

/-- A queue stops for a lake-map fault, or, with reason 0, for a read that failed: ERR = XLATE or BUS (R392, R401). -/
def State.stopFor (s : State) (q iova reason : Nat) : State :=
  match s.qidOwner q with
  | none => s
  | some f =>
    if q < 18 then (if reason = 0 then s.report 0x1D q 0 else s.lmapFault f q q iova reason).stopPair f q
    else s.stopAccess f q iova reason

/-- A context becomes the most recent of the cache. -/
def State.touchCtx (s : State) (q : Nat) : State :=
  { s with host := { s.host with ctxOrder := q :: s.host.ctxOrder.filter (· ≠ q) } }

/-- A place in the cache of 4,096: the least recent context that is not pinned goes, written back if it has changed (R381). -/
def State.evictCtx (s : State) (cells : List Host.Cell) : State :=
  if s.host.ctxOrder.length < 4096 then s
  else match s.host.ctxOrder.reverse.find? (fun q => !(s.queue q).pinned) with
    | none => s
    | some q =>
      let x := s.queue q
      let s := if x.dirty then s.writeBack cells q x.live else s
      let s := s.modQueue q (fun x => { x with cached := false, dirty := false })
      { s with host := { s.host with ctxOrder := s.host.ctxOrder.filter (· ≠ q) } }

/-- The context of a queue is at hand: an admin pair has none; a hit is touched; a miss is read back and checked, and a context that
fails stops the queue with ERR = CTX (R378, R381, R386). What has changed in the state half since it was written back stands (R380, log 29). -/
def State.loadCtx (s : State) (cells : List Host.Cell) (q : Nat) : State × Bool :=
  if q < 18 then (s, true)
  else if (s.queue q).cached then (s.touchCtx q, true)
  else match s.qidOwner q with
    | none => (s, false)
    | some f =>
      let s := s.evictCtx cells
      match s.readVia cells f (s.ctxAddr q) 64 with
      | .error e => (s.stopFor q (s.ctxAddr q) e, false)
      | .ok (t, v) =>
        let s := s.tlbInsert t
        if !ctxCrcOk v || !bitAt v (256 + 17) then ((s.stopQueue q 3).report 0x1E q 0, false)
        else
          let s := s.modQueue q (fun x =>
            { (if x.dirty then x.withConfig v else (x.withConfig v).withState (v / 2 ^ 256)) with cached := true })
          (s.touchCtx q, true)

/-! ### Indices (R382, R385) -/

/-- An index with its phase, as one count modulo twice the ring. -/
def posOf (log2 idx : Nat) (phase : Bool) : Nat := idx + (if phase then 2 ^ log2 else 0)
def Queue.devPos (x : Queue) : Nat := posOf x.log2 x.devIdx x.devPhase
def Queue.hostPos (x : Queue) : Nat := posOf x.log2 x.hostIdx x.hostPhase

/-- Distance from a to b, modulo twice the ring. -/
def ringDist (log2 a b : Nat) : Nat := (b + 2 ^ (log2 + 1) - a) % 2 ^ (log2 + 1)

/-- Entries in a ring: producer less consumer. -/
def Queue.held (x : Queue) : Nat :=
  if x.kind = 0 then ringDist x.log2 x.devPos x.hostPos else ringDist x.log2 x.hostPos x.devPos

/-- DEV_IDX advances by one, its phase inverting at the wrap. -/
def Queue.advance (x : Queue) : Queue :=
  let wrap := decide (x.devIdx + 1 = 2 ^ x.log2)
  { x with
    devIdx := if wrap then 0 else x.devIdx + 1, devPhase := if wrap then !x.devPhase else x.devPhase,
    entryCnt := (x.entryCnt + 1) % 2 ^ 32, dirty := true }

/-- The condition of R385 on a new doorbell value. -/
def Queue.bellOk (x : Queue) (idx : Nat) (phase : Bool) : Bool :=
  let new := posOf x.log2 idx phase
  decide (idx < 2 ^ x.log2) &&
    if x.kind = 0 then
      decide (ringDist x.log2 x.devPos new ≤ 2 ^ x.log2) && decide (x.held ≤ ringDist x.log2 x.devPos new)
    else decide (ringDist x.log2 x.hostPos new ≤ x.held)

/-- DOORBELL at BAR2 + 4 x QID of a function: validated, with its context loaded when it is not cached, or discarded and counted
(R370, R385). -/
def execDoorbell (fn qid index : Nat) (phase full : Bool) (host : List Host.Cell) (s : State) : Host.Outcome State Fault Refusal :=
  if !s.barUp fn || 2 ^ 18 ≤ qid then .next s
  else
    let reject := fun (s : State) => s.modFn fn (fun x => { x with dbRej := x.dbRej.bump 16 })
    let x := s.queue qid
    if s.qidOwner qid ≠ some fn || !(s.fn fn).root.en || !full || !x.live || x.err ≠ 0 || (qid < 18 && !(s.fn fn).admin.run) then
      .next (reject s)
    else
      let l := s.loadCtx host qid
      let s := l.1
      if !l.2 || !(s.queue qid).bellOk index phase then .next (reject s)
      else .next (s.modQueue qid (fun x => { x with hostIdx := index, hostPhase := phase, dirty := true }))

/-! ### Fetch (R389, R392) -/

/-- Commands in hand on the device. -/
def State.inHandAll (s : State) : Nat := s.host.queues.foldl (fun a e => a + e.2.inHand) 0

/-- A queue's ring can be reached: live, not stopped, its function's EN in effect and its requests on (R369, R374). -/
def State.ringLive (s : State) (q : Nat) : Bool :=
  let x := s.queue q
  s.hostUp && x.live && x.err = 0 && (match s.qidOwner q with
    | some f => !(s.fn f).root.flrBusy && s.busOn f && (q < 18 || (s.fn f).root.active)
    | none => false)

/-- The bus address of an entry: the PF's admin rings are not translated (R366). -/
def State.entryAddr (s : State) (cells : List Host.Cell) (q size : Nat) (wr : Bool) : Except Nat (Option TlbEntry × Nat) :=
  let x := s.queue q
  let a := x.ringBase + size * x.devIdx
  if q < 2 then .ok (none, a)
  else match s.resolve cells ((s.qidOwner q).getD 0) a wr with
    | .error e => .error e
    | .ok t => .ok (some t, t.addr + (a - t.base))

/-- The tags for requests that wait for a completion (R357). -/
def State.tagLimit (s : State) : Nat := if (s.fn 0).cfg.tag10 then 768 else 256

/-- The opcodes of R621. -/
def opcodeKnown (o : Nat) : Bool :=
  let n := [0, 1, 7, 8, 9, 6, 5, 10, 3, 5, 4, 11, 5, 5, 5, 4].getD (o / 256) 0
  1 ≤ o % 256 && o % 256 ≤ n

/-- HOST_READ_COMPLETION: the entry of the oldest outstanding fetch of a queue arrives; an unknown opcode completes with BAD_PARAM,
another command waits for its start (R388, R390). -/
def execHostReadCompletion (qid : Nat) (entry : BitVec 512) (s : State) : Host.Outcome State Fault Refusal :=
  match s.host.reads.find? (fun x => x.qid = qid) with
  | none => .next s
  | some x =>
    if !s.hostUp then .next s
    else
      let s := { s with host := { s.host with reads := s.host.reads.erase x } }
      let r : Req := { fn := (s.qidOwner qid).getD 0, qid := qid, entry := entry }
      if opcodeKnown r.opcode then
        let s := s.holdRights r
        .next { s with host := { s.host with fetched := s.host.fetched ++ [(qid, entry)] } }
      else .next (s.finish r .badParam 0)

/-- DEV_IDX and ENTRY_CNT of a command ring go back over n entries whose fetch failed: DEV_IDX is the next entry to be fetched
(R379, R382, log 73). -/
def Queue.retreat (x : Queue) (n : Nat) : Queue :=
  let p := (x.devPos + 2 ^ (x.log2 + 1) - n) % 2 ^ (x.log2 + 1)
  { x with devIdx := p % 2 ^ x.log2, devPhase := decide (2 ^ x.log2 ≤ p), entryCnt := (x.entryCnt + 2 ^ 32 - n) % 2 ^ 32, dirty := true }

/-- COMPLETION_TIMEOUT: the oldest outstanding fetch of a queue is abandoned, and those issued after it with it: their slots are
released, DEV_IDX stands at the entry that failed, the queue stops with ERR = BUS, HOST_READ reports (R359, R367, R392, log 73). -/
def execCompletionTimeout (qid : Nat) (s : State) : Host.Outcome State Fault Refusal :=
  match s.host.reads.find? (fun x => x.qid = qid) with
  | none => .next s
  | some _ =>
    let n := (s.host.reads.filter (fun x => x.qid = qid)).length
    let s := { s with host := { s.host with reads := s.host.reads.filter (fun x => x.qid ≠ qid) } }
    let s := s.modQueue (s.queue qid).cplQid (fun c => { c with reserved := c.reserved - n })
    let s := s.modQueue qid (fun x => { x.retreat n with inHand := x.inHand - n })
    .next ((s.aerLog ((s.qidOwner qid).getD 0) 14).stopFor qid 0 0)

/-! ### Entries (R108, R383, R384, R391, R394, R395, R398) -/

/-- The 32 B of a completion without PHASE (R391). -/
def Cpl.bytes (c : Cpl) (head : Nat) : Nat :=
  mkRec [⟨0, 0, 16, c.cid⟩, ⟨2, 0, 16, c.opcode⟩, ⟨4, 0, 8, c.status.code⟩, ⟨5, 0, 6, c.node⟩, ⟨6, 0, 16, head⟩,
    ⟨8, 0, 18, c.qid⟩, ⟨16, 0, 64, c.time⟩, ⟨24, 0, 64, c.result⟩]

/-- The 64 B of a block of a stream without PHASE (R108, R394). -/
def Block.bytes (b : Block) (k q : Nat) (cap : Bool) : Nat :=
  mkRec [⟨0, 0, 64, b.time⟩, ⟨8, 0, 32, b.seq⟩, ⟨12, 0, 18, q⟩, ⟨12, 18, 4, b.words.length⟩, ⟨12, 22, 5, keySlot k⟩,
    ⟨12, 27, 2, keyKind k⟩, ⟨12, 29, if cap then 2 else 1, if cap then b.step else keySpan k⟩,
    ⟨16, 0, 384, packRecs 4 (b.words.map (·.toNat))⟩]

/-- The 64 B of a log entry without PHASE (R398). -/
def LogCopy.bytes (c : LogCopy) (q : Nat) : Nat :=
  mkRec [⟨0, 0, 64, c.time⟩, ⟨8, 0, 32, c.lseq⟩, ⟨12, 0, 18, q⟩, ⟨12, 18, 1, c.source⟩, ⟨12, 19, 1, c.part⟩, ⟨16, 0, 384, c.body⟩]

/-- The block for a queue that was completed first, with its stream and share, and whether its binding has ended (R393). -/
def State.oldestBlock (s : State) (q : Nat) : Option (LeftBlock × Bool) :=
  let heads := s.host.streams.flatMap (fun e => [false, true].filterMap (fun cap =>
    let sh := e.2.share cap
    match sh.pond with
    | b :: _ => if sh.qid = some q then some ({ qid := q, key := e.1, cap := cap, block := b }, false) else none
    | [] => none))
  let left := (s.host.leftover.filter (fun x => x.qid = q)).map (fun x => (x, true))
  (left ++ heads).foldl (fun (m : Option (LeftBlock × Bool)) (x : LeftBlock × Bool) => match m with
    | some y => if x.1.block.done < y.1.block.done then some x else some y
    | none => some x) none

/-- The next event that waits for an event queue. -/
def State.nextEvent (s : State) (q : Nat) : Option EventRec :=
  let f := (s.qidOwner q).getD 0
  (s.fn f).evStage.find? (fun e => s.eventQueue f e = some q)

/-- The next entry that waits for a device-written queue, without PHASE, and the state without it; records of an event queue go behind its
events (log 39). -/
def State.takeEntry (s : State) (q : Nat) : Option (Nat × State) :=
  let h := s.host
  let f := (s.qidOwner q).getD 0
  match (s.queue q).kind with
  | 1 => (h.cplWait.find? (fun c => c.dest = q)).map (fun c =>
      (c.bytes (c.head.getD (s.queue c.qid).devIdx), ({ s with host := { h with cplWait := h.cplWait.erase c } }).modQueue q
        (fun x => { x with reserved := x.reserved - 1 })))
  | 3 => match s.nextEvent q, h.recWait.find? (fun x => x.1 = q) with
    | some e, _ => some (e.bytes + q * 2 ^ 96, s.modFn f (fun x => { x with evStage := x.evStage.erase e }))
    | none, some x => some (x.2, { s with host := { h with recWait := h.recWait.erase x } })
    | none, none => none
  | 5 => match (s.fn f).logStage with
    | c :: rest => if (s.fn f).logQid = some q then some (c.bytes q, s.modFn f (fun x => { x with logStage := rest })) else none
    | [] => none
  | 0 => none
  | _ =>
    match h.recWait.find? (fun x => x.1 = q) with
    | some x => some (x.2, { s with host := { h with recWait := h.recWait.erase x } })
    | none => (s.oldestBlock q).map (fun x =>
        (x.1.block.bytes x.1.key q x.1.cap,
          if x.2 then { s with host := { h with leftover := h.leftover.erase x.1 } }
          else s.modShare x.1.key x.1.cap (fun y => { y with pond := y.pond.drop 1 })))

/-- The vector that the next entry of a queue is a cause for: FN_RESET always that of the PF's admin pair (R371, R397). -/
def State.entryVec (s : State) (q : Nat) : Nat × Nat :=
  let x := s.queue q
  if x.kind = 3 && (s.nextEvent q).any (fun e => e.code = 0x0101) then (0, 0) else ((s.qidOwner q).getD 0, x.vec)

/-- An entry is written with Relaxed Ordering: its queue asks for it, no message signals the entry, and Device Control enables it (R357, R373,
R379). -/
def State.entryRelaxed (s : State) (q : Nat) : Bool :=
  let x := s.queue q
  (x.kind = 2 || x.kind = 4) && x.relax && !x.int && (s.fn 0).cfg.relax

/-- COMMAND_FETCH could ask for the next entry of a command ring: it has one, the queue and its completion ring have room (R389). -/
def State.fetchReady (s : State) (qid : Nat) : Bool :=
  let x := s.queue qid
  let c := s.queue x.cplQid
  s.ringLive qid && x.kind = 0 && !x.stopping && (18 ≤ qid || (s.fn (qid / 2)).admin.en) && x.held ≠ 0 && x.inHand < 64
  && s.inHandAll < 1024 && c.live && c.held + c.reserved < 2 ^ c.log2 && s.host.reads.length < s.tagLimit

/-- ENTRY_WRITE could write the next entry of a queue: one waits and the ring has room (R383, R384). -/
def State.entryReady (s : State) (qid : Nat) : Bool :=
  let x := s.queue qid
  s.ringLive qid && x.kind ≠ 0 && x.held < 2 ^ x.log2 && (s.takeEntry qid).isSome

/-- A function has traffic waiting that PCIe serves by weight: commands to fetch, entries of any queue but a stream's (R464). -/
def State.pcieWaits (s : State) (f : Nat) : Bool :=
  s.host.queues.any (fun e => s.qidOwner e.1 = some f && (s.fetchReady e.1 || (e.2.kind ≠ 2 && s.entryReady e.1)))

/-- The functions with traffic waiting are served weighted round-robin by bytes: one without credit left in the round waits while another
with credit does (R464). -/
def State.turnOf (s : State) (f : Nat) : Bool :=
  s.credit f || (List.range 9).all (fun g => g = f || !s.credit g || !s.pcieWaits g)

/-- COMMAND_FETCH: the next entry of a command ring is asked for, with a completion slot reserved, in its function's turn (R389, R464). -/
def execCommandFetch (qid : Nat) (host : List Host.Cell) (s : State) : Host.Outcome State Fault Refusal :=
  let x := s.queue qid
  let f := (s.qidOwner qid).getD 0
  if !s.fetchReady qid || !s.turnOf f then .next s
  else
    let l := s.loadCtx host qid
    let s := l.1
    if !l.2 then .next s
    else match s.entryAddr host qid 64 false with
      | .error e => .next (s.stopFor qid ((s.queue qid).ringBase + 64 * (s.queue qid).devIdx) e)
      | .ok (t, _) =>
        let s := match t with
          | some t => s.tlbInsert t
          | none => s
        let idx := (s.queue qid).devIdx
        let s := s.modQueue qid (fun x => { x.advance with inHand := x.inHand + 1 })
        let s := (s.modQueue x.cplQid (fun c => { c with reserved := c.reserved + 1 })).spend f 64
        .next { s with host := { s.host with reads := s.host.reads ++ [{ qid := qid, idx := idx }] } }

/-- ENTRY_WRITE: the next entry of a queue is written to its ring in one TLP while the ring has room, with PHASE the inverse of DEV_PHASE,
and is a cause for its vector; entries of streams go at once, the others in their function's turn (R373, R383, R384, R405, R464). The last
completion of a stopping admin pair brings it to rest (R368). -/
def execEntryWrite (qid : Nat) (host : List Host.Cell) (s : State) : Host.Outcome State Fault Refusal :=
  let x := s.queue qid
  let f := (s.qidOwner qid).getD 0
  if !s.entryReady qid || (x.kind ≠ 2 && !s.turnOf f) then .next s
  else
    let l := s.loadCtx host qid
    let s := l.1
    if !l.2 then .next s
    else
      let size := if x.kind = 1 then 32 else 64
      match s.entryAddr host qid size true with
      | .error e => .next (s.stopFor qid ((s.queue qid).ringBase + size * (s.queue qid).devIdx) e)
      | .ok (t, a) =>
        let s := match t with
          | some t => s.tlbInsert t
          | none => s
        let by_ := s.entryVec qid
        match s.takeEntry qid with
        | none => .next s
        | some (v, s) =>
          let x := s.queue qid
          let s := s.emit (.entry qid x.devIdx a size (v + b2n (!x.devPhase) * 2 ^ 127) (s.entryRelaxed qid))
          let s := s.modQueue qid (·.advance)
          let s := if x.kind = 2 then s else s.spend f size
          let s := if x.int then s.cause by_.1 by_.2 else s
          .next (if qid < 18 then s.adminRest (qid / 2) else s)

/-! ### The damper (R410, R411) -/

/-- A capture stream of this node: its key, its queue. -/
def State.captures (s : State) : List (Nat × Nat) :=
  s.host.streams.filterMap (fun e => e.2.capture.qid.map (fun q => (e.1, q)))

/-- The paths of a capture stream: the flue bridge of a non-lead die, PCIe (8), the port by which a worker's blocks leave, or would leave were
no link cut: EAST (9) or WEST (10). -/
def State.onPath (s : State) (p k : Nat) : Bool :=
  if p < 8 then keyNode k = s.ring.nodeNo && dieOfTile (keyTile k) = p
  else if p = 8 then !s.isWorker
  else
    let r := s.ring
    s.isWorker && ((r.route 0).or (({ r with avoid := [], downLinks := [] } : Ring).route 0)).any (fun x => x.1 + 9 = p)

/-- A capture stream whose pond share is more than half full. -/
def State.backedUp (s : State) (x : Nat × Nat) : Bool :=
  decide ((s.queue x.2).pond < 2 * (s.stream x.1).capture.pond.length)

/-- Entries per second of a capture stream at its present STEP. -/
def State.captureRate (s : State) (k : Nat) : Rat := s.streamRate k / ((2 ^ (s.stream k).capture.nextStep : Nat) : Rat)

/-- The stream to raise: lowest PRIO, then highest rate, then lowest QID. -/
def State.toRaise (s : State) (l : List (Nat × Nat)) : Option (Nat × Nat) :=
  l.foldl (fun m x => match m with
    | none => some x
    | some y =>
      let px := (s.queue x.2).prio
      let py := (s.queue y.2).prio
      let rx := s.captureRate x.1
      let ry := s.captureRate y.1
      if px < py || (px = py && (decide (ry < rx) || (rx = ry && decide (x.2 < y.2)))) then some x else some y) none

/-- The stream to lower: highest PRIO, then lowest QID. -/
def State.toLower (s : State) (l : List (Nat × Nat)) : Option (Nat × Nat) :=
  l.foldl (fun m x => match m with
    | none => some x
    | some y =>
      let px := (s.queue x.2).prio
      let py := (s.queue y.2).prio
      if py < px || (px = py && decide (x.2 < y.2)) then some x else some y) none

/-- A new STEP for a stream, whose open block closes (R394), shown in DAMP, with its DAMPER_STEP event; the node of the stream is told
(log 50). -/
def State.damp (s : State) (p : Nat) (x : Nat × Nat) (step : Nat) : State :=
  let k := x.1
  let s := s.modShare k true (fun y => { y with nextStep := step })
  let s := s.modQueue x.2 (fun y => { y with damp := step, dirty := true })
  let s := if keyNode k = s.ring.nodeNo then s.postBlock k true
    else s.sendAcked .cmd (keyNode k) (mkRec [⟨2, 0, 8, step⟩, ⟨3, 0, 8, 5⟩, ⟨16, 0, 64, k⟩])
  s.raise 0x0903 (s.streamHolder k) x.2
    (mkRec [⟨0, 0, 16, keyTile k⟩, ⟨2, 0, 5, keySlot k⟩, ⟨2, 5, 2, keyKind k⟩, ⟨3, 0, 2, step⟩, ⟨3, 4, 4, p - 7⟩])

/-- One path at one tick. -/
def State.dampPath (s : State) (p : Nat) : State :=
  let l := s.captures.filter (fun x => s.onPath p x.1)
  let quiet := tget 0 s.host.quiet p
  let setQuiet := fun (s : State) (n : Nat) => { s with host := { s.host with quiet := tset s.host.quiet p n } }
  if l.any s.backedUp then
    let s := setQuiet s 0
    match s.toRaise (l.filter (fun x => (s.stream x.1).capture.nextStep < 3)) with
    | some x => s.damp p x ((s.stream x.1).capture.nextStep + 1)
    | none => s
  else if quiet + 1 < 100 then setQuiet s (quiet + 1)
  else match s.toLower (l.filter (fun x => 0 < (s.stream x.1).capture.nextStep)) with
    | some x => (setQuiet s 0).damp p x ((s.stream x.1).capture.nextStep - 1)
    | none => setQuiet s 100

/-- DAMPER_TICK: every 1 ms, over the flue bridges and PCIe, on a worker over its ports (R410, log 50). -/
def execDamperTick (s : State) : Host.Outcome State Fault Refusal :=
  if s.node.inReset || s.now < s.host.lastDamp + 1000000 then .next s
  else
    let s := { s with host := { s.host with lastDamp := s.now } }
    let paths := (List.range s.node.dies).filter (· ≠ 0) ++ (if s.isWorker then [9, 10] else [8])
    .next (paths.foldl (fun s p => s.dampPath p) s)

/-! ### Queue commands (R412 to R417) -/

def qidOf (r : Req) : Nat := r.u 16 0 18

/-- The context a command reads, when host memory answers. A context that cannot be read is refused, with BAD_PARAM, by the translation of
`ctxRange`, which also raises what a failed read raises (R359, R401). -/
def State.ctxOf (s : State) (r : Req) : Option Nat :=
  match s.readVia r.host r.fn (s.ctxAddr (qidOf r)) 64 with
  | .ok x => some x.2
  | .error _ => none

/-- The read of a context, for its translation faults. -/
def ctxRange (r : Req) (s : State) : List DataRange :=
  if s.qidOwner (qidOf r) = some r.fn && 18 ≤ qidOf r then
    [{ addr := s.ctxAddr (qidOf r), len := 64, wr := false, subject := qidOf r }]
  else []

/-- The QID is not the function's, or an admin pair's. -/
def qidRights (s : State) (r : Req) : Bool × Status := (qidOf r < 18 || s.qidOwner (qidOf r) ≠ some r.fn, .rights)

/-- What goes with a binding to the node of the stream: FLUSH, POND, POLICY and PRIO of its queue (log 31). -/
def Queue.shipped (x : Queue) : Nat := x.flush + x.pond * 2 ^ 24 + b2n x.policy * 2 ^ 48 + x.prio * 2 ^ 49

/-- The nodes of the streams bound to a queue created afresh learn its FLUSH, POND, POLICY and PRIO (R44, R51, R413, log 31). -/
def State.shipQueue (s : State) (q : Nat) : State :=
  let nodes := ((s.streamsOf q).map keyNode).eraseDups.filter (· ≠ s.ring.nodeNo)
  nodes.foldl (fun (s : State) n => s.sendAcked .cmd n (mkRec [⟨3, 0, 8, 8⟩, ⟨4, 0, 64, (s.queue q).shipped⟩, ⟨16, 0, 64, q⟩])) s

def queueCreateSpec : CmdSpec :=
  { opcode := 0x0901
    names := fun r => [nQueue (qidOf r), nNode 1, nNode 4]
    node := .zeroOnly
    data := ctxRange
    refuse := fun r _ s =>
      let q := qidOf r
      let mine := 18 ≤ q && s.qidOwner q = some r.fn
      match s.ctxOf r with
      | none => [qidRights s r]
      | some v =>
        let kind := bits v 0 3
        let c := bits v 32 18
        let f := s.fn r.fn
        let noCpl := kind = 0 && (c < 18 || s.qidOwner c ≠ some r.fn || !(s.queue c).live || (s.queue c).kind ≠ 1)
        [(mine && (ctxBad r.fn v || !ctxCrcOk v || noCpl), .badParam), qidRights s r, ((s.queue q).live, .busy),
         (r.b 19 0 && 2048 ≤ (s.host.queues.filter (fun e => e.2.pinned)).length, .budget),
         (r.b 19 1 && kind ≠ 3 && kind ≠ 5, .combination),
         (r.b 19 1 && ((kind = 3 && f.evQid.isSome) || (kind = 5 && f.logQid.isSome)), .combination),
         (!(s.streamsOf q).isEmpty && (s.queue q).keptKind.isSome && (s.queue q).keptKind ≠ some kind, .combination)]
    act := fun r s =>
      let q := qidOf r
      let v := (s.ctxOf r).getD 0
      let s := s.evictCtx r.host
      let x : Queue := { (({} : Queue).withConfig v) with live := true, cached := true, pinned := r.b 19 0, dirty := true }
      let s := { s with host := { s.host with queues := tset s.host.queues q x } }
      let s := (s.touchCtx q).shipQueue q
      if r.b 19 1 then
        { st := s.modFn r.fn (fun f => if x.kind = 3 then { f with evQid := some q } else { f with logQid := some q }) }
      else { st := s } }

/-- QUEUE_CREATE (R413). -/
def execQueueCreate (r : Req) (s : State) : Host.Outcome State Fault Refusal := .next (queueCreateSpec.run r s)

/-- The queue is named by something that would be left without it, here or on a worker (R412). -/
def State.queueNamed (s : State) (q : Nat) : Bool :=
  !(s.streamsOf q).isEmpty
  || ((s.queue q).kind = 1 && s.host.queues.any (fun e => e.2.live && e.2.kind = 0 && e.2.cplQid = q))
  || (s.stoveTab ++ s.views.flatMap (·.2.stoves)).any (fun e => e.2.recBind.any (fun b => b.2.qid = q))
  || (s.pairTab ++ s.views.flatMap (·.2.pairs)).any (fun e => e.2.state ≠ PairState.unconfigured && e.2.qid = q)

/-- Entries that wait for a queue are discarded and counted (R414). -/
def State.discardWaiting (s : State) (f q : Nat) : State :=
  let recs := (s.host.recWait.filter (fun x => x.1 = q)).length + (s.host.leftover.filter (fun x => x.qid = q)).length
    + (s.host.cplWait.filter (fun x => x.dest = q)).length
  let fx := s.fn f
  let evs := (fx.evStage.filter (fun e => s.eventQueue f e = some q)).length
  let logs := if fx.logQid = some q then fx.logStage.length else 0
  let s := { s with host := { s.host with
    recWait := s.host.recWait.filter (fun x => x.1 ≠ q), leftover := s.host.leftover.filter (fun x => x.qid ≠ q),
    cplWait := s.host.cplWait.filter (fun x => x.dest ≠ q) } }
  let rest := fx.evStage.filter (fun e => s.eventQueue f e ≠ some q)
  let s := s.modFn f (fun x =>
    let x := { x with evQid := if x.evQid = some q then none else x.evQid, evStage := rest }
    if x.logQid = some q then { x with logQid := none, logStage := [] } else x)
  if recs + evs + logs = 0 then s else s.queueLost q (recs + evs + logs)

def queueDestroySpec : CmdSpec :=
  { opcode := 0x0902
    node := .zeroOnly
    names := fun r => [nQueue (qidOf r)]
    refuse := fun r _ s =>
      let q := qidOf r
      [(18 ≤ q && s.qidOwner q = some r.fn && !(s.queue q).live, .badParam), qidRights s r, (s.queueNamed q, .busy)]
    act := fun r s =>
      let q := qidOf r
      let x := s.queue q
      if x.kind = 0 then
        let s := s.modQueue q (fun x => { x with stopping := true })
        let own := r.qid = q
        if x.inHand = 0 then { st := s.endQueue r.host q }
        else if own && x.inHand = 1 then { st := (s.finishOne r .ok 0).endQueue r.host q, late := true }
        else { st := s.startOp (opMark 0x0902) q r 0 0, late := true }
      else { st := (s.discardWaiting r.fn q).endQueue r.host q } }

/-- QUEUE_DESTROY (R414). -/
def execQueueDestroy (r : Req) (s : State) : Host.Outcome State Fault Refusal := .next (queueDestroySpec.run r s)

/-- The stream a QUEUE_BIND names. -/
def bindKey (r : Req) : Nat := streamKey (r.u 20 0 6) (r.u 22 0 16) (r.u 24 0 5) (r.u 24 5 2) (r.u 19 1 1)

/-- The binding made or removed: unbinding posts the open block (R110, R415). -/
def State.bindStream (s : State) (k q : Nat) (cap valid : Bool) : State :=
  if valid then s.modShare k cap (fun x => { x with qid := some q, step := 0, nextStep := 0, gapNext := x.gapNext && x.qid = some q })
  else s.endShare k cap

/-- Which share a binding concerns: that of the queue's kind, which a worker has from the CMD frame (log 31); an unbinding, that of the
share bound to the queue. -/
def State.bindCap (s : State) (r : Req) : Bool :=
  if r.b 19 0 then (if s.isWorker then r.qid = 1 else decide ((s.queue (qidOf r)).kind = 4))
  else decide ((s.stream (bindKey r)).sample.qid ≠ some (qidOf r))

/-- After a binding some limit fails (R47, R50, R404). -/
def State.bindOver (s : State) (r : Req) : Bool :=
  let cap := s.bindCap r
  let t := s.bindStream (bindKey r) (qidOf r) cap true
  (!cap && s.pathWorse t) || t.pondBad

def queueBindSpec : CmdSpec :=
  { opcode := 0x0903
    names := fun r => [nQueue (qidOf r), nNode 1] ++ (if r.u 20 0 6 = 0 then [nTile (r.u 22 0 16)] else [])
    node := .zeroOnly
    refuse := fun r _ s =>
      let q := qidOf r
      let k := bindKey r
      let x := s.queue q
      let here := keyNode k = s.ring.nodeNo
      let remote := s.isWorker
      let st := s.stream k
      let bound := st.sample.qid = some q || st.capture.qid = some q
      let holder := s.streamHolder k
      let valid := r.b 19 0
      let live := x.live && (x.kind = 2 || x.kind = 4)
      let cap := s.bindCap r
      let clash := s.host.streams.any (fun e => e.1 ≠ k && (e.2.sample.qid = some q || e.2.capture.qid = some q)
        && keySlot e.1 = keySlot k && keyKind e.1 = keyKind k && keySpan e.1 = keySpan k)
      [(keyKind k = 3 || !s.nodeThere (keyNode k) || (here && s.nTiles ≤ keyTile k), .badParam),
       (!remote && 18 ≤ q && s.qidOwner q = some r.fn && valid && !live, .badParam), (!valid && !bound, .badParam),
       (r.fn = 0 || q < 18 || (!remote && s.qidOwner q ≠ some r.fn) || (here && holder + 1 ≠ r.fn), .rights),
       (here && s.intact holder, .sealed), (valid && here && s.noStreams, .busy),
       (valid && !remote && clash, .combination),
       (valid && (if cap then st.capture.qid.isSome else st.sample.qid.isSome), .combination),
       (valid && cap && keySpan k = 1, .combination), (valid && s.bindOver r, .budget)]
    act := fun r s =>
      let k := bindKey r
      if keyNode k = s.ring.nodeNo then { st := (s.bindStream k (qidOf r) (s.bindCap r) (r.b 19 0)).takePending (dieOfTile (keyTile k)) }
      else
        let s := s.sendAcked .cmd (keyNode k) (mkRec [⟨0, 0, 8, r.fn⟩, ⟨3, 0, 8, if s.bindCap r then 3 else 0⟩,
          ⟨4, 0, 64, (s.queue (qidOf r)).shipped⟩, ⟨16, 0, 512, r.entry.toNat⟩])
        { st := { s with ring := { s.ring with forwarded := s.ring.forwarded ++
            [{ tag := s.ring.tag, node := keyNode k, req := r, names := [nQueue (qidOf r), nNode 1], deadline := s.now + s.ring.commandWait * 1000000000 }] } },
          late := true } }

/-- QUEUE_BIND (R415): a stream of another node is bound there first. -/
def execQueueBind (r : Req) (s : State) : Host.Outcome State Fault Refusal := .next (queueBindSpec.run r s)

def queueStatusSpec : CmdSpec :=
  { opcode := 0x0904
    read := true
    node := .zeroOnly
    names := fun r => [nQueue (qidOf r)]
    data := fun r s => if r.b 19 1 && (s.queue (qidOf r)).live then ctxRange r s else []
    refuse := fun r _ s =>
      let q := qidOf r
      let bad := match s.ctxOf r with
        | none => false
        | some v => !ctxCrcOk v
      [(18 ≤ q && s.qidOwner q = some r.fn && (!(s.queue q).live || (r.b 19 1 && ((s.queue q).err = 0 || bad))), .badParam),
       qidRights s r]
    act := fun r s =>
      let q := qidOf r
      let x := s.queue q
      let s := s.writeBack r.host q x.live
      let s := s.modQueue q (fun y => { y with dirty := false })
      let s := if r.b 19 0 then s.modQueue q (fun y => { y with loss := {}, lastLoss := 0, dirty := true }) else s
      let s := if r.b 19 1 then s.modQueue q (fun y => { y.withConfig ((s.ctxOf r).getD 0) with err := 0, dirty := true }) else s
      { st := s, result := x.loss.n + x.devIdx * 2 ^ 32 + b2n x.devPhase * 2 ^ 48 + x.err * 2 ^ 56 } }

/-- QUEUE_STATUS (R416). -/
def execQueueStatus (r : Req) (s : State) : Host.Outcome State Fault Refusal := .next (queueStatusSpec.run r s)

def lmapInvalSpec : CmdSpec :=
  { opcode := 0x0905
    node := .zeroOnly
    refuse := fun r _ _ =>
      let a := r.u 16 0 64
      let n := r.u 24 0 64
      [(a % 4096 ≠ 0 || n % 4096 ≠ 0 || 2 ^ 52 < a + n, .badParam)]
    act := fun r s =>
      let a := r.u 16 0 64
      let n := r.u 24 0 64
      let s := s.startInval { fn := r.fn, lo := if n = 0 then 0 else a, hi := if n = 0 then 2 ^ 52 else a + n, viaRoot := false }
      { st := s.startOp (opMark 0x0905) r.fn r 0 0, late := true } }

/-- LMAP_INVAL (R417). -/
def execLmapInval (r : Req) (s : State) : Host.Outcome State Fault Refusal := .next (lmapInvalSpec.run r s)

end Sys2Proof.Machine
end

