-- ==== Sys2Proof/Machine/Sync.lean ====
section
/-! DEFINITION. SYNC: the reference edge, the act edge, its sources and its report (R231 to R239, R638). -/

set_option Elab.async false

namespace Sys2Proof.Machine

/-- The edge of the next conversion of a slot of a continuously converting tile. -/
def State.nextOfSlot (s : State) (n slot : Nat) : Option Nat :=
  let q := (s.tile n).seq
  match q.mode, q.next with
  | .static, some e => some e
  | .scan, some e =>
    let len := q.active.length
    let steps := (slot + len - q.slot) % len
    some ((List.range steps).foldl
      (fun a i => a + s.edgeStep n * (dSettle (q.active.getD ((q.slot + i + 1) % len) 0) + 1)) e)
  | _, _ => none

/-- The stamp edges of a chain context differ under a new reference edge (R214, R232). -/
def State.gridMoves (s : State) (n c slot ref : Nat) : Bool :=
  match s.nextOfSlot n slot with
  | none => false
  | some e =>
    let p : Int := s.spacing n
    ((((e : Int) - (s.sync.eRef : Int)) / p - ((e : Int) - (ref : Int)) / p) % (((s.tile n).chain c).ratio : Int)) ≠ 0

/-- The contexts that a SYNC affects: tile, chain, slot. -/
def State.syncHits (s : State) (ref : Nat) : List (Nat × Nat × Nat) :=
  (List.range s.nTiles).flatMap (fun n => [0, 1].flatMap (fun c =>
    (((s.tile n).seq.feeding c).filter (fun slot => s.gridMoves n c slot ref)).map (fun slot => (n, c, slot))))

/-- One affected context starts afresh and closes its block; its sequence number goes on (R231, R232). -/
def State.syncContext (s : State) (x : Nat × Nat × Nat) : State :=
  (s.modChain x.1 x.2.1 (fun z => z.modCtx x.2.2 (·.fresh false))).closeBlocks (streamKey s.ring.nodeNo x.1 x.2.2 x.2.1 0)

/-- The SYNC acts: the new grid is in force (R231, R232, R337). -/
def State.syncAct (s : State) (p : PendingSync) : State :=
  let hits := s.syncHits p.refEdge
  let s := hits.foldl (fun s x => s.syncContext x) s
  let s := (List.range s.nPairs).foldl (fun s n =>
    let q := s.pair n
    if hits.contains (q.vTile, 1, q.vSlot) || hits.contains (q.iTile, 1, q.iSlot) then s.closeWindow n true else s) s
  let nodes := if p.ring then s.ring.order.foldl (fun a n => a ||| 2 ^ n) (2 ^ s.ring.nodeNo) else 2 ^ s.ring.nodeNo
  let dones := if s.isWorker && p.fn.isNone then [] else [(p.actTime + 1000000, p.fn, nodes)]
  { s with sync := { s.sync with
      eRef := p.refEdge, pending := none, lastRef := max (s.edgeTime p.refEdge) 1, lastAct := max (s.edgeTime p.actEdge) 1,
      dones := s.sync.dones ++ dones } }

/-- SYNC_ACT: the act edge of the pending SYNC has come (R231). -/
def execSyncAct (s : State) : Host.Outcome State Fault Refusal :=
  match s.sync.pending with
  | none => .next s
  | some p => if p.actEdge ≤ s.edge && !s.node.inReset then .next (s.syncAct p) else .next s

/-- SYNC_DONE: 1 ms after the act time of the oldest SYNC not yet reported; `mask` names the other nodes that applied it on time (R234). -/
def execSyncDone (mask : Nat) (s : State) : Host.Outcome State Fault Refusal :=
  match s.sync.dones with
  | [] => .next s
  | (t, fn, nodes) :: rest =>
    if s.now < t then .next s
    else
      let h := match fn with
        | none => 0
        | some f => hearthOfFn f
      let s1 := { s with sync := { s.sync with dones := rest } }
      .next (s1.raise 0x0403 h s.ring.nodeNo (((mask ||| 2 ^ s.ring.nodeNo) &&& nodes) % 2 ^ 64))

/-- A SYNC edge or message that is not applied (R234). -/
def State.syncMissed (s : State) : State := { s with sync := { s.sync with miss := s.sync.miss.bump 16 } }

/-- Schedules a SYNC with its reference edge, act edge and act time; for scope RING the manager sends both times to every node
(R233). DESIGN CHOICE (log 79): a SYNC of scope RING that a worker is commanded to make acts on that worker alone. -/
def State.schedule (s : State) (ref act actTime : Nat) (ring : Bool) (fn : Option Nat) : State :=
  let s := { s with sync := { s.sync with
    pending := some { refEdge := ref, actEdge := act, actTime := actTime, ring := ring, fn := fn } } }
  if ring && s.isManager then
    s.sendFrame { type := .sync, dst := none, aux := 0, body := mkRec [⟨0, 0, 64, s.edgeTime ref⟩, ⟨8, 0, 64, actTime⟩] }
  else s

/-- SYNC_PIN_EDGE, `sub` sixty-fourths of a nanosecond after the present draught edge: it triggers tiles, and aligns when the pin is
armed (R163, R233, R638). Inside the window of R638 the device does not say which edge fires: a free choice. -/
def execSyncPinEdge (sub : Nat) (s : State) : Host.Outcome State Fault Refusal :=
  if s.node.inReset then .next s
  else if !s.node.everLocked then .next s.syncMissed
  else
    let at64 := s.node.clock + sub % 3125
    let e := s.edgeAtOrAfter (at64 + 1920)
    let near := s.edgeAtOrAfter (at64 + 1920 - 32)
    let open_ := near ≠ e || s.edgeAtOrAfter (at64 + 1920 + 32) ≠ e
    let f := if open_ then s.free else (0, s)
    let s := f.2
    let fire := if open_ then near + f.1 % 2 else e
    let s := s.sendTriggers 1 (s.edgeClock fire - 1920) (fun _ _ => true)
    if s.sync.pending.isSome then .next s.syncMissed
    else if s.isWorker || !s.sync.armed then .next s
    else
      let ring := s.sync.scope && s.isManager
      let lead := if ring then s.sync.lead * 1000 else 0
      let act := s.edgeAtOrAfter (s.edgeClock fire + lead * 64)
      let s := { s with sync := { s.sync with armed := s.sync.armed && !s.sync.oneShot } }
      .next (s.schedule fire act (s.edgeTime fire + lead) ring none)

/-- SYNC: a ring message with the reference and the act time; after the act time, or with one pending, it is missed (R234, R435). -/
def execRxSync (fseq ref act : Nat) (s : State) : Host.Outcome State Fault Refusal :=
  if s.node.inReset || s.isAlone || !s.firstCopy 0 1 fseq then .next s
  else
    let s := s.noteCopy 0 1 fseq
    if act < s.now || s.sync.pending.isSome then .next s.syncMissed
    else .next (s.schedule (s.edgeAtOrAfter (ref * 64)) (s.edgeAtOrAfter (act * 64)) act false none)

/-! ### FILT_SYNC (R235, R239) -/

/-- The act time and the act edge a FILT_SYNC asks for (R233). -/
def State.syncActAt (s : State) (r : Req) : Nat × Nat :=
  let soon := s.edgeAtOrAfter (s.node.clock + 3200)
  let t := r.u 24 0 64
  if r.b 16 2 then
    (if t = 0 then s.now + r.u 20 0 16 * 1000 else t,
     s.edgeAtOrAfter (if t = 0 then s.node.clock + r.u 20 0 16 * 64000 else t * 64))
  else (max (s.edgeTime soon) t, max soon (s.edgeAtOrAfter (t * 64)))

/-- The record of STATUS (R239). -/
def State.syncRecord (s : State) : Nat :=
  let x := s.sync
  let next := match x.pending with
    | none => 0
    | some p => p.actTime
  mkRec [⟨0, 0, 1, b2n x.armed⟩, ⟨0, 1, 1, b2n x.scope⟩, ⟨0, 2, 1, b2n x.oneShot⟩, ⟨0, 3, 1, b2n x.pending.isSome⟩,
    ⟨0, 4, 1, b2n x.miss.sat⟩, ⟨2, 0, 16, x.lead⟩, ⟨4, 0, 16, x.miss.n⟩, ⟨8, 0, 64, x.lastRef⟩, ⟨16, 0, 64, x.lastAct⟩, ⟨24, 0, 64, next⟩]

/-- FILT_SYNC by its request: STATUS is a read. -/
def filtSyncSpec (r : Req) : CmdSpec :=
  { opcode := 0x0409
    read := r.u 16 0 2 = 3
    names := fun r => if r.u 16 0 2 = 3 then [] else [nNode 3]
    data := fun r _ => if r.u 16 0 2 = 3 then resultAt r 40 64 else []
    refuse := fun r w s =>
      let op := r.u 16 0 2
      let ring := r.b 16 2
      let lead := r.u 20 0 16
      let act := r.u 24 0 64
      let ref := r.u 32 0 64
      let actAt := if act = 0 then (s.syncActAt r).1 else act
      [(op = 0 && ring && act ≠ 0 && (act < s.now + 20000 || s.now + 10000000000 < act), .badParam),
       ((op = 1 || (op = 0 && ring)) && (lead < 20 || 10000 < lead), .badParam),
       (op = 0 && ref ≠ 0 && (actAt < ref || ref + 10000000000 < actAt), .badParam),
       (op ≠ 3 && w ≠ 1, .rights),
       ((op = 0 || op = 1) && ring && s.isAlone, .combination), (op = 1 && s.isWorker, .combination),
       (op ≠ 3 && s.sync.pending.isSome, .busy)]
    act := fun r s =>
      match r.u 16 0 2 with
      | 0 =>
        let act := s.syncActAt r
        let ref := if r.u 32 0 64 = 0 then act.2 else s.edgeAtOrAfter (r.u 32 0 64 * 64)
        { st := s.schedule ref act.2 act.1 (r.b 16 2) (some r.fn) }
      | 1 => { st := { s with sync := { s.sync with
                 armed := true, scope := r.b 16 2, oneShot := r.b 16 3, lead := r.u 20 0 16 } } }
      | 2 => { st := { s with sync := { s.sync with armed := false } } }
      | _ => reply s r 40 64 s.syncRecord }

/-- FILT_SYNC (R239). -/
def execFiltSync (r : Req) (s : State) : Host.Outcome State Fault Refusal := .next ((filtSyncSpec r).run r s)

end Sys2Proof.Machine
end

