-- ==== Sys2Proof/Machine/Timers.lean ====
section
/-! DEFINITION. A step of device time: what the node waits for runs on in real time, so every instant it counts from moves with the step;
what names a device time stays (R41, R441, log 53). -/

set_option Elab.async false

namespace Sys2Proof.Machine

/-- A nanosecond instant that the step moves, a sixty-fourth, and one that is there or not. -/
structure Moves where
  ns : Nat → Nat
  fine : Nat → Nat
  edge : Nat → Nat

/-- The step by d sixty-fourths from a state, its edges counted anew. -/
def State.movesOf (s : State) (d : Int) : Moves :=
  let clock := ((s.node.clock : Int) + d).toNat
  { ns := fun t => ((t : Int) + ((clock / 64 : Nat) : Int) - ((s.node.clock / 64 : Nat) : Int)).toNat
    fine := fun t => ((t : Int) + d).toNat
    edge := fun e => ((e : Int) + (({ s with node := { s.node with clock := clock } }.edge : Int) - (s.edge : Int))).toNat }

/-- The times of a force path (R122, R126, R133 to R135). -/
def Force.moved (f : Force) (m : Moves) : Force :=
  { f with
    inbox := f.inbox.map (fun e => (m.fine e.1, e.2)), enteredAt := m.fine f.enteredAt, limitStart := m.ns f.limitStart, foldAt := m.ns f.foldAt,
    hizAt := m.ns f.hizAt, closedAt := f.closedAt.map m.ns, cleanSince := f.cleanSince.map m.ns, updEdge := m.edge f.updEdge }

/-- The times of a core, of its calibration and of a reserve (R90, R243, R264, R266, R602). -/
def Core.moved (c : Core) (m : Moves) : Core := { c with lateTimes := c.lateTimes.map m.ns, resumeAt := m.fine c.resumeAt }
def CalCore.moved (c : CalCore) (m : Moves) : CalCore :=
  { c with run := c.run.map (fun x => { x with startedAt := m.ns x.startedAt }) }
def GroupCal.moved (g : GroupCal) (m : Moves) : GroupCal := { g with started := m.ns g.started, nextRoll := m.ns g.nextRoll }

/-- The sequencer of tile n, in the state after the step: its edges keep their place in the draught and stay sequencer edges; a trigger
that names a device time fires at that (R155, R163, R167). -/
def State.seqMoved (s : State) (n : Nat) (m : Moves) (q : Seq) : Seq :=
  let al := fun (e : Nat) => s.seqEdge n (m.edge e)
  let q := { q with
    next := q.next.map al, armEdge := al q.armEdge, idleFrom := al q.idleFrom, trigAt := if q.trigTimed then q.trigAt else m.fine q.trigAt
    commit := q.commit.map (fun (c : SeqCommit) => { c with sinceEdge := m.edge c.sinceEdge }) }
  { q with trigger := s.fireAt n q }

def Tile.moved (t : Tile) (m : Moves) : Tile :=
  { t with force := t.force.moved m, core := t.core.moved m, cal := t.cal.moved m }
def Group.moved (g : Group) (m : Moves) : Group :=
  { g with
    fe := { g.fe with disFrom := m.fine g.fe.disFrom, disUntil := m.fine g.fe.disUntil }
    core := g.core.moved m, cal := g.cal.moved m, sched := g.sched.moved m }

/-- The times of the host interface: moderation, flush intervals, limiters, the damper's tick, commands in progress. -/
def HostIf.moved (h : HostIf) (m : Moves) : HostIf :=
  let share := fun (x : Share) => { x with openAt := m.ns x.openAt }
  { h with
    vecs := h.vecs.map (fun e => (e.1, { e.2 with first := m.ns e.2.first }))
    streams := h.streams.map (fun e => (e.1, { e.2 with sample := share e.2.sample, capture := share e.2.capture }))
    limits := h.limits.map (fun e => (e.1, { e.2 with last := e.2.last.map m.ns }))
    ops := h.ops.map (fun o => { o with deadline := m.ns o.deadline }), lastDamp := m.ns h.lastDamp }

/-- The times of the ring's own waits; join and switch times are device times. -/
def Ring.moved (r : Ring) (m : Moves) : Ring :=
  let port := fun (p : RingPort) => { p with lastTime := p.lastTime.map m.ns, reqSent := p.reqSent.map m.fine }
  { r with
    east := port r.east, west := port r.west, lastOffer := m.ns r.lastOffer, lastScan := m.ns r.lastScan
    unacked := r.unacked.map (fun u => { u with sentAt := m.ns u.sentAt }), packingSince := r.packingSince.map m.ns
    forwarded := r.forwarded.map (fun f => { f with deadline := m.ns f.deadline })
    timeSent := r.timeSent.map m.ns, insertedAt := r.insertedAt.map m.ns }

/-- The times of the fault manager's counting, of shadows and of an injection (R520, R527, R536). -/
def FaultMgr.moved (f : FaultMgr) (m : Moves) : FaultMgr :=
  { f with
    sources := f.sources.map (fun x => { x with times := x.times.map m.ns }), entered := f.entered.map (fun e => (e.1, m.ns e.2))
    recs := f.recs.map (fun e => (e.1, { e.2 with shadowEnd := e.2.shadowEnd.map m.ns }))
    injection := f.injection.map (fun x => { x with deadline := m.ns x.deadline }) }

/-- The times of sessions, lockouts and a challenge (R467, R471, R472). -/
def Roles.moved (r : Roles) (m : Moves) : Roles :=
  let sess := fun (x : Session) => { x with lastUse := m.ns x.lastUse }
  let lock := fun (x : Lockout) => { x with until_ := x.until_.map m.ns }
  { r with
    installer := r.installer.map sess, maker := r.maker.map sess, instLock := lock r.instLock, makerLock := lock r.makerLock
    challenge := r.challenge.map (fun c => { c with expires := m.ns c.expires }) }

/-- The times of the node: kindling queues, flue transfers, compensation, trim, the reset key. -/
def Node.moved (n : Node) (m : Moves) : Node :=
  { n with
    kindle := n.kindle.map (fun e => (e.1, { e.2 with lastTransfer := m.ns e.2.lastTransfer, lastSlot := e.2.lastSlot.map m.ns }))
    resetArm := n.resetArm.map m.ns, compAt := n.compAt.map (fun e => (e.1, m.ns e.2)), trimAt := m.ns n.trimAt }

/-- The times of the trip logic and of Tirwin senders (R497, R498, R502). -/
def Prot.moved (p : Prot) (m : Moves) : Prot :=
  let us := fun (t : Nat) => m.ns (1000 * t) / 1000
  { p with
    debounce := p.debounce.map (fun e => (e.1, m.ns e.2)), pulseAt := m.ns p.pulseAt
    conns := p.conns.map (fun e => (e.1, { e.2 with lastUs := e.2.lastUs.map us, tripUs := e.2.tripUs.map us })) }

/-- The times of gauges and lane moves (R571, R579). -/
def Ageing.moved (a : Ageing) (m : Moves) : Ageing :=
  { a with
    moves := a.moves.map (fun e => (e.1, m.ns e.2))
    dies := a.dies.map (fun e => (e.1, { e.2 with
      gauges := e.2.gauges.map (fun g => (g.1, { g.2 with
        lastRead := g.2.lastRead.map m.ns, lastWarn := g.2.lastWarn.map m.ns, lastAct := g.2.lastAct.map m.ns })) })) }

/-- Device time steps by d sixty-fourths (R41, R441): every instant that something waits for or counts from keeps its place in real time, a
sequencer's edges theirs in the draught. A scheduled SYNC acts at the device time it names, one from the pin of this node alone at its
edge (R233). -/
def State.stepTime (s : State) (d : Int) : State :=
  let m := s.movesOf d
  let word := fun (w : PairWord) => { w with edge := m.edge w.edge }
  let here := fun (p : PendingSync) => p.fn.isNone && !p.ring && !s.isWorker
  let t := { s with node := { s.node.moved m with clock := ((s.node.clock : Int) + d).toNat } }
  { t with
    tiles := s.tiles.map (fun e => (e.1, { e.2.moved m with seq := t.seqMoved e.1 m e.2.seq }))
    groups := s.groups.map (fun e => (e.1, e.2.moved m))
    pins := s.pins.map (fun e => (e.1, { e.2 with openAt := m.fine e.2.openAt, closeAt := m.fine e.2.closeAt }))
    host := s.host.moved m, ring := s.ring.moved m, faults := s.faults.moved m, roles := s.roles.moved m
    prot := s.prot.moved m, age := s.age.moved m
    logs := { s.logs with lastRefill := m.ns s.logs.lastRefill }
    loopbacks := s.loopbacks.map (fun e => (e.1, { e.2 with levelAt := m.ns e.2.levelAt }))
    fabric := s.fabric.map (fun w => { w with since := m.fine w.since })
    stoveTab := s.stoveTab.map (fun e => (e.1, { e.2 with
      laws := e.2.laws.map (fun l => (l.1, { l.2 with alignFirst := l.2.alignFirst.map m.ns })) }))
    ps := s.ps.map (fun e => (e.1, { e.2 with heldSince := e.2.heldSince.map m.ns, lastFill := e.2.lastFill.map m.ns }))
    jobs := s.jobs.map (fun j => { j with edge := m.edge j.edge })
    sync := { s.sync with pending := s.sync.pending.map (fun p =>
      if here p then { p with refEdge := m.edge p.refEdge, actEdge := m.edge p.actEdge } else p) }
    pairTab := s.pairTab.map (fun p =>
      (p.1, { p.2 with lastInstant := p.2.lastInstant.map m.edge, vIn := p.2.vIn.map word, iIn := p.2.iIn.map word })) }

end Sys2Proof.Machine
end

