-- ==== Sys2Proof/Machine/Oblyn.lean ====
section
/-! DEFINITION. The Oblyn ring: links, plans, time, formation, joining, frames but CMD, CPL and EVENT, and the ring commands
(R418 to R457). A link is named by the node whose EAST port it leaves and the node whose WEST port it enters. -/

set_option Elab.async false

namespace Sys2Proof.Machine

def State.modRing (s : State) (f : Ring → Ring) : State := { s with ring := f s.ring }

/-- The node takes part in a ring: out of reset, manager or worker (R5). -/
def State.ringOn (s : State) : Bool := !s.node.inReset && !s.isAlone

/-! ### Lanes (R420, R421): the coding under the frames. No row carries a block: LINK_UP and LINK_DOWN carry what the lanes have come to (log 27). -/

/-- A 66-bit block by its sync header and, of a control block, its type byte. -/
inductive LaneBlock where
  | data | idle | start | terminate (type : Nat) | marker | express | resume | error
  deriving DecidableEq, Repr

/-- What a receiver takes a block for: header 1 is data, header 2 control with one of the types of Clause 49 in use or of Oblyn's own three. -/
def laneBlock (header type : Nat) : LaneBlock :=
  if header = 1 then .data
  else if header ≠ 2 then .error
  else if type = 0x1E then .idle
  else if type = 0x78 then .start
  else if type = 0x5A then .marker
  else if type = 0x69 then .express
  else if type = 0x3C then .resume
  else if 0x87 ≤ type ∧ type ≤ 0xFF then .terminate type
  else .error

/-- One bit through the scrambler 1 + x^39 + x^58, whose register holds the last 58 bits sent, and through the receiver's. -/
def scramble (reg : Nat) (b : Bool) : Bool × Nat :=
  let o := (b != bitAt reg 38) != bitAt reg 57
  (o, (2 * reg + b2n o) % 2 ^ 58)
def descramble (reg : Nat) (b : Bool) : Bool × Nat := ((b != bitAt reg 38) != bitAt reg 57, (2 * reg + b2n b) % 2 ^ 58)

/-- One sync header, valid or not. -/
def LaneLock.header (x : LaneLock) (ok : Bool) : LaneLock :=
  let y := { x with seen := x.seen + 1, bad := x.bad + b2n (!ok) }
  if !x.locked && !ok || x.locked && 16 ≤ y.bad then {}
  else if y.seen = 64 then { locked := true }
  else y

/-- The lane of a port that carries its k-th block, and whether an alignment marker follows the n-th other block of a lane (R421). -/
def laneOf (k : Nat) : Nat := k % 4
def markerDue (n : Nat) : Bool := decide (n ≠ 0 ∧ n % 16383 = 0)

/-! ### Frames on the wire (R422 to R424) -/

/-- TYPE within the class, and the longest frame of a type. -/
def FrameType.code : FrameType → Nat
  | .tirwin | .time | .prompt | .cmd | .capture => 0
  | .linkFault | .delayReq | .message | .cpl | .log => 1
  | .delayResp | .packed | .event => 2
  | .sync | .ack => 3
  | .trigger | .number => 4
  | .plan => 5
  | .damaged => 31
def FrameType.longest : FrameType → Nat
  | .tirwin => 128
  | .linkFault | .time | .delayReq | .delayResp | .sync | .trigger => 64
  | .prompt => 256
  | .message => 92
  | .packed => 980
  | .plan | .cmd | .cpl | .event | .ack | .number | .capture | .log | .damaged => 1024

/-- The type of a class and a TYPE code; none: a frame that is discarded. -/
def FrameType.ofCode (cls code : Nat) : Option FrameType :=
  [FrameType.tirwin, .linkFault, .time, .delayReq, .delayResp, .sync, .trigger, .plan, .prompt, .message, .packed, .cmd, .cpl, .event, .ack,
    .number, .capture, .log].find? (fun t => t.cls = cls && t.code = code)

/-- The bytes of a number, and of n segments one after the other. -/
def byteLen (v : Nat) : Nat := if v = 0 then 0 else v.log2 / 8 + 1
def segmentsLen : Nat → Nat → Nat
  | 0, _ => 0
  | n + 1, v => let k := 16 + 4 * bits v 24 4; k + segmentsLen n (v / 2 ^ (8 * k))

/-- The bytes of a frame's content. -/
def FrameOut.content (f : FrameOut) : Nat :=
  match f.type with
  | .prompt | .packed => segmentsLen f.aux f.body
  | .message => 8 + bits f.body 16 8
  | _ => byteLen f.body

/-- LENGTH: the header, the content with its padding and the CRC, 64 or more and a multiple of 4. -/
def FrameOut.length (f : FrameOut) : Nat := (max 64 (20 + f.content) + 3) / 4 * 4

/-- The bytes a frame takes on the port (R423). -/
def FrameOut.wire (f : FrameOut) : Nat := 8 * ((f.length + 15) / 8)

/-- The bytes of a frame as node src sends it on a ring, with its CRC, inverted where a check on the way has failed (R422, R426). -/
def FrameOut.bytes (f : FrameOut) (src ring : Nat) : Nat :=
  let head := mkRec [⟨0, 0, 3, f.type.cls⟩, ⟨0, 3, 5, f.type.code⟩, ⟨1, 0, 1, ring⟩, ⟨1, 1, 1, b2n f.dst.isNone⟩, ⟨2, 0, 16, f.length⟩,
    ⟨4, 0, 6, f.from_.getD src⟩, ⟨5, 0, 6, f.dst.getD 0⟩, ⟨6, 0, 6, f.hops⟩, ⟨8, 0, 32, f.fseq⟩, ⟨12, 0, 32, f.aux⟩]
  let v := head + f.body * 2 ^ 128
  let crc := crc32c (leBytes v (f.length - 4))
  v + (if f.inverted then 2 ^ 32 - 1 - crc else crc) * 2 ^ (8 * (f.length - 4))

/-! ### Plans and moves (R448, R450, R451) -/

/-- The nodes of the ring in ring-A order, as the manager knows them (R446). -/
def insertPos (e : Nat × RingNode) : List (Nat × RingNode) → List (Nat × RingNode)
  | [] => [e]
  | x :: t => if e.2.position < x.2.position then e :: x :: t else x :: insertPos e t
def Ring.present (r : Ring) : List (Nat × RingNode) :=
  ((r.table.filter (fun e => e.2.present)).foldl (fun l e => insertPos e l) [])
def Ring.nodesInOrder (r : Ring) : List Nat := 0 :: r.present.map (fun e => e.1)

/-- The body of a PLAN frame: its number and switch time, the order, the links not used (log 57). -/
def planBody (p : RingPlan) : Nat :=
  let links := p.avoid.flatMap (fun l => [l.1, l.2])
  mkRec ([⟨0, 0, 32, p.seq⟩, ⟨8, 0, 64, p.switchAt⟩, ⟨16, 0, 8, p.order.length⟩, ⟨17, 0, 8, p.avoid.length⟩]
    ++ (List.range (p.order ++ links).length).map (fun i => ⟨18 + i, 0, 8, (p.order ++ links).getD i 0⟩))

def State.sendPlan (s : State) (p : RingPlan) : State :=
  s.sendFrame { type := .plan, dst := none, aux := p.seq, body := planBody p }

/-- The next PLAN_SEQ. -/
def Ring.nextSeq (r : Ring) : Nat :=
  (match r.plan with
    | some p => max p.seq r.planSeq
    | none => r.planSeq) + 1

/-- What a planned move makes of the links not used. -/
def Ring.avoidFor (r : Ring) (link : Nat × Nat) (why : PlanWhy) : List (Nat × Nat) :=
  match why with
  | .leave | .rate _ _ _ _ => if r.avoid.contains link then r.avoid else r.avoid ++ [link]
  | .takeOut n =>
    let i := (r.order.idxOf? n).getD 0
    let k := r.order.length
    r.avoid ++ (r.links ((i + k - 1) % k) 2).filter (fun l => !r.avoid.contains l)
  | _ => r.avoid.filter (fun l => l ≠ link && (r.table.filter (fun e => !e.2.present)).all (fun e => l.1 ≠ e.1 && l.2 ≠ e.1))

/-- The manager issues a plan for a planned move, with T_s 100 us ahead; with a move in progress it waits for its end (R450). -/
def State.startMove (s : State) (link : Nat × Nat) (why : PlanWhy) : State :=
  if s.ring.plan.isSome then s.modRing (fun r => { r with movesDue := r.movesDue ++ [(link, why)] })
  else
    let p : RingPlan := {
      seq := s.ring.nextSeq, switchAt := s.now + 100000, order := s.ring.nodesInOrder, avoid := s.ring.avoidFor link why,
      link := link, why := why }
    (s.modRing (fun r => { r with plan := some p })).sendPlan p

/-- The words of a stream of another node for the stove ports bound to it (R429). -/
def State.promptWord (s : State) (g : Segment) (gap : Bool) : State :=
  let k := streamKey g.src g.tile g.slot g.kind g.span
  (List.range g.words.length).foldl (fun (s : State) i =>
    let w := g.words.getD i 0
    s.toPorts k (if gap && i = 0 then setFlag w fGAP else w) ((g.seq + i) % 2 ^ 32) g.time) s

/-- The block of a segment, or of a capture stream with its STEP, for the queue bound on the manager (R429). -/
def State.packedBlock (s : State) (g : Segment) (cap gap : Bool) (step : Nat) : State :=
  let k := streamKey g.src g.tile g.slot g.kind g.span
  let b : Block := { time := g.time, seq := g.seq, done := 0, step := step, words := g.words }
  (s.modShare k cap (fun x => { x with openBlock := some b, gapNext := x.gapNext || gap })).postBlock k cap

/-- How the words of a segment are delivered: as a block of a sample queue (0), of a capture queue with its STEP (1 and on), or to
stove ports. -/
inductive SegUse where
  | prompt | packed | capture (step : Nat)

/-- The key under which SEQ is tracked for a stream and a use (R430). -/
def trackKey (g : Segment) (u : SegUse) : Nat :=
  3 * streamKey g.src g.tile g.slot g.kind g.span + match u with
    | .prompt => 0
    | .packed => 1
    | .capture _ => 2

/-- Delivers a segment: SEQ is tracked, missing words give GAP, one repeated over both routes of a move is dropped (R430, R450). A number that
falls at another time is that of a source that has begun again at 0 after its reset (R109). -/
def State.takeSegment (s : State) (g : Segment) (u : SegUse) : State :=
  let step := match u with
    | .capture n => 2 ^ n
    | _ => 1
  let t := trackKey g u
  let old := s.ring.expect.find? (fun e => e.1 = t)
  let d : Int := match old with
    | some e => wrapDiff 32 g.seq e.2
    | none => 0
  let holding := match s.ring.plan with
    | some p => p.holdEnd.isSome
    | none => false
  if d < 0 && holding then s
  else
    let d := if d < 0 then (g.seq : Int) else d
    let s := s.modRing (fun r => { r with expect := tset r.expect t ((g.seq + step * g.words.length) % 2 ^ 32) })
    let gap := decide (0 < d)
    match u with
    | .prompt => s.promptWord g gap
    | .packed => s.packedBlock g false gap 0
    | .capture n => s.packedBlock g true gap n

/-- A segment is the next of its stream. -/
def State.isNext (s : State) (g : Segment) (u : SegUse) : Bool :=
  match s.ring.expect.find? (fun e => e.1 = trackKey g u) with
  | some e => decide (wrapDiff 32 g.seq e.2 ≤ 0)
  | none => true

/-- Held segments leave when the stream has come to them: PROMPT segments are held with 1 word, PACKED ones as they are (R450). -/
def State.releaseHeld (s : State) : Nat → State
  | 0 => s
  | n + 1 =>
    match s.ring.held.find? (fun x => s.isNext x.2 (if x.1 then .prompt else .packed)) with
    | none => s
    | some x => ((s.modRing (fun r => { r with held := r.held.erase x })).takeSegment x.2 (if x.1 then .prompt else .packed)).releaseHeld n

/-- Every held segment leaves, in the order it came: the hold is over (R450). -/
def State.releaseAll (s : State) : State :=
  let l := s.ring.held
  l.foldl (fun (s : State) x => s.takeSegment x.2 (if x.1 then .prompt else .packed)) (s.modRing (fun r => { r with held := [] }))

/-- Segments arrive; those of the new route of a planned move wait until the old one has delivered what comes before (R450). -/
def State.segmentsIn (s : State) (prompt newRoute : Bool) (l : List Segment) : State :=
  let holding := match s.ring.plan with
    | some p => p.holdEnd.isSome
    | none => false
  let u := if prompt then SegUse.prompt else SegUse.packed
  l.foldl (fun (s : State) g =>
    if newRoute && holding && !s.isNext g u then s.modRing (fun r => { r with held := r.held ++ [(prompt, g)] })
    else (s.takeSegment g u).releaseHeld s.ring.held.length) s

/-- PROMPT (R429, R430). -/
def execRxPrompt (newRoute : Bool) (segs : List Segment) (s : State) : Host.Outcome State Fault Refusal :=
  .next (if s.ringOn then s.segmentsIn true newRoute segs else s)

/-- PACKED: the manager turns each segment into a sample block (R429). -/
def execRxPacked (newRoute : Bool) (segs : List Segment) (s : State) : Host.Outcome State Fault Refusal :=
  .next (if s.ringOn && s.isManager then s.segmentsIn false newRoute segs else s)

/-- CAPTURE: a record of a worker, or a block of one of its capture streams (R424, log 39). -/
def execRxCapture (src qid : Nat) (c : CaptureBody) (s : State) : Host.Outcome State Fault Refusal :=
  if !s.ringOn || !s.isManager then .next s
  else match c with
    | .record v =>
      match s.qidOwner qid with
      | some (f + 1) => .next (s.postRecord qid v f)
      | _ => .next s
    | .block g n => .next (s.takeSegment { g with src := src } (.capture n))

/-- PACKED_SEND_TIMEOUT: 2 us after its first segment a short frame goes (R429). -/
def execPackedSendTimeout (s : State) : Host.Outcome State Fault Refusal :=
  match s.ring.packingSince with
  | some t => if t + 2000 ≤ s.now then .next s.sendPacked else .next s
  | none => .next s

/-- The rate of a port changes: its link trains again (R419, R454). -/
def State.setRate (s : State) (east : Bool) (x : Option Bool) : State :=
  match x with
  | none => s
  | some v =>
    if (s.ring.port east).rate = v then s
    else
      let i := if east then 11 else 12
      (s.modPort east (fun p => { p with rate := v, link := 1, samples := [] })).modAge 0 (fun a =>
        { a with gauges := tmod {} a.gauges i (fun g => { g with sinceRate := 0 }) })

/-- The manager keeps the lane rates it has set on the ports of another node (R419, R454). -/
def State.noteRate (s : State) (n : Nat) (e w : Option Bool) : State :=
  if n = 0 then s
  else s.modRing (fun r => { r with
    table := tmod {} r.table n (fun x => { x with rateE := e.getD x.rateE, rateW := w.getD x.rateW }) })

/-- The manager sets the lane rate of a port: its own, or that of a worker by a CMD frame (R454, log 31). -/
def State.putRate (s : State) (n : Nat) (east v : Bool) : State :=
  if n = 0 then s.setRate east (some v)
  else (s.noteRate n (if east then some v else none) (if east then none else some v)).sendAcked .cmd n
    (mkRec [⟨2, 0, 8, b2n (!east) + 2 * b2n (!v)⟩, ⟨3, 0, 8, 4⟩])

/-- The commands of the ring whose planned move was abandoned: what they changed on the way is undone (R15, R456, log 58). -/
def State.endRingOps (s : State) (st : Status) : State :=
  let s := match s.findOp 0x0A03 0 with
    | some o => s.modRing (fun r => if o.req.u 16 0 2 = 0 then
        { r with table := tmod {} r.table (o.req.u 4 0 6) (fun x => { x with takenOut := false }) } else r)
    | none => s
  let s := match s.findOp 0x0A01 0 with
    | some o =>
      let n := o.req.u 4 0 6
      if o.note % 2 = 1 && s.ring.slowAt n true = o.req.b 16 0 then s.putRate n true (!o.req.b 16 0) else s
    | none => s
  (s.endOp 0x0A03 0 st 0).endOp 0x0A01 0 st 0

/-- A lane fallback that is being moved is held pending (R579, R584). -/
def State.dropFallback (s : State) : State :=
  let e := s.age.moves.any (fun m => m.1 = 0)
  let w := s.age.moves.any (fun m => m.1 = 1)
  { s with age := { s.age with pendE := s.age.pendE || e, pendW := s.age.pendW || w, moves := [] } }

/-- A node learns that a link is down: its sources leave it, a planned move is abandoned; the manager issues a PLAN, and raises
RING_REROUTE, or RING_SPLIT at a second break that is not at the other side of the same node (R448, R449, R451, log 54). -/
def State.linkFault (s : State) (a b : Nat) : State :=
  let r := s.ring
  let expected := match r.join with
    | some j => j.begun && j.a = a && j.b = b
    | none => false
  if r.downLinks.contains (a, b) || r.avoid.contains (a, b) || expected || (s.isManager && r.view = 0) then s
  else
    let s := s.releaseAll.modRing (fun r => { r with
      downLinks := r.downLinks ++ [(a, b)], rerouteCnt := r.rerouteCnt.bump 16, plan := none, movesDue := [] })
    if !s.isManager then s
    else
      let s := (if r.plan.isSome then (s.endRingOps .timeout).dropFallback else s)
      let s := s.modRing (fun r => { r with join := none })
      let one := r.downLinks.all (fun l => (l.2 = a && a ≠ 0) || (l.1 = b && b ≠ 0))
      let seq := r.nextSeq
      let p : RingPlan := {
        seq := seq, switchAt := s.now, order := s.ring.nodesInOrder, avoid := s.ring.avoid ++ [(a, b)], link := (a, b), why := .reroute }
      let s := (s.modRing (fun r => { r with planSeq := seq, avoid := p.avoid, order := p.order, view := if one then 2 else 3 })).sendPlan p
      if one then s.raise 0x0A02 15 seq (a + 256 * b)
      else (s.raise 0x0A09 15 seq (a + 256 * b)).report 0x2B s.ring.nodeNo 0

/-- The link of a port goes down: counted, reported, raised to the manager's PF, and announced to every node, unless it is
the link of a join offer that has begun (R421, R447, R448). The active port changes where its link is lost (R38). -/
def State.dropLink (s : State) (east : Bool) (a b cause : Nat) : State :=
  if !s.ringOn || (s.ring.port east).link ≠ 2 then s
  else
    let s := s.modPort east (fun p => { p with link := 0, samples := [], lastTime := none, lanes := [], crcTimes := [] })
    let s := s.modRing (fun r => { r with
      downCnt := r.downCnt.bump 16, lastDown := s.stamp,
      activeEast := if s.isWorker && r.activeEast = east && (r.port (!east)).link = 2 then !east else r.activeEast })
    let expected := match s.ring.join with
      | some j => j.begun && j.a = a && j.b = b
      | none => false
    let s := if expected then s else s.sendFrame { type := .linkFault, dst := none, aux := 0, body := a + 256 * b }
    let s := s.linkFault a b
    let s := s.raise 0x0A01 15 (s.ring.nodeNo + if east then 0 else 256) cause
    s.report 0x29 (if east then 0 else 1) 0

/-- LINK_DOWN: a receive lane of a port has lost block lock, two markers in a row were missing, or the ends differ in rate (R421). -/
def execLinkDown (east : Bool) (a b cause : Nat) (s : State) : Host.Outcome State Fault Refusal := .next (s.dropLink east a b cause)

/-- LINK_FAULT: the first notice of a link that is down (R448). -/
def execRxLinkFault (src fseq a b : Nat) (s : State) : Host.Outcome State Fault Refusal :=
  if !s.ringOn || !s.firstCopy src 0 fseq then .next s else .next ((s.noteCopy src 0 fseq).linkFault a b)

/-- The nodes that a link from a to b passes over: they are out of the ring (R449). -/
def Ring.passedOver (r : Ring) (a b : Nat) : List Nat :=
  let o := r.order
  let i := (o.idxOf? a).getD 0
  ((List.range (o.length - 1)).map (fun t => o.getD ((i + t + 1) % o.length) 0)).takeWhile (fun n => n ≠ b && n ≠ a)

/-- The manager learns that a link is up: nodes it passes over are lost, and the ring heals by a planned move (R449, R450). -/
def State.linkBack (s : State) (a b : Nat) : State :=
  let r := s.ring
  if s.ring.view = 0 || !r.order.contains a || !r.order.contains b then s
  else
    let lost := (r.passedOver a b).filter (fun n => n ≠ 0)
    if lost.isEmpty && !r.downLinks.contains (a, b) && !r.avoid.contains (a, b) then s
    else
      let s := lost.foldl (fun (s : State) n =>
        let x : RingNode := tget {} s.ring.table n
        let s := s.modRing (fun r => { r with table := tset r.table n { x with present := false, state := 0 } })
        if x.takenOut || !x.present then s else s.raise 0x0A05 15 n x.serial) s
      s.startMove (a, b) .heal

/-- The mean of the delays measured, in sixty-fourths of a nanosecond, rounded down (R437, log 56). -/
def delayMean (l : List Int) : Int := if l.isEmpty then 0 else l.foldl (· + ·) 0 / (l.length : Int)

/-- LINK_UP: a link has trained: of port 0 EAST or 1 WEST of this node, its lanes in lock, with the 16 delays measured and no CRC error for
1 ms; with port 2 the manager learns of a
link elsewhere (log 55). The bypass of a manager opens when both its ports are trained (R421, R445, R568). -/
def execLinkUp (port a b : Nat) (d : List Int) (s : State) : Host.Outcome State Fault Refusal :=
  if !s.ringOn then .next s
  else if 2 ≤ port then .next (if s.isManager then s.linkBack a b else s)
  else
    let east := port = 0
    let lanes := if east then 4 else 8
    let p := s.ring.port east
    let clean := p.crcTimes.all (fun t => decide (t + 1000000 ≤ s.now))
    if d.length ≠ 16 || !clean || s.node.ringLanes < lanes || (s.isWorker && s.ring.bypassClosed) || p.link = 2 || s.faults.fatal then .next s
    else
      let s := s.modPort east (fun p => { p with
        link := 2, lanes := List.replicate 4 { locked := true }, crcTimes := [], samples := d, delay := delayMean d, clockLost := false })
      let both := s.ring.east.link = 2 && s.ring.west.link = 2
      let s := s.modRing (fun r => { r with
        bypassClosed := if s.isManager && both then false else r.bypassClosed
        insertedAt := if both then none else r.insertedAt })
      .next (if s.isManager then s.linkBack a b else s)

/-- PLAN: a plan with its switch time; one whose time has come is in force at once (R448, R450). -/
def execRxPlan (fseq seq switchAt : Nat) (order : List Nat) (avoid : List (Nat × Nat)) (s : State) :
    Host.Outcome State Fault Refusal :=
  if !s.ringOn || !s.isWorker || !s.firstCopy 0 1 fseq then .next s
  else
    let s := s.noteCopy 0 1 fseq
    if switchAt ≤ s.now then
      .next (s.releaseAll.modRing (fun r => { r with
        planSeq := seq, order := order, avoid := avoid, downLinks := r.downLinks.filter (fun l => avoid.contains l), plan := none }))
    else
      .next (s.modRing (fun r => { r with
        plan := some { seq := seq, switchAt := switchAt, order := order, avoid := avoid, link := (0, 0), why := .reroute } }))

/-- PLAN_SWITCH: at T_s every source sends on its new route; a healing move raises RING_HEALED (R450). -/
def execPlanSwitch (s : State) : Host.Outcome State Fault Refusal :=
  match s.ring.plan with
  | none => .next s
  | some p =>
    if s.now < p.switchAt || p.holdEnd.isSome || !s.ringOn then .next s
    else
      let s := s.modRing (fun r => { r with
        planSeq := p.seq, order := p.order, avoid := p.avoid, plan := some { p with holdEnd := some (p.switchAt + 20000) },
        downLinks := r.downLinks.filter (fun l => p.avoid.contains l) })
      if s.isManager && p.why = .heal then
        let s := s.modRing (fun r => { r with view := if r.avoid.isEmpty then 1 else 2 })
        .next (s.raise 0x0A03 15 p.seq (p.link.1 + 256 * p.link.2))
      else .next s

/-- The other end of a link of a node's port. -/
def Ring.linkAt (r : Ring) (n : Nat) (east : Bool) : Nat × Nat :=
  let i := (r.order.idxOf? n).getD 0
  let k := r.order.length
  if east then (n, r.order.getD ((i + 1) % k) 0) else (r.order.getD ((i + k - 1) % k) 0, n)

/-- What RING_CONFIG sets beside the lane rates; the manager's fields are ignored on a worker (R454). -/
def State.setRing (s : State) (r : Req) : State :=
  s.modRing (fun x => { x with
    east := { x.east with asym := r.i 20 16 }, west := { x.west with asym := r.i 22 16 },
    joinScan := if s.isWorker then x.joinScan else r.b 16 2, joinPeriod := if s.isWorker then x.joinPeriod else r.u 18 0 16,
    commandWait := if s.isWorker then x.commandWait else r.u 24 0 16 })

/-- A command of the ring goes to the worker it names, in the installer's role; `note`: the rates changed for it (R15, R432). -/
def State.sendRing (s : State) (r : Req) (note : Nat) : State :=
  let n := r.u 4 0 6
  let s := s.sendAcked .cmd n (mkRec [⟨0, 0, 8, r.fn⟩, ⟨1, 0, 8, 1⟩, ⟨16, 0, 512, r.entry.toNat⟩])
  s.modRing (fun x => { x with forwarded := x.forwarded ++
    [{ tag := x.tag, node := n, req := r, deadline := s.now + x.commandWait * 1000000000, note := note }] })

/-- The rates a RING_CONFIG asks for are in force: on the manager it has its effect and completes, for a worker it is sent there (R454). -/
def State.endConfig (s : State) (o : LongOp) : State :=
  if o.req.u 4 0 6 = 0 then (s.setRing o.req).endOp 0x0A01 0 .ok 0
  else { s with host := { s.host with ops := s.host.ops.erase o } }.sendRing o.req o.note

/-- A RING_CONFIG that a worker has refused leaves its rates as they were (R15). -/
def State.undoRates (s : State) (f : Forwarded) : State :=
  let s := if f.note % 2 = 1 then s.putRate f.node true (!f.req.b 16 0) else s
  if f.note / 2 = 1 then s.putRate f.node false (!f.req.b 16 1) else s

/-- A RING_CONFIG in progress on the manager: the next port whose rate changes starts its planned break once the link of the first is back,
and with both rates in force the command ends (R15, R454). -/
def State.nextRate (s : State) : State :=
  match s.findOp 0x0A01 0 with
  | none => s
  | some o =>
    let n := o.req.u 4 0 6
    let e := o.req.b 16 0
    let w := o.req.b 16 1
    if s.ring.slowAt n true = e && s.ring.slowAt n false = w then s.endConfig o
    else if s.ring.plan.isSome || s.ring.blocked (s.ring.linkAt n true) || s.ring.blocked (s.ring.linkAt n false) then s
    else if s.ring.slowAt n true ≠ e then s.startMove (s.ring.linkAt n true) (.rate n (some e) none false)
    else s.startMove (s.ring.linkAt n false) (.rate n none (some w) false)

/-- What follows the end of a planned move. -/
def State.afterMove (s : State) (p : RingPlan) : State :=
  match p.why with
  | .leave =>
    s.modRing (fun r => { r with
      join := match r.join with
      | some j => some { j with joinAt := s.now + 1000000 }
      | none => none })
  | .takeOut n =>
    match s.findOp 0x0A03 0 with
    | none => s
    | some o =>
      let s := s.sendAcked .cmd n (mkRec [⟨0, 0, 8, o.req.fn⟩, ⟨1, 0, 8, 1⟩, ⟨16, 0, 512, o.req.entry.toNat⟩])
      s.modRing (fun r => { r with table := tmod {} r.table n (fun x => { x with takenOut := true }) })
  | .rate n e w fallback =>
    let far := if p.link.1 = n then p.link.2 else p.link.1
    let put := fun (s : State) (east : Bool) (x : Option Bool) => match x with
      | some v => s.putRate n east v
      | none => s
    let s := put (put s true e) false w
    if fallback then { s.putRate far (p.link.1 = far) true with age := { (s.putRate far (p.link.1 = far) true).age with moves := [] } }
    else s.nextRate
  | .heal | .back => ((s.endOp 0x0A03 0 .ok 0).modRing (fun r => { r with join := none })).nextRate
  | .reroute => s

/-- ROUTE_HOLD_END: T_s + 20 us: what is held goes, the move has ended, and one that waits starts (R450). -/
def execRouteHoldEnd (s : State) : Host.Outcome State Fault Refusal :=
  match s.ring.plan with
  | none => .next s
  | some p =>
    match p.holdEnd with
    | none => .next s
    | some t =>
      if s.now < t then .next s
      else
        let s := s.releaseAll.modRing (fun r => { r with plan := none })
        let s := if s.isManager then s.afterMove p else s
        match s.ring.movesDue with
        | [] => .next s
        | m :: rest => .next ((s.modRing (fun r => { r with movesDue := rest })).startMove m.1 m.2)

/-! ### Time (R437 to R441) -/

/-- DELAY_REQ_SEND: every 100 us on each link that is up; the send time is kept (R437). -/
def execDelayReqSend (east : Bool) (s : State) : Host.Outcome State Fault Refusal :=
  let p := s.ring.port east
  let due := match p.reqSent with
    | some t => decide (t + 6400000 ≤ s.node.clock)
    | none => true
  if !s.ringOn || p.link ≠ 2 || !due then .next s
  else .next ((s.modPort east (fun p => { p with reqSent := some s.node.clock })).sendPort .delayReq east 0)

/-- A time in sixty-fourths as the model writes it in a frame: nanoseconds and fraction (log 57). -/
def time64 (off t : Nat) : List Fld := [⟨off, 0, 64, t / 64⟩, ⟨off + 8, 0, 6, t % 64⟩]

/-- DELAY_REQ: answered with the receive time and, `res` sixty-fourths later, the send time (R437). -/
def execRxDelayReq (east : Bool) (sub res : Nat) (s : State) : Host.Outcome State Fault Refusal :=
  if !s.ringOn then .next s
  else
    let t := s.node.clock + sub % 3125
    .next (s.sendPort .delayResp east (mkRec (time64 0 t ++ time64 16 (t + res))))

/-- DELAY_RESP: one more value of the link delay; the mean of the last 16 is in use (R437). -/
def execRxDelayResp (east : Bool) (t2 t3 sub : Nat) (s : State) : Host.Outcome State Fault Refusal :=
  let p := s.ring.port east
  match p.reqSent with
  | none => .next s
  | some t1 =>
    if !s.ringOn then .next s
    else
      let t4 := s.node.clock + sub % 3125
      let d : Int := (1000 * (((t4 : Int) - t1) - ((t3 : Int) - t2)) + 64 * p.asym) / 2000
      .next (s.modPort east (fun p => { p with samples := (d :: p.samples).take 16, delay := delayMean ((d :: p.samples).take 16) }))

/-- The body of a TIME frame (R438). -/
def timeBody (f : TimeFrame) : Nat :=
  mkRec [⟨0, 0, 64, f.origin⟩, ⟨8, 0, 6, f.frac⟩, ⟨12, 0, 32, toU 32 f.corr⟩, ⟨16, 0, 6, f.hopsDone⟩, ⟨17, 0, 6, f.last⟩, ⟨18, 0, 1, b2n f.form⟩,
    ⟨20, 0, 32, f.planSeq⟩, ⟨24, 0, 64, f.joinTime⟩, ⟨32, 0, 6, f.joinA⟩, ⟨33, 0, 6, f.joinB⟩]

/-- TIME_SEND: every 10 us the manager sends a TIME frame on each port (R438). -/
def execTimeSend (s : State) : Host.Outcome State Fault Refusal :=
  let due := match s.ring.timeSent with
    | some t => decide (t + 10000 ≤ s.now)
    | none => true
  if !s.ringOn || !s.isManager || !due then .next s
  else
    let j := s.ring.join.getD { a := 0, b := 0, joinAt := 0, begun := false }
    let f : TimeFrame := {
      origin := s.now, frac := s.node.clock % 64, corr := 0, hopsDone := 0, last := 0, form := s.ring.view = 0, planSeq := s.ring.planSeq,
      joinTime := j.joinAt, joinA := j.a, joinB := j.b }
    let s := s.modRing (fun r => { r with timeSent := some s.now })
    .next ((s.sendPort .time true (timeBody f)).sendPort .time false (timeBody f))

/-- The open block of every stream of the node is posted (R441). -/
def State.closeAll (s : State) : State :=
  (s.host.streams.filter (fun e => keyNode e.1 = s.ring.nodeNo)).foldl (fun (s : State) e => s.closeBlocks e.1) s

/-- Lock is lost: UNLOCKED with its event and its report (R439, R452). -/
def State.unlockTime (s : State) (cause : Nat) : State :=
  let s := s.modRing (fun r => { r with state := .unlocked, lockRun := 0, unlockRun := 0, stepped := false })
  (s.raise 0x0A08 15 s.ring.nodeNo cause).report 0x2A s.ring.nodeNo 0

/-- The distance of e from the nearest whole number of draught periods: the error of the sample instants (R33, R39, log 53). -/
def phaseOf (e : Int) : Int := (e + 1562) % 3125 - 1562

/-- The error of a TIME frame on the active port: steps, lock and its loss (R439, R441). -/
def State.timeError (s : State) (e : Int) : State :=
  let r := s.ring
  let err := if r.timeLoaded then e else phaseOf e
  let s := s.modRing (fun r => { r with
    timeErr := e, lockRun := if err.natAbs ≤ 16 then r.lockRun + 1 else 0, unlockRun := if 64 < e.natAbs then r.unlockRun + 1 else 0 })
  if r.state = .locked then (if 16 ≤ s.ring.unlockRun then s.unlockTime 1 else s)
  else if r.state = .numbered || r.state = .unlocked then
    if r.timeLoaded && !r.stepped && e < -640000 then
      (s.closeAll.stepTime (-e)).modRing (fun r => { r with stepped := true, lockRun := 0 })
    else if r.timeLoaded && !r.stepped && 640000 < e then
      let before := s.now
      let s := (s.closeAll.stepTime (-e)).modRing (fun r => { r with stepped := true, lockRun := 0 })
      let s := s.raise 0x0A0A 15 s.ring.nodeNo (before % 2 ^ 64 + s.now % 2 ^ 64 * 2 ^ 64)
      let back := fun (c : Conn) => if c.enable && !c.dir && c.state ≠ 0 then { c with state := 1 } else c
      { s with prot := { s.prot with conns := s.prot.conns.map (fun c => (c.1, back c.2)) } }
    else if 16 ≤ s.ring.lockRun then
      let s := if r.timeLoaded then s else (s.closeAll.stepTime (-e)).modRing (fun r => { r with timeLoaded := true })
      let s := s.modRing (fun r => { r with state := .locked, unlockRun := 0 })
      s.raise 0x0A07 15 s.ring.nodeNo (toU 32 e)
    else s
  else s

/-- The worker opens its bypass: INSERTED, its links training (R445, R446). -/
def State.openBypass (s : State) : State :=
  s.modRing (fun r => { r with
    bypassClosed := false, state := .inserted, insertedAt := some s.now, lockRun := 0, unlockRun := 0, stepped := false,
    east := { r.east with link := 1 }, west := { r.west with link := 1 } })

/-- The worker leaves the ring: LISTENING with the bypass closed (R442, R445). -/
def State.leaveRing (s : State) : State :=
  s.modRing (fun r => { r with
    bypassClosed := true, state := .listening, insertedAt := none, join := none,
    east := { r.east with link := 0 }, west := { r.west with link := 0 } })

/-- TIME: a worker takes the manager's time at the receive instant, `sub` sixty-fourths after the present draught edge, sends the frame
on after `res`, and, on its active port, follows it; a LISTENING one opens its bypass while FORM is set, or learns of a join (R438 to R447). -/
def execRxTime (east : Bool) (sub res : Nat) (f : TimeFrame) (s : State) : Host.Outcome State Fault Refusal :=
  if !s.ringOn || !s.isWorker then .next s
  else
    let p := s.ring.port east
    let tRx := s.node.clock + sub % 3125
    let tM : Int := ((64 * f.origin + f.frac : Nat) : Int) + f.corr + p.delay
    let e := (tRx : Int) - tM
    let s := s.modPort east (fun p => { p with lastTime := some s.now, hopsDone := f.hopsDone })
    let s := s.modRing (fun r => if east then { r with lastB := some f.last } else { r with lastA := some f.last })
    let at_ := ((f.joinTime : Int) + e / 64).toNat
    let s := s.modRing (fun r => { r with
      join :=
      if f.joinTime = 0 then none
      else match r.join with
        | some j => if j.begun && j.a = f.joinA && j.b = f.joinB then some j
          else some { a := f.joinA, b := f.joinB, joinAt := at_, begun := false }
        | none => some { a := f.joinA, b := f.joinB, joinAt := at_, begun := false } })
    if s.ring.state = .listening then
      if f.form && !s.faults.fatal && s.node.ringLanes = 8 then .next s.openBypass else .next { s with ring := { s.ring with timeErr := e } }
    else
      let g : TimeFrame := { f with corr := f.corr + p.delay + res, hopsDone := f.hopsDone + 1, last := s.ring.nodeNo }
      let s := s.sendPort .time (!east) (timeBody g) true
      let fresh := fun (q : RingPort) => match q.lastTime with
        | some t => !q.clockLost && decide (s.now < t + 100000)
        | none => false
      let r := s.ring
      let active := if fresh r.east && fresh r.west then decide (r.east.hopsDone < r.west.hopsDone) else fresh r.east
      let s := s.modRing (fun r => { r with activeEast := active })
      .next (if active = east then s.timeError e else s)

/-- TIME_LOSS_TIMEOUT: no valid TIME frame on either port for 100 us (R439). -/
def execTimeLossTimeout (s : State) : Host.Outcome State Fault Refusal :=
  let stale := fun (q : RingPort) => match q.lastTime with
    | some t => decide (t + 100000 ≤ s.now)
    | none => true
  if s.ringOn && s.isWorker && s.ring.state = .locked && stale s.ring.east && stale s.ring.west then .next (s.unlockTime 2) else .next s

/-! ### Acknowledged frames (R433) -/

/-- A COMMAND-class frame with a TAG: it is acknowledged; true when its TAG is not among the last 256 of its source. -/
def State.takeTag (s : State) (src tag : Nat) : State × Bool :=
  let old := tget [] s.ring.seen src
  let s := s.sendFrame { type := .ack, dst := some src, aux := tag, body := 0 }
  if old.contains tag then (s, false)
  else (s.modRing (fun r => { r with seen := tset r.seen src ((tag :: old).take 256) }), true)

/-- The target of a frame is on the ring: a node that is present, or the manager when this node is inserted. -/
def State.onRing (s : State) (dst : Option Nat) : Bool :=
  !s.ring.bypassClosed && match dst with
    | some n => if s.isManager then (tget {} s.ring.table n).present else true
    | none => true

/-- RESEND_TIMEOUT: the first frame not acknowledged for 200 us is sent again under its TAG; it waits while its target is not on the
ring. -/
def execResendTimeout (s : State) : Host.Outcome State Fault Refusal :=
  match s.ring.unacked.find? (fun u => decide (u.sentAt + 200000 ≤ s.now) && s.onRing u.frame.dst) with
  | none => .next s
  | some u =>
    if !s.ringOn then .next s
    else
      let s := s.modRing (fun r => { r with
        unacked := r.unacked.erase u ++ [{ u with sentAt := s.now }], resendCnt := r.resendCnt.bump 16 })
      .next (s.sendFrame u.frame)

/-- A forwarded command ends without its completion: TIMEOUT, and its frame is sent no more (R433). -/
def State.forwardLost (s : State) (f : Forwarded) : State :=
  let s := s.modRing (fun r => { r with
    forwarded := r.forwarded.erase f, unacked := r.unacked.filter (fun u => !(u.frame.type = .cmd && u.frame.aux = f.tag)) })
  s.finish f.req .timeout 0

/-- COMMAND_WAIT_TIMEOUT: COMMAND_WAIT has passed since a command was forwarded (R433). -/
def execCommandWaitTimeout (s : State) : Host.Outcome State Fault Refusal :=
  match s.ring.forwarded.find? (fun f => decide (f.deadline ≤ s.now)) with
  | none => .next s
  | some f => .next (s.forwardLost f)

/-- ACK: the frame is sent no more; the last worker's ACK of a DEV_RESET lets it go on (R433, R567). -/
def execRxAck (src tag : Nat) (s : State) : Host.Outcome State Fault Refusal :=
  if !s.ringOn then .next s
  else
    let s := s.modRing (fun r => { r with unacked := r.unacked.filter (fun u => !(u.frame.dst = some src && u.frame.aux = tag)) })
    match s.findOp 0x0E01 0 with
    | none => .next s
    | some o =>
      if s.ring.unacked.any (fun u => u.frame.type = .cmd && bits u.frame.body 128 16 = 0x0E01) then .next s
      else .next ({ s with host := { s.host with ops := s.host.ops.erase o } }.devResetDone o.req)

/-! ### Formation and joining (R445 to R447) -/

/-- The lowest free node number. -/
def Ring.freeNumber (r : Ring) : Nat :=
  ((List.range 63).find? (fun i => !((tget {} r.table (i + 1)).present))).getD 63 + 1

/-- NUMBER: on a worker, the number it takes, or with 0 its refusal. On the manager, an inserted worker w is numbered (log 55): it keeps
the number it claims unless another present node has it; beyond the 63rd it is refused (R441, R446). -/
def execRxNumber (tag num : Nat) (w : RingWorker) (s : State) : Host.Outcome State Fault Refusal :=
  if !s.ringOn then .next s
  else if s.isWorker then
    if s.ring.bypassClosed then .next s
    else
      match s.takeTag 0 tag with
      | (s, false) => .next s
      | (s, true) =>
        if num = 0 then .next s.leaveRing
        else .next (s.modRing (fun r => { r with nodeNo := num, state := if r.state = .inserted then .numbered else r.state }))
  else
    let r := s.ring
    let kept := match w.claim with
      | some n =>
        let x : RingNode := tget {} r.table n
        if n ≠ 0 && n < 64 && (!x.present || x.serial = w.serial) then some n else none
      | none => none
    let known := r.table.find? (fun e => e.2.present && e.2.serial = w.serial)
    let full := 63 ≤ r.present.length && known.isNone
    let body := fun (n : Nat) => mkRec [⟨0, 0, 8, n⟩, ⟨8, 0, 64, w.serial⟩]
    if full then .next ((s.sendFrame { type := .number, dst := some 0, aux := 0, body := body 0 }).raise 0x0A06 15 0 w.serial)
    else
      let n := match kept, known with
        | some n, _ => n
        | none, some e => e.1
        | none, none => r.freeNumber
      let old : RingNode := tget {} r.table n
      let rejoined := old.serial = w.serial && old.bootCnt ≠ w.boot
      let s := s.modRing (fun r => { r with
        table := tset (r.table.filter (fun e => e.1 = n || e.2.serial ≠ w.serial)) n
          { serial := w.serial, position := w.position, state := 2, present := true, bootCnt := w.boot, takenOut := false }
        reported := match w.time with
          | some t => t :: r.reported
          | none => r.reported })
      let s := if rejoined then
          { s with views := tset s.views n { trust := (s.view n).trust } }.modRing (fun r => { r with told := r.told.filter (fun x => x.1.2 ≠ n) })
        else s
      let s := s.modRing (fun r => if r.view = 0 then { r with order := r.nodesInOrder } else r)
      let s := if rejoined then (s.ring.forwarded.filter (fun f => f.node = n)).foldl (fun (s : State) f => s.forwardLost f) s else s
      let s := s.sendAcked .number n (body n)
      let s := if old.present && old.serial = w.serial then s else s.raise 0x0A04 15 n w.serial
      let s := s.sendAcked .cmd n (mkRec [⟨2, 0, 8, maskOf 8 (fun k => s.isLive k)⟩, ⟨3, 0, 8, 1⟩])
      match s.ring.join with
      | some j => .next (if j.begun && s.ring.view ≠ 0 then s.startMove (j.a, j.b) .back else s)
      | none => .next s

/-- The links of the ring that the manager knows not to have come up: those of its own ports that are not, and those whose ends differ in rate
(R419). -/
def Ring.deadLinks (r : Ring) (order : List Nat) : List (Nat × Nat) :=
  let n := order.length
  if n ≤ 1 then []
  else (({ r with order := order } : Ring).links 0 n).filter (fun l =>
    r.slowAt l.1 true != r.slowAt l.2 false || (l.1 = 0 && r.east.link ≠ 2) || (l.2 = 0 && r.west.link ≠ 2))

/-- FORMATION_END: ring A has closed with every link up, or 2 s have passed since reset: the manager steps its time past every time
reported, clears FORM and issues the first plan, which leaves out the links that have not come up (R419, R441, R446). -/
def execFormationEnd (closed : Bool) (s : State) : Host.Outcome State Fault Refusal :=
  let up := closed && s.ring.east.link = 2 && s.ring.west.link = 2 && !s.ring.bypassClosed
  if !s.ringOn || !s.isManager || s.ring.view ≠ 0 || (!up && s.sinceRef < 2000000000) then .next s
  else
    let top := s.ring.reported.foldl max 0 + 1000000
    let s := if s.ring.reported.isEmpty || top ≤ s.now then s
      else (s.closeAll).stepTime (((64 * top : Nat) : Int) - (s.node.clock : Int))
    let dead := s.ring.deadLinks s.ring.nodesInOrder
    let s := s.modRing (fun r => { r with
      view := if up then 1 else 2, reported := [], planSeq := r.nextSeq, order := r.nodesInOrder, lastOffer := s.now, lastScan := s.now,
      avoid := r.avoid ++ dead.filter (fun l => !r.avoid.contains l), downLinks := r.downLinks ++ dead.filter (fun l => !r.downLinks.contains l) })
    let p : RingPlan := {
      seq := s.ring.planSeq, switchAt := s.now, order := s.ring.order, avoid := s.ring.avoid, link := (0, 0), why := .reroute }
    .next (s.sendPlan p)

/-- INSERTION_TIMEOUT: the links of an insertion are not both up within 100 ms (R445). -/
def execInsertionTimeout (s : State) : Host.Outcome State Fault Refusal :=
  match s.ring.insertedAt with
  | some t => if s.isWorker && t + 100000000 ≤ s.now then .next s.leaveRing else .next s
  | none => .next s

/-- An offer at a link begins: its traffic moves off (R447). -/
def State.offerJoin (s : State) (link : Nat × Nat) : State :=
  let s := s.modRing (fun r => { r with join := some { a := link.1, b := link.2, joinAt := 0, begun := false } })
  s.startMove link .leave

/-- The link that leaves a node on ring A, of those present. -/
def Ring.linkFrom (r : Ring) (a : Nat) : Nat × Nat :=
  let o := r.nodesInOrder
  (a, o.getD (((o.idxOf? a).getD 0 + 1) % o.length) 0)

/-- The present node before a lost one on ring A. -/
def Ring.beforeLost (r : Ring) (x : RingNode) : Nat :=
  ((r.present.filter (fun e => e.2.position < x.position)).getLast?.map (fun e => e.1)).getD 0

/-- JOIN_OFFER: the manager offers a join: one asked for, else every 1 s at the link of a node lost, else with JOIN_SCAN at the next
link in rotation every JOIN_PERIOD (R447). -/
def execJoinOffer (s : State) : Host.Outcome State Fault Refusal :=
  let r := s.ring
  if !s.ringOn || !s.isManager || r.view = 0 || r.plan.isSome || r.join.isSome then .next s
  else match r.offersDue with
    | a :: rest => .next ((s.modRing (fun r => { r with offersDue := rest, lastOffer := s.now })).offerJoin (r.linkFrom a))
    | [] =>
      match r.table.find? (fun e => !e.2.present && !e.2.takenOut && e.2.serial ≠ 0) with
      | some e =>
        if r.lastOffer + 1000000000 ≤ s.now then
          .next ((s.modRing (fun r => { r with lastOffer := s.now })).offerJoin (r.linkFrom (r.beforeLost e.2)))
        else .next s
      | none =>
        if r.joinScan && r.lastScan + r.joinPeriod * 1000000000 ≤ s.now then
          let o := r.nodesInOrder
          let a := o.getD (r.scanNext % o.length) 0
          .next ((s.modRing (fun r => { r with lastScan := s.now, scanNext := (r.scanNext + 1) % o.length })).offerJoin (r.linkFrom a))
        else .next s

/-- JOIN_TIME: the time announced has come: the offer has begun; a LISTENING worker on that link opens its bypass (R447). -/
def execJoinTime (s : State) : Host.Outcome State Fault Refusal :=
  match s.ring.join with
  | none => .next s
  | some j =>
    if !s.ringOn || j.joinAt = 0 || s.now < j.joinAt || j.begun then .next s
    else
      let s := s.modRing (fun r => { r with join := some { j with begun := true } })
      if s.isWorker && s.ring.state = .listening && s.ring.lastA = some j.a && s.ring.lastB = some j.b && !s.faults.fatal && s.node.ringLanes = 8 then
        .next s.openBypass
      else .next s

/-- JOIN_TIMEOUT: no node has joined 100 ms after JOIN_TIME: the traffic returns to the link (R447). -/
def execJoinTimeout (s : State) : Host.Outcome State Fault Refusal :=
  match s.ring.join with
  | some j =>
    if s.ringOn && s.isManager && j.begun && s.ring.plan.isNone && j.joinAt + 100000000 ≤ s.now then .next (s.startMove (j.a, j.b) .back)
    else .next s
  | none => .next s

/-! ### Other frames -/

/-- TRIGGER: the OBLYN trigger source of every node (R163, R435). -/
def execRxTrigger (src fseq channel time : Nat) (s : State) : Host.Outcome State Fault Refusal :=
  if !s.ringOn || !s.firstCopy src 1 fseq then .next s
  else .next ((s.noteCopy src 1 fseq).sendTriggers 5 (64 * time) (fun _ q => q.trigArg % 16 = channel % 16))

/-- MESSAGE: what a stove of another node sent: the second copy is dropped; the spec gives a node no use of the first (R435, log 57). -/
def execRxMessage (src fseq _channel _mseq : Nat) (s : State) : Host.Outcome State Fault Refusal :=
  if !s.ringOn || !s.firstCopy src 2 fseq then .next s else .next (s.noteCopy src 2 fseq)

/-- Copies of a worker's log that did not arrive show in LSEQ, and count in LOSS_CNT of the PF's log queue, which receives them all
(R398, R434). -/
def State.logCopiesLost (s : State) (src : Nat) (change : Bool) (lseq : Nat) : State :=
  let k := 2 * src + b2n change
  let gap := match s.ring.logNext.find? (fun e => e.1 = k) with
    | some e => (wrapDiff 32 lseq e.2).toNat
    | none => 0
  let s := s.modRing (fun r => { r with logNext := tset r.logNext k ((lseq + 1) % 2 ^ 32) })
  match (s.fn 0).logQid with
  | some q => if gap = 0 then s else s.queueLost q (gap * if change then 2 else 1)
  | none => s

/-- LOG: a log copy of a worker: an event-log record, or with `change` an entry of its change log (R398, R434). -/
def execRxLog (src : Nat) (change : Bool) (body : Nat) (s : State) : Host.Outcome State Fault Refusal :=
  if !s.ringOn || !s.isManager || (tget {} s.ring.table src).present = false then .next s
  else
    let lseq := if change then bits body 0 32 else bits body 64 32
    let s := s.logCopiesLost src change lseq
    if change then .next (s.copyEntry (BitVec.ofNat 512 body))
    else .next (s.copyRec (bits body 152 4)
      { time := bits body 0 64, lseq := lseq, source := 0, part := 0, body := bits body 128 384 })

/-- A frame whose CRC fails goes on with its CRC inverted, unless its way ends here (R425, R426). -/
def State.passDamaged (s : State) (east : Bool) (x : FailedFrame) : State :=
  if x.dst = some s.ring.nodeNo || x.hops = 0 || s.ring.bypassClosed then s
  else
    let o : FrameOut := {
      type := (FrameType.ofCode x.cls x.type).getD .damaged, dst := x.dst, aux := x.aux, body := x.body, ring := b2n east, hops := x.hops - 1,
      fseq := x.fseq, at_ := s.node.clock, passing := true, inverted := true, from_ := some x.src }
    s.modRing (fun r => { r with out := o.queue r.out })

/-- A frame has failed its CRC at a port: it reports, and the sixteenth within 1 ms takes the link down (R421, R426). -/
def State.crcFailed (s : State) (east : Bool) : State :=
  let s := s.report 0x28 (if east then 0 else 1) 0
  let l := s.now :: (s.ring.port east).crcTimes.filter (fun t => decide (s.now < t + 1000000))
  let s := s.modPort east (fun p => { p with crcTimes := l })
  let k := s.ring.linkAt s.ring.nodeNo east
  if 16 ≤ l.length then s.dropLink east k.1 k.2 3 else s

/-- UNKNOWN_FRAME_TYPE: discarded, and counted as a CRC error of the port (R422, R424). One
whose CRC fails (log 57) is counted and reported, never acted on, and what passes through leaves with its CRC inverted (R426). -/
def execUnknownFrameType (f : StrangeFrame) (s : State) : Host.Outcome State Fault Refusal :=
  if !s.ringOn then .next s
  else
    let s := s.modPort f.east (fun p => { p with crc := p.crc.bump 32 })
    match f.fails with
    | none => .next s
    | some x => .next ((s.passDamaged f.east x).crcFailed f.east)

/-! ### Commands (R453 to R457) -/

/-- A planned move is in progress. -/
def State.moving (s : State) : Bool := s.ring.plan.isSome || s.ring.join.isSome

/-- RING_CONFIG on the node it names: a change of rate follows a planned move by the manager, for a worker that it then tells; while the
ring forms it takes effect now (R454, log 60). -/
def ringConfigSpec : CmdSpec :=
  { opcode := 0x0A01
    names := fun _ => [nNode 7]
    opLogged := fun _ _ => true
    node := .argument
    refuse := fun r w s =>
      let period := r.u 18 0 16
      let wait := r.u 24 0 16
      [(!s.isWorker && r.u 4 0 6 = 0 && (period = 0 || 3600 < period || wait = 0 || 600 < wait), .badParam), needs w 1,
       (r.fn ≠ 0, .rights), (s.isAlone, .combination), (s.moving, .busy)]
    act := fun r s =>
      let e := r.b 16 0
      let w := r.b 16 1
      let n := if s.isWorker then 0 else r.u 4 0 6
      let same := s.ring.slowAt n true = e && s.ring.slowAt n false = w
      if n ≠ 0 && (same || s.ring.view = 0 || !s.ring.order.contains n) then { st := s.sendRing r 0, late := true }
      else if same || s.isWorker || s.ring.view = 0 then { st := ((s.setRing r).setRate true (some e)).setRate false (some w) }
      else
        let changed := b2n (s.ring.slowAt n true != e) + 2 * b2n (s.ring.slowAt n false != w)
        { st := (s.startOp (opMark 0x0A01) 0 r 0 changed).nextRate, late := true } }

/-- RING_CONFIG (R454). -/
def execRingConfig (r : Req) (s : State) : Host.Outcome State Fault Refusal := .next (ringConfigSpec.run r s)

/-- STATE of R455. -/
def RingState.code : RingState → Nat
  | .listening => 0 | .inserted => 1 | .numbered => 2 | .locked => 3 | .unlocked => 4

/-- The node record of RING_STATUS (R455); STATE and ACTIVE of a node that is no worker are open: `f`. -/
def State.ringRecord (s : State) (f : Nat) : Nat :=
  let r := s.ring
  let sat := [r.east.crc, r.west.crc, r.downCnt, r.rerouteCnt, r.resendCnt]
  mkRec [⟨0, 0, 6, r.nodeNo⟩, ⟨1, 0, 3, if s.isWorker then r.state.code else f⟩, ⟨1, 3, 1, if s.isWorker then b2n r.activeEast else f / 8⟩,
    ⟨1, 4, 1, b2n r.bypassClosed⟩, ⟨2, 0, 2, r.east.link⟩, ⟨2, 2, 2, r.west.link⟩, ⟨2, 4, 1, b2n r.east.rate⟩, ⟨2, 5, 1, b2n r.west.rate⟩,
    ⟨3, 0, 2, r.view⟩, ⟨4, 0, 32, r.planSeq⟩, ⟨8, 0, 32, toU 32 r.east.delay⟩, ⟨12, 0, 32, toU 32 r.west.delay⟩, ⟨16, 0, 32, toU 32 r.timeErr⟩,
    ⟨20, 0, 32, r.east.crc.n⟩, ⟨24, 0, 32, r.west.crc.n⟩, ⟨28, 0, 16, r.downCnt.n⟩, ⟨30, 0, 16, r.rerouteCnt.n⟩, ⟨32, 0, 16, r.resendCnt.n⟩,
    ⟨34, 0, 5, maskOf 5 (fun i => (sat.getD i {}).sat)⟩, ⟨40, 0, 64, r.lastDown⟩, ⟨48, 0, 64, Config.serial⟩, ⟨56, 0, 32, s.node.bootCnt⟩]

/-- The node table of RING_STATUS (R455). -/
def State.ringTable (s : State) : Nat :=
  mkRec ((List.range 64).flatMap (fun i =>
    let x : RingNode := if i = 0 then { serial := Config.serial, state := 3, present := true } else tget {} s.ring.table i
    [⟨16 * i, 0, 64, x.serial⟩, ⟨16 * i + 8, 0, 6, x.position⟩, ⟨16 * i + 9, 0, 3, x.state⟩, ⟨16 * i + 9, 7, 1, b2n x.present⟩]))

def ringStatusSpec : CmdSpec :=
  { opcode := 0x0A02
    read := true
    data := fun r _ => resultAt r 24 (if r.b 16 0 then 1024 else 64)
    refuse := fun r w _ => [(r.b 16 1 && w ≠ 1, .rights)]
    act := fun r s =>
      let f := if s.isWorker then (0, s) else s.free
      let rec_ := s.ringRecord (f.1 % 16)
      let s := f.2
      let s := if r.b 16 0 then s.writeResult r (r.u 24 0 64) 1024 s.ringTable else s.writeResult r (r.u 24 0 64) 64 rec_
      if r.b 16 1 then
        { st := s.modRing (fun x => { x with
            east := { x.east with crc := {} }, west := { x.west with crc := {} }, downCnt := {}, rerouteCnt := {}, resendCnt := {} }) }
      else { st := s } }

/-- RING_STATUS (R455). -/
def execRingStatus (r : Req) (s : State) : Host.Outcome State Fault Refusal := .next (ringStatusSpec.run r s)

/-- RING_BYPASS: the manager moves the traffic, then the node named closes its bypass (R456, log 59). -/
def ringBypassSpec : CmdSpec :=
  { opcode := 0x0A03
    names := fun _ => [nNode 7]
    opLogged := fun _ _ => true
    node := .argument
    refuse := fun r w s =>
      let op := r.u 16 0 2
      let n := r.u 4 0 6
      [(op = 3 || (op = 2 && !s.isWorker && !s.ring.nodesInOrder.contains (r.u 17 0 6)), .badParam), needs w 1, (r.fn ≠ 0, .rights),
       (s.isAlone || (op = 0 && n = 0), .combination), (!s.isWorker && s.moving, .busy)]
    act := fun r s =>
      let n := r.u 4 0 6
      if s.isWorker then { st := if r.u 16 0 2 = 0 then (s.finish r .ok 0).leaveRing else s.finish r .ok 0, late := true }
      else
        let op : CmdSpec := { opcode := 0x0A03, refuse := fun _ _ _ => [], act := fun _ s => { st := s } }
        match r.u 16 0 2 with
        | 0 => { st := (s.startOp op 0 r 0 0).startMove (n, n) (.takeOut n), late := true }
        | 1 =>
          let x : RingNode := tget {} s.ring.table n
          { st := s.modRing (fun y => { y with
              table := tset y.table n { x with takenOut := false }
              offersDue := if x.present then y.offersDue else y.offersDue ++ [y.beforeLost x] }) }
        | _ => { st := (s.startOp op 0 r 0 0).modRing (fun x => { x with offersDue := r.u 17 0 6 :: x.offersDue }), late := true } }

/-- RING_BYPASS (R456). -/
def execRingBypass (r : Req) (s : State) : Host.Outcome State Fault Refusal := .next (ringBypassSpec.run r s)

def ringTriggerSpec : CmdSpec :=
  { opcode := 0x0A04
    refuse := fun r _ s =>
      let t := r.u 24 0 64
      [(15 < r.u 16 0 8 || t < s.now || s.now + 10000000000 < t, .badParam), (s.isAlone, .combination)]
    act := fun r s =>
      let c := r.u 16 0 4
      let t := r.u 24 0 64
      { st := (s.sendFrame { type := .trigger, dst := none, aux := c, body := t }).sendTriggers 5 (64 * t) (fun _ q => q.trigArg % 16 = c) } }

/-- RING_TRIGGER (R457). -/
def execRingTrigger (r : Req) (s : State) : Host.Outcome State Fault Refusal := .next (ringTriggerSpec.run r s)

end Sys2Proof.Machine
end

