-- ==== Sys2Proof/Machine/Ageing.lean ====
section
/-! DEFINITION. The margin plan: gauge readings, hourly means, re-plans, lane fallbacks and the ageing commands (R569 to R588). -/

set_option Elab.async false

namespace Sys2Proof.Machine

/-! ### Readings (R570) -/

/-- The reading period of a gauge in ns; gauges 8 to 10 have none. -/
def gaugePeriod (i : Nat) : Option Nat :=
  if i < 8 then some 10000000000
  else if i < 11 then none
  else if i < 14 then some 60000000000
  else some 86400000000000

/-- A gauge can be read: its die is kindled and not fenced, and the lanes of gauges 11 to 13 are up. -/
def State.gaugeUp (s : State) (d i : Nat) : Bool :=
  !s.node.inReset && (tget {} s.node.kindle d).kindled && !s.dieFenced d && gaugeThere d i
  && (if i = 11 then s.ring.east.link = 2 && !s.isAlone
      else if i = 12 then s.ring.west.link = 2 && !s.isAlone
      else i ≠ 13 || s.host.linkUp)

/-- GAUGE_READ: the timer of a gauge fires and its measure is the operand: a delay in fs for gauges 0 to 7, a margin in 0.01 % for the
others. -/
def execGaugeRead (d i : Nat) (value : Int) (s : State) : Host.Outcome State Fault Refusal :=
  if s.node.dies ≤ d then .fault (.absentUnit "die" d)
  else match gaugePeriod i with
    | none => .next s
    | some p =>
      let due := match ((s.dieAge d).gauge i).lastRead with
        | none => true
        | some t => decide (t + p ≤ s.now)
      if s.gaugeUp d i && due then .next (s.gaugeUpdate d i value) else .next s

/-- The hour of one gauge: the mean of its readings, or its latest reading where the hour brought none (log 64). -/
def Gauge.hourly (g : Gauge) : Gauge :=
  if !g.read then g
  else
    let m := if g.count = 0 then g.raw else g.sum / (g.count : Int)
    { g with hours := (m :: g.hours).take 1024, sum := 0, count := 0, sinceRate := g.sinceRate + 1 }

/-- HOURLY_MEAN: an operating hour has passed; the means of every gauge of an unfenced die are kept (R570, R582). -/
def execHourlyMean (s : State) : Host.Outcome State Fault Refusal :=
  let h := s.opSeconds / 3600
  if s.node.inReset || h ≤ s.age.lastHour then .next s
  else
    let dies := s.age.dies.map (fun e =>
      if s.dieFenced e.1 then e else (e.1, { e.2 with gauges := e.2.gauges.map (fun g => (g.1, g.2.hourly)) }))
    .next { s with age := { s.age with dies := dies, lastHour := h, saved := s.opSeconds } }

/-! ### A re-plan (R573 to R581) -/

def State.startReplan (s : State) (trigger : Nat) (req : Option Req) : State :=
  { s with age := { s.age with
    replan := some { start := s.now, trigger := trigger, req := req, snapshot := s.age.dies } } }

/-- SCHEDULED_REPLAN: 3,600,000 s of operating time since the later of the last power-up and the last re-plan (R573). -/
def execScheduledReplan (s : State) : Host.Outcome State Fault Refusal :=
  if s.node.inReset || !s.node.ready || s.faults.fatal || s.age.replan.isSome || s.opSeconds < s.age.since + 3600000 then .next s
  else .next (s.startReplan 0 none)

/-- The step of gauges 0 to 6 set. -/
def State.setGaugeStep (s : State) (d i step : Nat) : State :=
  if i < 4 then s.modAge d (fun a => { a with groupStep := tset a.groupStep i step })
  else if i = 4 then { s with node := { s.node with stoveStep := tset s.node.stoveStep d step } }
  else if i = 5 then { s with node := { s.node with engineStep := tset s.node.engineStep d step } }
  else s.modAge d (fun a => { a with fabricStep := step })

/-- The pending mark of gauges 4 to 6 set. -/
def State.setGaugePend (s : State) (d i : Nat) (v : Bool) : State :=
  s.modAge d (fun a =>
    if i = 4 then { a with stovePend := v }
    else if i = 5 then { a with filtPend := v }
    else if i = 6 then { a with fabricPend := v }
    else a)

/-- The committed configuration fails at the step one lower than that of gauge i (R202, R294, R47). -/
def State.lowerBad (s : State) (d i : Nat) : Bool :=
  let low := s.gaugeStep d i - 1
  if i = 4 then s.stovesBad d low
  else if i = 5 then s.engineBadAt d low
  else i = 6 && (s.setGaugePend d 6 true).flueBad

/-- R575 for one gauge of a die: the snapshot's reading g, at the step in force. -/
def State.planStep (s : State) (d i : Nat) (g : Gauge) : State :=
  let step := s.gaugeStep d i
  let s := s.setGaugePend d i false
  if !g.read then s
  else if stepMargin i g.raw step < 800 then
    if step ≤ gaugeFloor i then s
    else if s.lowerBad d i then s.setGaugePend d i true
    else s.setGaugeStep d i (step - 1)
  else if step < 7 && 1500 ≤ stepMargin i g.raw (step + 1) then s.setGaugeStep d i (step + 1)
  else s

/-- R576 and the mark of R577 for a die. -/
def State.planBt (s : State) (d : Nat) (g : Gauge) : State :=
  let bt := (s.dieAge d).bt
  let low : Bool := g.read && decide (btMargin g.raw bt < 1000)
  let bt' := if !g.read || bt = 3 then bt
    else if low then min 2 (bt + 1)
    else if bt ≠ 0 && 1500 ≤ btMargin g.raw (bt - 1) then bt - 1
    else bt
  s.modAge d (fun a => { a with bt := bt', deratePend := low && bt = 2 })

/-- R578 and R581 for a die: the interval for its groups, from the worst core's drift in nV per hour. -/
def State.planRoll (s : State) (d : Nat) (a : DieAge) : State :=
  let r := a.drift.foldl (fun m e => max m e.2) 0
  let g := a.gauge 8
  let roll := if g.read && g.margin < 5000 && r ≠ 0 then max 30 (5400000 / r / 10 * 10) else 0
  let row := (a.gauge 9).read && decide ((a.gauge 9).margin < 2500)
  s.modAge d (fun x => { x with
    roll := (List.range 4).foldl (fun t i => tset t i roll) x.roll, rowAdvised := row })

/-- The lane fallback of a port, gauge 11 EAST or 12 WEST of die 0 (R579): asked for, held pending, or neither; true where this node's
plan changes the lane rate. -/
def State.planLane (s : State) (east : Bool) (a : DieAge) : State × Bool :=
  let g := a.gauge (if east then 11 else 12)
  let port := if east then 0 else 1
  let setPend := fun (s : State) (v : Bool) =>
    if east then { s with age := { s.age with pendE := v } } else { s with age := { s.age with pendW := v } }
  if s.isAlone || (s.ring.port east).rate || !g.read || 5000 ≤ g.margin then (setPend s false, false)
  else if (s.modPort east (fun p => { p with rate := true })).ringBad then (setPend s true, false)
  else if s.isManager then
    let link := s.ring.linkAt 0 east
    if s.ring.view = 0 || s.ring.blocked link then (setPend s true, false)
    else
      let why := PlanWhy.rate 0 (if east then some true else none) (if east then none else some true) true
      let s := (setPend s false).startMove link why
      ({ s with age := { s.age with moves := tset s.age.moves port (s.now + 1000000000) } }, true)
  else if s.ring.bypassClosed || s.ring.state ≠ .locked then (setPend s true, false)
  else ((setPend s false).sendAcked .event 0 (mkRec [⟨16, 0, 32, port⟩]), false)

/-- After the plan: the margins, marks and alarms of a gauge at the steps now in force, and its summary point (R570, R571). -/
def State.replanGauge (s : State) (d i : Nat) : State :=
  let g := (s.dieAge d).gauge i
  if !g.read then s
  else
    let m := s.gaugeMargin d i g.raw
    let ex := s.exhausted d i m
    let s := s.modAge d (fun a => { a with
      gauges := tmod {} a.gauges i (fun g => { g with
        margin := m, warn := decide (m < (gaugeLimits i).1), alarm := ex, points := (m :: g.points).take 64 }) })
    if ex && !g.alarm then s.report 0x2C d i else s

/-- What a plan may change of a die: steps, BT, marks, intervals. -/
def State.planEntry (s : State) (d : Nat) : List Nat :=
  let a := s.dieAge d
  (List.range 7).map (fun i => s.gaugeStep d i)
  ++ [a.bt, b2n a.deratePend, b2n a.filtPend, b2n a.stovePend, b2n a.fabricPend]
  ++ (List.range 4).map (fun i => tget 0 a.roll i)

/-- The number of places where two lists differ. -/
def diffCount (l m : List Nat) : Nat := ((l.zip m).filter (fun e => e.1 ≠ e.2)).length

/-- The dies a plan is for. -/
def State.plannedDies (s : State) : List Nat := (List.range s.node.dies).filter (fun d => !s.dieFenced d)

/-- Steps and bit times of the dies, then intervals, then lane rates, each against the state the earlier ones leave (R574). -/
def State.planActions (s : State) (snap : Tab DieAge) : State × Nat :=
  let across := fun (s : State) (f : State → Nat → DieAge → State) => s.plannedDies.foldl (fun s d => f s d (tget {} snap d)) s
  let s1 := across s (fun s d a => (List.range 7).foldl (fun s i => s.planStep d i (a.gauge i)) s)
  let s1 := across s1 (fun s d a => s.planBt d (a.gauge 7))
  let s1 := across s1 (fun s d a => s.planRoll d a)
  let n := s.plannedDies.foldl (fun n d => n + diffCount (s.planEntry d) (s1.planEntry d)) 0
  if s.dieFenced 0 then (s1, n)
  else
    let e := s1.planLane true (tget {} snap 0)
    let w := e.1.planLane false (tget {} snap 0)
    (w.1, n + b2n e.2 + b2n w.2 + b2n (s.age.pendE != w.1.age.pendE) + b2n (s.age.pendW != w.1.age.pendW))

/-- The smallest hours left of any gauge, with its die and gauge (R583). -/
def State.worstGauge (s : State) : Nat × Nat × Nat :=
  s.plannedDies.foldl (fun w d =>
    (List.range 16).foldl (fun (w : Nat × Nat × Nat) i =>
      let h := s.hoursLeft d i
      if gaugeThere d i && h < w.1 then (h, d, i) else w) w) (0xFFFFFFFF, 0, 0)

/-- The plan is drawn up, in effect and recorded (R574 to R582). -/
def State.replanned (s : State) (p : Replan) : State :=
  let x := s.planActions p.snapshot
  let changed := x.2
  let s := x.1
  let s := s.plannedDies.foldl (fun s d => (List.range 16).foldl (fun s i => s.replanGauge d i) s) s
  let s := (List.range s.node.dies).foldl (fun (s : State) d => s.modAge d (fun a => { a with valid := !s.dieFenced d })) s
  let w := s.worstGauge
  let s : State := { s with age := { s.age with
    planSeq := satInc 32 s.age.planSeq, trigger := p.trigger, changed := changed, time := s.stamp, since := s.opSeconds, saved := s.opSeconds,
    worst := w.1, worstDie := w.2.1, worstGauge := w.2.2, replan := none, fresh := false } }
  let seq := s.age.planSeq
  let s := if changed = 0 then s
    else if 4080 ≤ s.clogUsed then { s with trust := { s.trust with unlogged := satInc 32 s.trust.unlogged } }
    else s.stageDevice 0xFF04 (seq % 2 ^ 32 + changed % 256 * 2 ^ 32)
  let marked := fun (d : Nat) =>
    let a := s.dieAge d
    a.deratePend || a.filtPend || a.stovePend || a.fabricPend
  let s := s.raise 0x0E03 15 seq (changed % 256 + maskOf 8 marked * 256 + b2n (s.age.pendE || s.age.pendW) * 65536)
  match p.req with
  | some r => s.finish r .ok (seq % 2 ^ 32 + changed % 256 * 2 ^ 32)
  | none => s

/-- REPLAN_DONE: event 7 of R574. With FATAL latched no plan comes of it (R584). -/
def execReplanDone (s : State) : Host.Outcome State Fault Refusal :=
  match s.age.replan with
  | none => .next s
  | some p =>
    if s.node.inReset then .next s
    else if s.faults.fatal then
      let s : State := { s with age := { s.age with replan := none } }
      .next (match p.req with
        | some r => s.finish r .fenced 0
        | none => s)
    else .next (s.replanned p)

/-- FALLBACK_MOVE_TIMEOUT: the planned move of a lane fallback has not ended within 1 s (R579). -/
def execFallbackMoveTimeout (s : State) : Host.Outcome State Fault Refusal :=
  if s.node.inReset || s.age.moves.all (fun m => s.now < m.2) then .next s
  else
    let mine := fun (y : PlanWhy) => match y with
      | .rate _ _ _ true => true
      | _ => false
    let s := s.dropFallback
    .next { s with ring := { s.ring with
      movesDue := s.ring.movesDue.filter (fun m => !mine m.2)
      plan := match s.ring.plan with
        | some p => if mine p.why then none else some p
        | none => none } }

/-- A worker asks the manager for a lane fallback of its port (R579); one that the committed streams cannot bear is left until the worker
asks again at its next re-plan (R50, log 64). -/
def State.workerFallback (s : State) (src port : Nat) : State :=
  let east : Bool := port = 0
  let slow := s.noteRate src (if east then some true else none) (if east then none else some true)
  if slow.ringBad || s.ring.slowAt src east then s else
  let s := s.startMove (s.ring.linkAt src east) (.rate src (if east then some true else none) (if east then none else some true) true)
  s.stageDevice 0xFF04 (s.age.planSeq % 2 ^ 32 + 2 ^ 32)

/-! ### Commands (R585 to R587) -/

def fromPf (r : Req) : Bool × Status := (r.fn ≠ 0, .rights)

def ageReplanSpec : CmdSpec :=
  { opcode := 0x0E02
    names := fun _ => [nNode 8]
    refuse := fun r w s => [needs w 1, fromPf r, (s.age.replan.isSome || !s.node.ready, .busy)]
    act := fun r s => { st := s.startReplan 1 (some r), late := true } }

/-- AGE_REPLAN (R586): ends with the re-plan. -/
def execAgeReplan (r : Req) (s : State) : Host.Outcome State Fault Refusal := .next (ageReplanSpec.run r s)

/-- The snapshot of a die (R587). -/
def State.ageRecord (s : State) (d : Nat) : Nat :=
  let a := s.dieAge d
  mkRec ([⟨0, 0, 3, d⟩, ⟨0, 3, 1, b2n (!s.dieFenced d)⟩, ⟨2, 0, 16, maskOf 16 (fun i => gaugeThere d i)⟩,
    ⟨4, 0, 16, maskOf 16 (fun i => (a.gauge i).warn)⟩, ⟨6, 0, 16, maskOf 16 (fun i => (a.gauge i).alarm)⟩, ⟨8, 0, 64, a.lastSample⟩]
    ++ (List.range 16).map (fun i => ⟨16 + 2 * i, 0, 16, if gaugeThere d i then toU 16 (a.gauge i).margin else 0⟩)
    ++ (List.range 16).map (fun i => ⟨64 + 4 * i, 0, 32, s.hoursLeft d i⟩))

def ageStatusSpec : CmdSpec :=
  { opcode := 0x0E03
    names := fun r => [nDie (r.u 16 0 3)]
    read := true
    data := fun r _ => resultAt r 24 128
    refuse := fun r _ s => [(s.node.dies ≤ r.u 16 0 3, .badParam), fromPf r]
    act := fun r s => reply s r 24 128 (s.ageRecord (r.u 16 0 3)) }

/-- AGE_STATUS (R587). -/
def execAgeStatus (r : Req) (s : State) : Host.Outcome State Fault Refusal := .next (ageStatusSpec.run r s)

/-- The entry of a die in the plan record (R583). -/
def State.planDie (s : State) (d : Nat) : List Fld :=
  let a := s.dieAge d
  let o := 64 + 16 * d
  if s.node.dies ≤ d then []
  else
    (List.range 4).map (fun g => ⟨o, 3 * g, 3, a.step g⟩)
    ++ [⟨o, 12, 3, s.gaugeStep d 4⟩, ⟨o, 15, 3, s.gaugeStep d 5⟩, ⟨o, 18, 3, a.fabricStep⟩, ⟨o, 21, 2, a.bt⟩,
      ⟨o, 23, 1, b2n (s.node.derated.contains d)⟩, ⟨o, 24, 1, b2n a.deratePend⟩, ⟨o, 25, 1, b2n a.filtPend⟩,
      ⟨o, 26, 1, b2n a.stovePend⟩, ⟨o, 27, 1, b2n a.fabricPend⟩, ⟨o, 28, 1, b2n a.rowAdvised⟩,
      ⟨o, 29, 1, b2n (a.valid && !s.dieFenced d)⟩,
      ⟨o + 4, 0, 16, maskOf 16 (fun i => (a.gauge i).alarm)⟩, ⟨o + 6, 0, 16, maskOf 16 (fun i => (a.gauge i).warn)⟩]
    ++ (List.range 4).map (fun g => ⟨o + 8 + 2 * g, 0, 16, tget 0 a.roll g⟩)

/-- The plan record (R583). -/
def State.planRecord (s : State) : Nat :=
  let a := s.age
  mkRec ([⟨0, 0, 32, a.planSeq⟩, ⟨4, 0, 2, a.trigger⟩, ⟨5, 0, 8, a.changed⟩, ⟨8, 0, 64, a.time⟩, ⟨16, 0, 32, s.opSeconds / 3600⟩,
    ⟨20, 0, 32, (a.since + 3600000) / 3600⟩, ⟨24, 0, 1, b2n s.ring.east.rate⟩, ⟨24, 1, 1, b2n s.ring.west.rate⟩,
    ⟨24, 2, 1, b2n a.pendE⟩, ⟨24, 3, 1, b2n a.pendW⟩, ⟨28, 0, 32, a.worst⟩, ⟨32, 0, 3, a.worstDie⟩, ⟨32, 4, 4, a.worstGauge⟩]
    ++ (List.range 8).flatMap (fun d => s.planDie d))

def agePlanReadSpec : CmdSpec :=
  { opcode := 0x0E04
    read := true
    data := fun r _ => resultAt r 24 192
    refuse := fun r _ _ => [fromPf r]
    act := fun r s => reply s r 24 192 s.planRecord }

/-- AGE_PLAN_READ (R583). -/
def execAgePlanRead (r : Req) (s : State) : Host.Outcome State Fault Refusal := .next (agePlanReadSpec.run r s)

/-- The conversion rate of a die changes: its tiles' blocks close, their contexts start afresh, and their sequencers go on at the new
edges (R577, R222, R225). -/
def State.changeRate (s : State) (d : Nat) (on : Bool) : State :=
  let tiles := (dieTiles d).filter (fun n => (s.tile n).converting)
  let rests := tiles.map (fun n => (n, s.seqRest n))
  let s := tiles.foldl (fun s n => (s.closeTile n (fun _ => true)).modTile n (·.freshAll)) s
  let s : State := { s with node := { s.node with
    derated := if on then d :: s.node.derated.filter (· ≠ d) else s.node.derated.filter (· ≠ d) } }
  let s := s.modAge d (fun a => { a with bt := if on then 3 else 2, deratePend := a.deratePend && !on })
  rests.foldl (fun s x => s.seqRespace x.1 x.2) s

def ageApplySpec : CmdSpec :=
  { opcode := 0x0E05
    opLogged := fun _ _ => true
    names := fun r => [nDie (r.u 16 0 3)]
    refuse := fun r w s =>
      let d := r.u 16 0 3
      let restore := r.b 17 0
      let g := (s.dieAge d).gauge 7
      [(s.node.dies ≤ d || (!restore && !(s.dieAge d).deratePend)
          || (restore && (!g.read || btMargin g.raw 2 < 1500)), .badParam),
       needs w 1, fromPf r, (s.dieFenced d || s.faults.fatal, .fenced),
       ((dieTiles d).any (fun n => s.intact (s.chain1Holder n)), .sealed),
       ((List.range 8).any (fun i => (s.pair (8 * d + i)).state = PairState.running)
          || (dieTiles d).any (fun n => (s.tile n).force.mode = .forceSense), .combination),
       ((List.range s.node.dies).any (fun k => (s.changeRate d (!restore)).stovesBad k (s.stoveStep k)), .budget)]
    act := fun r s =>
      let d := r.u 16 0 3
      { st := if r.b 17 0 && !s.node.derated.contains d then s else s.changeRate d (!r.b 17 0) } }

/-- AGE_APPLY (R577, R586). -/
def execAgeApply (r : Req) (s : State) : Host.Outcome State Fault Refusal := .next (ageApplySpec.run r s)

end Sys2Proof.Machine
end

