-- ==== Sys2Proof/Machine/Hearths.lean ====
section
/-! DEFINITION. Hearths, roles and the change log: sessions and their lockouts, layout, grants, shares, seals, and the commands that
read and archive the change log (R458 to R491). -/

set_option Elab.async false

namespace Sys2Proof.Machine

def State.modRoles (s : State) (f : Roles → Roles) : State := { s with roles := f s.roles }
def State.modTrust (s : State) (f : Trust → Trust) : State := { s with trust := f s.trust }

/-! ### Lockouts (R471, R472) -/

/-- Nanoseconds left of a lockout. -/
def Lockout.left (l : Lockout) (now : Nat) : Nat :=
  match l.until_ with
  | some t => t - now
  | none => 0
def Lockout.locked (l : Lockout) (now : Nat) : Bool :=
  match l.until_ with
  | some t => decide (now < t)
  | none => false

/-- One more failure of a role, counted from zero after a lockout that has ended: the fifth in a row starts a lockout of `secs`; the
counter record is written. -/
def Lockout.fail (l : Lockout) (now secs : Nat) : Lockout :=
  let n := (if l.until_.isSome then 0 else l.fails) + 1
  if 5 ≤ n then { fails := n, leftAtWrite := secs * 1000000000, until_ := some (now + secs * 1000000000) }
  else { fails := n, leftAtWrite := 0, until_ := none }

/-- A failure of a role enters the event log and raises ROLE_LOCKOUT to the PF (R471, R624). -/
def State.sessionFail (s : State) (role : Nat) (l : Lockout) : State :=
  let det := l.fails + 256 * b2n l.until_.isSome + l.left s.now / 1000000000 * 2 ^ 32
  (s.logEv 0x0D21 15 role det).raise 0x0B01 15 role det

/-- LOCKOUT_END: a lockout ends, and the failure count returns to zero. -/
def execLockoutEnd (s : State) : Host.Outcome State Fault Refusal :=
  let go := fun (l : Lockout) => match l.until_ with
    | some t => if t ≤ s.now then ({} : Lockout) else l
    | none => l
  .next (if s.node.inReset then s else s.modRoles (fun r => { r with instLock := go r.instLock, makerLock := go r.makerLock }))

/-- LOCKOUT_RECORD_WRITE: the counter record is written with the time left. -/
def execLockoutRecordWrite (s : State) : Host.Outcome State Fault Refusal :=
  let go := fun (l : Lockout) => { l with leftAtWrite := l.left s.now }
  .next (if s.node.inReset then s else s.modRoles (fun r => { r with instLock := go r.instLock, makerLock := go r.makerLock }))

/-- SESSION_TIMEOUT: a session has carried no command for 900 s (R467). -/
def execSessionTimeout (s : State) : Host.Outcome State Fault Refusal :=
  let keep := fun (x : Option Session) => x.filter (fun y => decide (s.now < y.lastUse + 900000000000))
  .next (s.modRoles (fun r => { r with installer := keep r.installer, maker := keep r.maker }))

/-! ### Sessions and secrets (R466 to R472, R485 to R487) -/

/-- The first n bytes of a field of an entry. -/
def Req.bytesAt (r : Req) (off n : Nat) : List Byte := leBytes (r.u off 0 (8 * n)) n

/-- A password of the wrong length, or with a character outside 0x20 to 0x7E (R469). -/
def passwordBad (r : Req) (zeroOk : Bool) : Bool :=
  let n := r.u 17 0 6
  !((zeroOk && n = 0) || (8 ≤ n && n ≤ 32)) || (Req.bytesAt r 24 n).any (fun c => c.toNat < 0x20 || 0x7E < c.toNat)

/-- The digest of a salt and a password (R469). -/
def passwordDigest (salt : Nat) (pw : List Byte) : Nat := leNat (sha256 (leBytes salt 16 ++ pw))

/-- The password of a SESSION_OPEN is wrong; while none is set nothing is compared (R470, R471). -/
def State.wrongPassword (s : State) (r : Req) : Bool :=
  match s.trust.password with
  | some (salt, d) => passwordDigest salt (Req.bytesAt r 24 (r.u 17 0 6)) ≠ d
  | none => false

/-- The challenge that a maker SESSION_OPEN answers: outstanding, not expired, of the identity named (R472). -/
def State.challengeFor (s : State) (r : Req) : Option Challenge :=
  s.roles.challenge.filter (fun c => c.id = r.u 20 0 32 && decide (s.now < c.expires))

/-- The response to a challenge: the first 16 B of the HMAC over record bytes 0 to 39 under the maker key (R472). -/
def makerResponse (c : Challenge) : List Byte :=
  (hmacSha256 (leBytes Config.makerKey 32) (leBytes c.record 40)).take 16

def State.wrongResponse (s : State) (r : Req) : Bool :=
  match s.challengeFor r with
  | some c => Req.bytesAt r 24 16 ≠ makerResponse c
  | none => false

/-- The secret was checked and found wrong: neither a lockout nor a field in the way (R471, R472). -/
def State.openFails (s : State) (r : Req) : Bool :=
  if r.u 16 0 2 = 1 then !s.roles.instLock.locked s.now && s.wrongPassword r
  else !s.roles.makerLock.locked s.now && r.fn = 0 && s.wrongResponse r

def sessionOpenSpec : CmdSpec :=
  { opcode := 0x0B01
    names := fun _ => [nNode 0]
    fatalOk := true
    opLogged := fun _ _ => true
    node := .zeroOnly
    refuse := fun r _ s =>
      let inst := r.u 16 0 2 = 1
      let maker := r.u 16 0 2 = 2
      [(!inst && !maker, .badParam), (inst && passwordBad r true, .badParam), (inst && s.faults.fatal, .fenced),
       (inst && s.roles.instLock.locked s.now, .rights), (maker && s.roles.makerLock.locked s.now, .rights),
       (inst && s.trust.password.isNone && (r.fn ≠ 0 || r.u 17 0 6 ≠ 0), .rights), (s.openFails r, .rights),
       (maker && (r.fn ≠ 0 || (s.challengeFor r).isNone), .combination),
       (inst && s.roles.installer.isSome, .busy), (maker && s.roles.maker.isSome, .busy)]
    refused := fun r x s =>
      if x ≠ .rights || r.u 5 0 4 ≠ hearthOfFn r.fn || (s.who r).isNone || !s.openFails r then s
      else if r.u 16 0 2 = 1 then
        let l := s.roles.instLock.fail s.now 600
        (s.modRoles (fun x => { x with instLock := l })).sessionFail 1 l
      else
        let l := s.roles.makerLock.fail s.now 3600
        (s.modRoles (fun x => { x with makerLock := l, challenge := none })).sessionFail 2 l
    act := fun r s =>
      let f := s.free
      let s := f.2
      let inst := r.u 16 0 2 = 1
      let other := (if inst then s.roles.maker else s.roles.installer).map (fun x => x.handle)
      let h := 1 + f.1 % (2 ^ 32 - 1)
      let h := if other = some h then 1 + h % (2 ^ 32 - 1) else h
      let n := nextSession s.roles.sessionSeq
      let x : Session := { handle := h, fn := r.fn, lastUse := s.now, serial := n, noPassword := s.trust.password.isNone && inst }
      let s := s.modRoles (fun y => { y with sessionSeq := n })
      let s := if inst then s.modRoles (fun y => { y with installer := some x, instLock := {} })
        else s.modRoles (fun y => { y with maker := some x, makerLock := {}, challenge := none })
      { st := s, result := h } }

/-- SESSION_OPEN (R485). -/
def execSessionOpen (r : Req) (s : State) : Host.Outcome State Fault Refusal := .next (sessionOpenSpec.run r s)

def sessionCloseSpec : CmdSpec :=
  { opcode := 0x0B02
    names := fun _ => [nNode 0]
    fatalOk := true
    node := .zeroOnly
    refuse := fun r _ _ => [(r.u 8 0 32 = 0, .rights)]
    act := fun r s =>
      let keep := fun (x : Option Session) => x.filter (fun y => y.handle ≠ r.u 8 0 32)
      { st := s.modRoles (fun y => { y with installer := keep y.installer, maker := keep y.maker }) } }

/-- SESSION_CLOSE (R486). -/
def execSessionClose (r : Req) (s : State) : Host.Outcome State Fault Refusal := .next (sessionCloseSpec.run r s)

def rolePasswordSpec : CmdSpec :=
  { opcode := 0x0B03
    names := fun _ => [nNode 0]
    opLogged := fun _ _ => true
    refuse := fun r w _ =>
      let clear := r.b 16 0
      [(!clear && passwordBad r false, .badParam), needs w (if clear then 2 else 1)]
    act := fun r s =>
      if r.b 16 0 then
        { st := (s.modTrust (fun t => { t with password := none })).modRoles (fun x => { x with installer := none }) }
      else
        let f := s.free
        let salt := f.1 % 2 ^ 128
        { st := f.2.modTrust (fun t => { t with password := some (salt, passwordDigest salt (Req.bytesAt r 24 (r.u 17 0 6))) }) } }

/-- ROLE_PASSWORD (R486). -/
def execRolePassword (r : Req) (s : State) : Host.Outcome State Fault Refusal := .next (rolePasswordSpec.run r s)

def makerChallengeSpec : CmdSpec :=
  { opcode := 0x0B04
    names := fun _ => [nNode 0]
    fatalOk := true
    data := fun r _ => resultAt r 24 64
    refuse := fun r _ _ => [(r.fn ≠ 0, .rights)]
    act := fun r s =>
      let f := s.free
      let s := f.2
      let id := satInc 32 s.roles.challengeId
      let end_ := s.now + 600000000000
      let v := mkRec [⟨0, 0, 128, f.1⟩, ⟨16, 0, 32, id⟩, ⟨20, 0, 32, s.node.bootCnt⟩, ⟨24, 0, 64, Config.serial⟩, ⟨32, 0, 64, end_⟩]
      let s := s.modRoles (fun x => { x with challengeId := id, challenge := some { record := v, id := id, expires := end_ } })
      reply s r 24 64 v }

/-- MAKER_CHALLENGE (R487). -/
def execMakerChallenge (r : Req) (s : State) : Host.Outcome State Fault Refusal := .next (makerChallengeSpec.run r s)

/-! ### Layout (R458 to R462, R488) -/


/-- The tiles a HEARTH_ASSIGN names; the stoves. -/
def assignTiles (r : Req) : List Nat := ((List.range 64).filter (fun i => r.b (24 + i / 8) (i % 8))).map (fun i => 64 * r.u 18 0 8 + i)
def assignStoves (r : Req) : List Nat := (List.range 64).filter (fun i => r.b (24 + i / 8) (i % 8))

/-- The layout after a HEARTH_ASSIGN: a tile that leaves takes no force port along (R462, R488). -/
def Trust.assign (t : Trust) (r : Req) : Trust :=
  let h := r.u 16 0 4
  match r.u 17 0 2 with
  | 0 =>
    let l := assignTiles r
    let moved := l.filter (fun n => tget 0 t.tileOwner n ≠ h)
    { t with
      tileOwner := l.foldl (fun a n => tset a n h) t.tileOwner
      forcePorts := t.forcePorts.filter (fun n => !moved.contains n) }
  | 1 =>
    let first := 64 * r.u 18 0 8
    let own := fun n => decide (first ≤ n) && decide (n < first + 64) && decide (tget 0 t.tileOwner n = h)
    { t with forcePorts := (assignTiles r).foldl (fun a n => insertSorted n a) (t.forcePorts.filter (fun n => !own n)) }
  | 2 => { t with stoveOwner := (assignStoves r).foldl (fun a n => tset a n h) t.stoveOwner }
  | _ =>
    let f := fnOfHearth h
    { t with qids := if r.u 28 0 19 = 0 then terase t.qids f else tset t.qids f (r.u 24 0 18, r.u 28 0 19) }

/-- A pair reads a chain of tile n. -/
def State.pairReads (s : State) (n : Nat) : Bool :=
  s.pairTab.any (fun e => e.2.state ≠ PairState.unconfigured && (e.2.vTile = n || e.2.iTile = n))

/-- The hearths of both ends of every link that touches a tile or stove picked (R461), under the layout t. The end on another node belongs to
the hearth that holds the end here before the move, since links are made within one hearth (R277, R461). -/
def State.linksOf (s : State) (t : Trust) (tile stove : Nat → Bool) : List (Nat × Nat) :=
  let owner := fun n => tget 0 t.tileOwner n
  let holder := fun k => if keyKind k = 1 then tget (owner (keyTile k)) t.grants (keyTile k) else owner (keyTile k)
  let so := fun v => tget 0 t.stoveOwner v
  let qid := fun q => ((t.qids.find? (fun e => e.2.1 ≤ q && q < e.2.1 + e.2.2)).map (fun e => e.1)).getD 99
  let ofStoves := s.stoveTab.flatMap (fun e =>
    let v := e.1
    e.2.ports.filterMap (fun p => match p.2.bound with
      | some k =>
        if keyNode k ≠ s.ring.nodeNo then (if stove v then some (so v, s.stoveOwner v) else none)
        else if stove v || tile (keyTile k) then some (so v, holder k) else none
      | none => none)
    ++ e.2.forceBind.filterMap (fun b => if stove v || tile b.2.2 then some (so v, owner b.2.2) else none)
    ++ (if stove v && !s.isWorker then e.2.recBind.map (fun b => (so v, qid b.2.qid - 1)) else []))
  let ofTiles := s.tiles.flatMap (fun e =>
    let n := e.1
    let x := e.2
    let tc := fun (c : Tc) =>
      if c.state ≠ .disabled && bitAt c.actions 1 && (tile n || stove c.stove) then [(owner n, so c.stove)] else []
    let q := x.seq
    let src := 32 * (n / 32) + q.trigArg % 32
    (if x.force.writerStove && (tile n || stove x.force.stove) then [(owner n, so x.force.stove)] else [])
    ++ tc x.tc0 ++ tc x.tc1
    ++ (if q.mode = .triggered && q.trigSrc = 3 && (tile n || stove (q.trigArg % 32)) then [(owner n, so (q.trigArg % 32))] else [])
    ++ (if q.mode = .triggered && q.trigSrc = 4 && (tile n || tile src) then [(owner n, owner src)] else [])
    ++ (if (q.active.any (fun d => dSrc d = 1)) && (tile n || tile (n ^^^ 1)) then [(owner n, owner (n ^^^ 1))] else []))
  let ofPrompts := s.ring.prompts.filterMap (fun p =>
    if keyNode p.1 = s.ring.nodeNo && tile (keyTile p.1) then some (holder p.1, s.streamHolder p.1) else none)
  ofStoves ++ ofTiles ++ ofPrompts

/-- A resource that a HEARTH_ASSIGN moves is not quiet (R461). -/
def State.assignBusy (s : State) (r : Req) : Bool :=
  let h := r.u 16 0 4
  let t := s.trust.assign r
  match r.u 17 0 2 with
  | 0 =>
    let l := (assignTiles r).filter (fun n => s.tileOwner n ≠ h)
    l.any (fun n => (s.tile n).force.mode ≠ .off || s.granted n || s.pairReads n)
    || (s.linksOf t (fun n => l.contains n) (fun _ => false)).any (fun e => e.1 ≠ e.2)
  | 1 => false
  | 2 =>
    let l := (assignStoves r).filter (fun n => s.stoveOwner n ≠ h)
    l.any (fun n =>
      let v := s.stove n
      v.state ≠ .stopped || v.laws.any (fun e => e.2.enable || e.2.disabling) || (List.range 8).any (fun k => lrState (v.loopRec k) ≠ 0))
    || (s.linksOf t (fun _ => false) (fun n => l.contains n)).any (fun e => e.1 ≠ e.2)
  | _ =>
    let old := tget (0, 0) s.trust.qids (fnOfHearth h)
    let new := tget (0, 0) t.qids (fnOfHearth h)
    let inR := fun (x : Nat × Nat) (q : Nat) => decide (x.1 ≤ q) && decide (q < x.1 + x.2)
    s.host.queues.any (fun e => e.2.live && (inR old e.1 != inR new e.1))

/-- A resource moves out of, or into, a hearth whose seal is INTACT (R484). -/
def State.assignSealed (s : State) (r : Req) : Bool :=
  let h := r.u 16 0 4
  match r.u 17 0 2 with
  | 0 => ((assignTiles r).filter (fun n => s.tileOwner n ≠ h)).any (fun n => s.intact (s.tileOwner n) || s.intact h)
  | 1 => s.intact h && (s.trust.assign r).forcePorts ≠ s.trust.forcePorts
  | 2 => ((assignStoves r).filter (fun n => s.stoveOwner n ≠ h)).any (fun n => s.intact (s.stoveOwner n) || s.intact h)
  | _ => h < 8 && s.intact h && (s.trust.assign r).qids ≠ s.trust.qids

/-- A field of a HEARTH_ASSIGN out of range, a force port not held, or a hearth without its VF (R459, R484). -/
def State.assignBad (s : State) (r : Req) : Bool :=
  let h := r.u 16 0 4
  let kind := r.u 17 0 2
  let count := r.u 28 0 19
  let gives := if kind = 3 then decide (count ≠ 0) else decide (r.u 24 0 64 ≠ 0)
  (8 ≤ h && !(h = 15 && kind = 3)) || (h < 8 && gives && !s.mayHold h)
  || (kind ≤ 1 && (assignTiles r).any (fun n => decide (s.nTiles ≤ n)))
  || (kind = 1 && (assignTiles r).any (fun n => decide (s.tileOwner n ≠ h)))
  || (kind = 2 && (assignStoves r).any (fun n => decide (s.nStoves ≤ n)))
  || (kind = 3 && (s.isWorker || (count ≠ 0 && (r.u 24 0 18 < 18 || 262144 < r.u 24 0 18 + count))))

/-- The new QID range overlaps another function's. -/
def State.assignOverlap (s : State) (r : Req) : Bool :=
  let lo := r.u 24 0 18
  let hi := lo + r.u 28 0 19
  r.u 17 0 2 = 3 && r.u 28 0 19 ≠ 0
  && s.trust.qids.any (fun e => e.1 ≠ fnOfHearth (r.u 16 0 4) && decide (e.2.1 < hi) && decide (lo < e.2.1 + e.2.2))

/-- The bindings of a tile's streams to queues and to stoves of other nodes end (R204, R465). -/
def State.endTile (s : State) (n : Nat) : State :=
  let here := fun k => keyNode k = s.ring.nodeNo && keyTile k = n
  let s := (s.host.streams.filter (fun e => here e.1)).foldl (fun (s : State) e => (s.endShare e.1 false).endShare e.1 true) s
  { s with ring := { s.ring with prompts := s.ring.prompts.filter (fun p => !here p.1) } }

def hearthAssignSpec : CmdSpec :=
  { opcode := 0x0B05
    opLogged := fun _ _ => true
    names := fun r => match r.u 17 0 2 with
      | 0 | 1 => nNode 2 :: (assignTiles r).map nTile
      | 2 => nNode 2 :: (assignStoves r).map nStove
      | _ => [nNode 2, nNode 4]
    refuse := fun r w s =>
      [(s.assignBad r, .badParam), needs w 1, (r.fn ≠ 0, .rights), (s.assignSealed r, .sealed), (s.assignOverlap r, .combination),
       (s.assignBusy r, .busy)]
    act := fun r s =>
      let moved := if r.u 17 0 2 = 0 then (assignTiles r).filter (fun n => s.tileOwner n ≠ r.u 16 0 4) else []
      { st := (moved.foldl (fun (s : State) n => s.endTile n) s).modTrust (fun t => t.assign r) } }

/-- HEARTH_ASSIGN (R488). -/
def execHearthAssign (r : Req) (s : State) : Host.Outcome State Fault Refusal := .next (hearthAssignSpec.run r s)

def hearthSharesSpec : CmdSpec :=
  { opcode := 0x0B06
    opLogged := fun _ _ => true
    refuse := fun r w _ => [((List.range 16).any (fun i => decide (r.u (20 + i) 0 8 = 0)), .badParam), needs w 1, (r.fn ≠ 0, .rights)]
    act := fun r s => { st := s.modTrust (fun t => { t with
      pcieW := (List.range 8).map (fun k => (k, r.u (20 + k) 0 8)), ringW := (List.range 8).map (fun k => (k, r.u (28 + k) 0 8)) }) } }

/-- HEARTH_SHARES (R464, R489). -/
def execHearthShares (r : Req) (s : State) : Host.Outcome State Fault Refusal := .next (hearthSharesSpec.run r s)

/-! ### Grants (R203, R204, R463) -/

/-- The streams of chain 1 of a tile of this node. -/
def State.chain1Keys (s : State) (n : Nat) : List Nat := (List.range 32).map (fun slot => streamKey s.ring.nodeNo n slot 1 0)

/-- Something is bound to chain 1 of a tile: a queue, a stove port, a pair. -/
def State.chain1Bound (s : State) (n : Nat) : Bool :=
  (s.chain1Keys n).any (fun k => (s.stream k).sample.qid.isSome || (s.stream k).capture.qid.isSome || !(s.readers k).isEmpty
    || s.ring.prompts.any (fun p => p.1 = k)) || s.pairReads n

/-- The bindings of chain 1 of a tile end: open blocks are posted, ports and pairs lose it (R204). -/
def State.endChain1 (s : State) (n : Nat) : State :=
  let keys := s.chain1Keys n
  let s : State := keys.foldl (fun (s : State) k =>
    let s := if (s.stream k).sample.qid.isSome then s.endShare k false else s
    if (s.stream k).capture.qid.isSome then s.endShare k true else s) s
  let gone := fun (p : InPort) => match p.bound with
    | some k => keys.contains k
    | none => false
  let s := { s with stoveTab := s.stoveTab.map (fun (e : Nat × Stove) => (e.1, { e.2 with ports := e.2.ports.filter (fun p => !gone p.2) })) }
  let s := { s with ring := { s.ring with prompts := s.ring.prompts.filter (fun p => !keys.contains p.1) } }
  (List.range s.nPairs).foldl (fun (s : State) m =>
    let p := s.pair m
    if p.state ≠ .unconfigured && (p.vTile = n || p.iTile = n) then
      (s.closeWindow m true).modPair m (fun p => { p with state := .unconfigured, startPending := false })
    else s) s

def chainGrantSpec : CmdSpec :=
  { opcode := 0x0B07
    names := fun r => [nTile (r.u 16 0 16), nChain (r.u 16 0 16) 1, nNode 2]
    opLogged := fun _ _ => true
    refuse := fun r w s =>
      let n := r.u 16 0 16
      let grant := r.b 18 0
      let g := r.u 19 0 3
      [beyondTile s n, (grant && (!s.mayHold g || g = s.tileOwner n), .badParam), (!grant && !s.granted n, .badParam), needs w 1,
       (r.fn ≠ 0, .rights), (s.intact (if grant then g else s.chain1Holder n), .sealed),
       (grant && (s.tile n).force.mode.forcing, .combination), (grant && (s.granted n || s.chain1Bound n), .busy)]
    act := fun r s =>
      let n := r.u 16 0 16
      if r.b 18 0 then { st := s.modTrust (fun t => { t with grants := tset t.grants n (r.u 19 0 3) }) }
      else { st := (s.endChain1 n).modTrust (fun t => { t with grants := terase t.grants n }) } }

/-- CHAIN_GRANT (R463). -/
def execChainGrant (r : Req) (s : State) : Host.Outcome State Fault Refusal := .next (chainGrantSpec.run r s)

/-! ### Seals (R473 to R475) -/

/-- The hearth holds something on this node. -/
def State.holdsAny (s : State) (h : Nat) : Bool :=
  (List.range s.nTiles).any (fun n => decide (s.tileOwner n = h)) || s.trust.grants.any (fun e => e.2 = h) || !(s.hearthStoves h).isEmpty
  || (List.range s.nTiles).any (fun i => decide (s.auxOwner i = some h))
  || (!s.isWorker && (tget (0, 0) s.trust.qids (h + 1)).2 ≠ 0)

/-- A commit, swap or handover is pending on what a seal image holds (R475). -/
def State.sealBusy (s : State) (h : Nat) : Bool :=
  (s.chain1Tiles h).any (fun n => (s.tile n).seq.commit.isSome || (s.tile n).c1.swap.isSome || s.trackedBy n)

def hearthSealSpec : CmdSpec :=
  { opcode := 0x0B08
    names := fun _ => [nNode 2]
    opLogged := fun _ _ => true
    refuse := fun r w s =>
      let h := r.u 16 0 3
      let op := r.u 17 0 2
      [(2 ≤ op || (op = 0 && (!s.holdsAny h || s.intact h)) || (op = 1 && !s.intact h), .badParam), needs w 1, (r.fn ≠ 0, .rights),
       (op = 0 && 262144 < s.imageSize h, .combination), (op = 0 && s.sealBusy h, .busy)]
    act := fun r s =>
      let h := r.u 16 0 3
      if r.u 17 0 2 = 0 then
        let f := s.free
        let s := f.2
        let x := { s.sealImage h with crc := f.1 % 2 ^ 32 }
        let s := s.modTrust (fun t => { t with seals := tset t.seals h .intact })
        { st := { s with sealImages := tset s.sealImages h x } }
      else
        let s := s.modTrust (fun t => { t with
          seals := tset t.seals h .broken, legalCnt := satInc 32 t.legalCnt, lastBreak := tset t.lastBreak h s.stamp })
        let det := r.u 20 0 16 + s.trust.legalCnt * 2 ^ 32
        { st := (s.raise 0x0B02 h h det).raise 0x0B02 15 h det } }

/-- HEARTH_SEAL (R473, R489). -/
def execHearthSeal (r : Req) (s : State) : Host.Outcome State Fault Refusal := .next (hearthSealSpec.run r s)

/-! ### Status (R490) -/

def Seal.code : Seal → Nat
  | .never => 0 | .intact => 1 | .broken => 2

/-- The snapshot of a hearth (R490); LOCK_LEFT in whole seconds, rounded down (log 63). -/
def State.hearthRecord (s : State) (h : Nat) : Nat :=
  let tiles := (List.range s.nTiles).filter (fun n => s.tileOwner n = h)
  let q := if s.isWorker then (0, 0) else tget (0, 0) s.trust.qids (h + 1)
  mkRec [⟨0, 0, 3, h⟩, ⟨0, 3, 1, b2n (s.isLive h)⟩, ⟨0, 4, 2, (s.seal h).code⟩, ⟨0, 6, 1, b2n s.trust.password.isSome⟩,
    ⟨0, 7, 1, b2n s.roles.installer.isSome⟩, ⟨1, 0, 1, b2n s.roles.maker.isSome⟩, ⟨1, 1, 3, s.roles.instLock.fails⟩,
    ⟨1, 4, 3, s.roles.makerLock.fails⟩, ⟨2, 0, 16, s.roles.instLock.left s.now / 1000000000⟩, ⟨4, 0, 32, s.trust.legalCnt⟩,
    ⟨8, 0, 16, tiles.length⟩, ⟨10, 0, 16, (tiles.filter s.isForcePort).length⟩,
    ⟨12, 0, 32, maskOf 32 (fun v => decide (v < s.nStoves) && decide (s.stoveOwner v = h))⟩, ⟨16, 0, 18, q.1⟩, ⟨20, 0, 19, q.2⟩,
    ⟨24, 0, 8, tget 16 s.trust.pcieW h⟩, ⟨25, 0, 8, tget 16 s.trust.ringW h⟩,
    ⟨26, 0, 16, (s.trust.grants.filter (fun e => e.2 = h)).length⟩, ⟨28, 0, 32, (tget {} s.sealImages h).crc⟩,
    ⟨32, 0, 64, tget 0 s.trust.lastBreak h⟩, ⟨40, 0, 32, s.trust.unlogged⟩, ⟨44, 0, 32, s.trust.archiveCnt⟩]

def hearthStatusSpec : CmdSpec :=
  { opcode := 0x0B09
    read := true
    data := fun r _ => resultAt r 24 64
    refuse := fun r _ _ => [(r.fn ≠ 0 && r.fn ≠ r.u 16 0 3 + 1, .rights)]
    act := fun r s => reply s r 24 64 (s.hearthRecord (r.u 16 0 3)) }

/-- HEARTH_STATUS (R490). -/
def execHearthStatus (r : Req) (s : State) : Host.Outcome State Fault Refusal := .next (hearthStatusSpec.run r s)

/-! ### The change log's commands (R481, R482, R491, R598) -/

/-- The LSEQ of the oldest entry held. -/
def Clog.oldest (c : Clog) : Nat := c.nextLseq - c.entries.length

/-- The DIGEST of the newest entry; zero without one. -/
def Clog.headDigest (c : Clog) : Nat :=
  match c.entries.getLast? with
  | some e => clogDigest e
  | none => 0

/-- The bytes of CLOG_READ: the header and the entries (R491). -/
def State.clogBytes (s : State) (first count : Nat) : Nat :=
  let c := s.clog
  mkRec [⟨0, 0, 32, c.oldest⟩, ⟨4, 0, 32, c.nextLseq⟩, ⟨8, 0, 16, c.entries.length⟩, ⟨16, 0, 128, c.headDigest⟩,
    ⟨32, 0, 32, s.trust.archiveCnt⟩, ⟨36, 0, 32, s.trust.unlogged⟩]
  + packRecs 64 (((c.entries.drop (first - c.oldest)).take count).map (fun e => e.toNat)) * 2 ^ 512

def clogReadSpec : CmdSpec :=
  { opcode := 0x0B0A
    read := true
    data := fun r _ => resultAt r 32 (64 + 64 * r.u 24 0 7)
    refuse := fun r _ s =>
      let n := r.u 24 0 7
      let first := r.u 20 0 32
      [(n = 0 || 64 < n || first < s.clog.oldest || s.clog.nextLseq < first + n, .badParam), (r.fn ≠ 0, .rights)]
    act := fun r s => reply s r 32 (64 + 64 * r.u 24 0 7) (s.clogBytes (r.u 20 0 32) (r.u 24 0 7)) }

/-- CLOG_READ (R491). -/
def execClogRead (r : Req) (s : State) : Host.Outcome State Fault Refusal := .next (clogReadSpec.run r s)

/-- An area of the change log has reached its 10,000 erases (R598). -/
def Clog.worn (c : Clog) : Bool := c.erases.any (fun e => decide (10000 ≤ e.2))

def clogArchiveSpec : CmdSpec :=
  { opcode := 0x0B0B
    names := fun _ => [nNode 0]
    fatalOk := true
    refuse := fun r w s =>
      let c := s.clog
      [(c.entries.isEmpty || !c.staging.isEmpty || r.u 20 0 32 + 1 ≠ c.nextLseq || r.u 24 0 128 ≠ c.headDigest, .badParam), needs w 2]
    act := fun r s =>
      if s.clog.worn then { st := s, status := .timeout }
      else
        let w := (s.who r).getD { right := 2, sess := 2, serial := 0 }
        let det := r.u 20 0 32 + satInc 32 s.trust.archiveCnt * 2 ^ 32 + s.trust.unlogged * 2 ^ 64 + s.trust.legalCnt * 2 ^ 96
        let e : ClogStaged := {
          action := 0xFF01, status := .ok, role := 2, time := s.now, node := s.ring.nodeNo, func := hearthOfFn r.fn, serial := w.serial,
          detail := det, why := .archive r }
        { st := s.stage e, late := true } }

/-- CLOG_ARCHIVE (R481). -/
def execClogArchive (r : Req) (s : State) : Host.Outcome State Fault Refusal := .next (clogArchiveSpec.run r s)

/-- The GENESIS entry is programmed in the other area, and the old one is erased (R481, R482). -/
def State.archived (s : State) (x : ClogStaged) : State :=
  let c := s.clog
  let e := x.entry s.node.bootCnt c.nextLseq c.headDigest
  let s := { s with clog := { c with
    entries := [e], nextLseq := c.nextLseq + 1, area := 1 - c.area, erases := tmod 0 c.erases c.area (· + 1) } }
  (s.modTrust (fun t => { t with archiveCnt := satInc 32 t.archiveCnt, unlogged := 0 })).copyEntry e

end Sys2Proof.Machine
end

