-- ==== Sys2Proof/Machine/Commands.lean ====
section
/-! DEFINITION. The commands by opcode: those that wait, those behind a change-log entry, those that travel over the ring; and what the
block does on an empty queue (R390, R432 to R434, R479). -/

set_option Elab.async false

namespace Sys2Proof.Machine

/-! ### The command table (R621) -/

/-- Every command; FILT_SYNC by its request. -/
def commandTable (r : Req) : List CmdSpec :=
  [devIdentifySpec] ++
  [feConfigSpec, feGroupConfigSpec, feStatusSpec, feClearCountsSpec, coreStatusSpec, coreClearCountsSpec, tileModeSpec] ++
  [seqSlotsSpec, seqCommitSpec, seqArmSpec, seqTriggerSpec, seqStatusSpec, tcConfigSpec, tcResetSpec, tcStatusSpec] ++
  [filtConfigSpec, filtCoefSpec, filtAdmitSpec, filtStatusSpec, filtSwapSpec, filtPresetSpec, filtDcbSpec, filtDcbReadSpec, filtSyncSpec r] ++
  [calConfigSpec, calRunSpec, calStatusSpec, calRowBurnSpec, calRowReadSpec, calSubstSpec] ++
  [forceConfigSpec, forceTargetSpec, forceRestartSpec, forceStatusSpec, forceLoopbackSpec] ++
  [stoveLoadSpec, lawConfigSpec, stoveBindSpec, stoveConfigSpec, stoveCtrlSpec, stoveStatusSpec, loopConfigSpec, loopModeSpec,
    loopSetSpec, loopStatusSpec] ++
  [meterPairSpec, meterCtrlSpec, meterReadSpec] ++
  [queueCreateSpec, queueDestroySpec, queueBindSpec, queueStatusSpec, lmapInvalSpec] ++
  [ringConfigSpec, ringStatusSpec, ringBypassSpec, ringTriggerSpec] ++
  [sessionOpenSpec, sessionCloseSpec, rolePasswordSpec, makerChallengeSpec, hearthAssignSpec, hearthSharesSpec, chainGrantSpec,
    hearthSealSpec, hearthStatusSpec, clogReadSpec, clogArchiveSpec] ++
  [safeConfigSpec, safeConnSpec, safeArmSpec, safeStatusSpec, tirwinPutSpec] ++
  [faultConfigSpec, faultReadSpec, faultClearSpec, faultInjectSpec, evlogReadSpec] ++
  [devResetSpec, ageReplanSpec, ageStatusSpec, agePlanReadSpec, ageApplySpec] ++
  [psReadSpec, psProgramSpec, psEraseSpec, psStatusSpec]

/-- The command of a request's opcode. -/
def specOf (r : Req) : Option CmdSpec := (commandTable r).find? (fun p => p.opcode = r.opcode)

/-! ### Commands behind a change-log entry (R479) -/

/-- What follows the programming of an entry: the command acts, ends, or the device goes on. -/
def State.afterEntry (s : State) (w : ClogFor) : State :=
  match w with
  | .command r =>
    match specOf r with
    | some p => p.perform r s
    | none => s
  | .ended r st result => s.finish r st result
  | .archive r => s.finish r .ok 0
  | .device => s
  | .resetGo => s.resetNode 6

/-- CHANGE_LOG_ENTRY_DONE: the oldest staged entry has been programmed, or its programming has failed. While the power-fail sequence
programs, the staged entries go with it (R479). -/
def execChangeLogEntryDone (ok : Bool) (s : State) : Host.Outcome State Fault Refusal :=
  match s.clog.staging with
  | [] => .next s
  | x :: rest =>
    if s.node.inReset || s.node.pfStage ≠ PfStage.none || !s.logs.turn 1 then .next s
    else
      let s := { s with clog := { s.clog with staging := rest }, logs := s.logs.took 1 }
      if ok then
        let s := match x.why with
          | .archive _ => s.archived x
          | _ => s.clogAppend x
        .next (s.afterEntry x.why)
      else
        let s := s.report 0x24 0 x.action
        .next (match x.why.req with
          | some r => s.finish r .timeout 0
          | none => s)

/-! ### Commands over the ring (R432, R433) -/

/-- The status of a code (R627). -/
def Status.ofCode (n : Nat) : Option Status :=
  [Status.ok, .rights, .badParam, .busy, .notBlank, .bankXip, .loopClosed, .budget, .sealed, .logFull, .fenced, .calDisagree,
    .rowExhausted, .notProven, .timeout, .combination][n]?

/-- The command of a CMD frame, run with the role the manager resolved; kind 3 is a QUEUE_BIND to a capture queue (log 31). -/
def frameRequest (c : CmdFrame) (tag : Nat) : Req :=
  { fn := c.fn, qid := if c.kind = 3 then 1 else 0, entry := c.entry, host := c.host, origin := .frame tag c.right }

/-- A stream is sent PROMPT to a node, or no longer (R307, R429). -/
def State.setPrompt (s : State) (key node : Nat) (on : Bool) : State :=
  let rest := s.ring.prompts.filter (fun p => p ≠ (key, node))
  { s with ring := { s.ring with prompts := if on then rest ++ [(key, node)] else rest } }

/-- FLUSH, POND, POLICY and PRIO of a queue of the manager, as a worker keeps them (R44, R51, R410, log 31). -/
def Queue.unship (x : Queue) (v : Nat) : Queue :=
  { x with flush := bits v 0 24, pond := bits v 24 24, policy := bitAt v 48, prio := bits v 49 2 }

/-- What a worker keeps of a forwarded QUEUE_BIND beside running it. -/
def State.noteFrame (s : State) (c : CmdFrame) (r : Req) : State :=
  if r.opcode ≠ 0x0903 then s else s.modQueue (qidOf r) (fun x => x.unship c.queue)

/-- CMD: a worker, at the manager's word alone (R7), runs a forwarded command, or takes what the manager tells it: the live hearths (log 51), the lane rate of a port, the step
of a damped stream, the spacing of a stream it reads, what a queue created afresh sets; the manager takes what a worker has dropped for a queue; any node, a stream wanted by a
stove of another node, of the hearth that holds it (R204). A repeated command that has ended has its completion sent again. -/
def execRxCmd (src tag : Nat) (c : CmdFrame) (s : State) : Host.Outcome State Fault Refusal :=
  let from_ := if c.kind = 2 then true else if c.kind = 7 then s.isManager else s.isWorker && src = 0
  if !s.ringOn || s.ring.bypassClosed || !from_ then .next s
  else
    match s.takeTag src tag with
    | (s, false) =>
      .next (match s.ring.answered.find? (fun a => a.1 = src && a.2.1 = tag) with
        | some a => s.sendFrame a.2.2
        | none => s)
    | (s, true) =>
      if c.kind = 1 then
        .next (((List.range 8).filter (fun h => bitAt c.arg h)).foldl (fun s h => s.makeLive [] h) s)
      else if c.kind = 2 then
        let k := c.entry.toNat % 2 ^ 64
        .next (s.setPrompt k src (c.arg = 1 && c.fn = fnOfHearth (s.streamHolder k)))
      else if c.kind = 4 then .next (s.setRate (c.arg % 2 = 0) (some (c.arg < 2)))
      else if c.kind = 5 then
        let k := c.entry.toNat % 2 ^ 64
        .next ((s.modShare k true (fun x => { x with nextStep := c.arg % 4 })).postBlock k true)
      else if c.kind = 6 then
        .next { s with ring := { s.ring with spacings := tset s.ring.spacings (c.entry.toNat % 2 ^ 64) c.queue } }
      else if c.kind = 7 then
        let q := c.entry.toNat % 2 ^ 18
        .next ((s.queueLost q c.queue).raiseQueueLoss q)
      else if c.kind = 8 then .next (s.modQueue (c.entry.toNat % 2 ^ 18) (fun x => x.unship c.queue))
      else
        let r := frameRequest c tag
        let s := s.noteFrame c r
        match specOf r with
        | some p => .next (p.run r s)
        | none => .next (s.finish r .badParam 0)

/-- The manager knows what a command has changed in the configuration of the worker that carried it out (R47, R204, log 19). -/
def State.learn (s : State) (n : Nat) (r : Req) : State :=
  match specOf r with
  | some p => s.putView n (p.act r (s.asNode n)).st
  | none => s

/-- Bindings on the manager of a worker's streams to a queue or a stove of a hearth that no longer holds them end (R204, R465). -/
def State.endForeign (s : State) : State :=
  let s := (s.host.streams.filter (fun e => keyNode e.1 ≠ s.ring.nodeNo)).foldl (fun (s : State) e =>
    [false, true].foldl (fun (s : State) cap =>
      match ((s.stream e.1).share cap).qid with
      | some q => if s.qidOwner q = some (s.streamHolder e.1 + 1) then s else s.endShare e.1 cap
      | none => s) s) s
  let stays := fun (v : Nat) (p : InPort) => match p.bound with
    | some k => keyNode k = s.ring.nodeNo || s.stoveOwner v = s.streamHolder k
    | none => true
  { s with stoveTab := s.stoveTab.map (fun e => (e.1, { e.2 with ports := e.2.ports.filter (fun p => stays e.1 p.2) })) }

/-- A QUEUE_BIND that a worker has carried out is carried out here; one whose queue has ended meanwhile through a reset of its function
keeps the kind that it had (R415). -/
def State.bindHere (s : State) (r : Req) : State :=
  let q := qidOf r
  let cap := s.bindCap r
  let t := s.bindStream (bindKey r) q cap (r.b 19 0)
  if r.b 19 0 && !(s.queue q).live then t.modQueue q (fun x => { x with keptKind := x.keptKind.or (some (if cap then 4 else 2)) }) else t

/-- The completion of a forwarded command. -/
def State.forwardDone (s : State) (f : Forwarded) (st : Status) (result : Nat) : State :=
  let s := { s with ring := { s.ring with forwarded := s.ring.forwarded.erase f } }
  let o := f.req.opcode
  let s := if st ≠ .ok then s.undoRates f
    else if o = 0x0A01 then s.noteRate f.node (some (f.req.b 16 0)) (some (f.req.b 16 1))
    else if o = 0x0903 then s.bindHere f.req
    else
      let s := s.learn f.node f.req
      if o = 0x0B05 || o = 0x0B07 then s.endForeign else s
  s.finish f.req st result

/-- CPL: the completion of a forwarded command, or a part of its result: status 0xFF with the host address, the length and the bytes. A
refusal of the CLOSE that RING_BYPASS sent ends it with that status (log 59). -/
def execRxCpl (src tag cmd status result addr len val : Nat) (s : State) : Host.Outcome State Fault Refusal :=
  if !s.ringOn || !s.isManager then .next s
  else
    match s.takeTag src tag with
    | (s, false) => .next s
    | (s, true) =>
      match s.ring.forwarded.find? (fun f => f.tag = cmd && f.node = src), Status.ofCode status with
      | some f, some st => .next (s.forwardDone f st result)
      | some f, none => .next (if status = 0xFF then s.emit (.data f.req.fn addr len val) else s)
      | none, some st =>
        match s.findOp 0x0A03 0 with
        | some o => .next (if st ≠ Status.ok && o.req.u 4 0 6 = src then s.endRingOps st else s)
        | none => .next s
      | none, none => .next s

/-- What an event of a worker tells the manager itself: the node's time state for its table, the STEP of a stream damped there
(R411, R455, log 50). -/
def State.heedEvent (s : State) (src code subject detail : Nat) : State :=
  let put := fun (n : Nat) => s.modRing (fun r => { r with table := tmod {} r.table src (fun x => { x with state := n }) })
  if code = 0x0A07 then put 3
  else if code = 0x0A08 then put 4
  else if code = 0x0903 then
    let step := bits detail 24 2
    (s.modShare (streamKey src (bits detail 0 16) (bits detail 16 5) (bits detail 21 2) 0) true (fun x => { x with nextStep := step })).modQueue
      subject (fun y => { y with damp := step, dirty := true })
  else s

/-- EVENT: an event of a worker goes to its hearth's default event queue (R434); code 0 asks for a lane fallback of the worker's port in
SUBJECT (R579, log 66). -/
def execRxEvent (src tag time code hearth subject held detail : Nat) (s : State) : Host.Outcome State Fault Refusal :=
  if !s.ringOn || !s.isManager then .next s
  else
    match s.takeTag src tag with
    | (s, false) => .next s
    | (s, true) =>
      if code = 0 then .next (s.workerFallback src subject)
      else
        let e : EventRec := {
          time := time, code := code, node := src, hearth := hearth, subject := subject, held := held, detail := detail }
        .next ((s.heedEvent src code subject detail).deliverEvent e)

/-! ### What the block does unasked -/

/-- The first waiting command that nothing in hand, and nothing that waits before it, holds back (R390). -/
def State.pickWaiting (s : State) (busy : List (Nat × Nat)) (queues : List Nat) : List (Req × List (Nat × Nat)) → Option (Req × List (Nat × Nat))
  | [] => none
  | e :: t =>
    let ring : Bool := e.1.origin = .ring
    let fenced := e.1.b 6 0 && s.queueStarted e.1.qid
    if e.2.any (fun n => busy.contains n) || (ring && queues.contains e.1.qid) || fenced || 16 ≤ s.clog.staging.length then
      s.pickWaiting (busy ++ e.2) (if ring then e.1.qid :: queues else queues) t
    else some e

/-- A waiting command starts. -/
def State.startWaiting (s : State) (e : Req × List (Nat × Nat)) : State :=
  let s := { s with host := { s.host with waiting := s.host.waiting.erase e } }
  match specOf e.1 with
  | some p => p.runNow e.1 s
  | none => s

/-- One draught edge passes, 48.828125 ns: what was accepted since the last one takes effect, a worker's ponds drain, and the manager tells
its workers of streams whose spacing has changed (R51, log 1, log 19). -/
def State.tick (s : State) : State :=
  let s := (({ s with node := { s.node with clock := s.node.clock + 3125, up := s.node.up + 3125 } } : State).edgeActs).drainRings
  if s.isManager then s.tellRates s.allReads else s

/-- On an empty queue: a waiting command that may start does; else a draught edge passes (log 1). -/
def State.idle (s : State) : State :=
  if s.node.inReset then s
  else
    match s.pickWaiting s.namesStarted [] s.host.waiting with
    | some e => s.startWaiting e
    | none => s.tick

end Sys2Proof.Machine
end

