-- ==== Sys2Proof/Machine/Dispatch.lean ====
section
/-! DEFINITION. One arm per command: the direct call of its meaning. -/

namespace Sys2Proof.Machine

/-- The effect of a command on everything but the queue. -/
def exec (i : Instr) (s : State) : Host.Outcome State Fault Refusal :=
  match i with
  | .powerOn => Sys2Proof.Machine.execPowerOn s
  | .supplyBrownOut rail sent => Sys2Proof.Machine.execSupplyBrownOut rail sent s
  | .supplyRange die rail inRange => Sys2Proof.Machine.execSupplyRange die rail inRange s
  | .va5PowerFail => Sys2Proof.Machine.execVa5PowerFail s
  | .powerFailProgramDone => Sys2Proof.Machine.execPowerFailProgramDone s
  | .powerFailReadbackDone => Sys2Proof.Machine.execPowerFailReadbackDone s
  | .rstNAssert => Sys2Proof.Machine.execRstNAssert s
  | .resetRelease role => Sys2Proof.Machine.execResetRelease role s
  | .kindleDie die => Sys2Proof.Machine.execKindleDie die s
  | .kindleUnit die chk => Sys2Proof.Machine.execKindleUnit die chk s
  | .kindleLane ring => Sys2Proof.Machine.execKindleLane ring s
  | .flueBridgeTimeout die => Sys2Proof.Machine.execFlueBridgeTimeout die s
  | .kindleQueueSlot die => Sys2Proof.Machine.execKindleQueueSlot die s
  | .triadSettled die => Sys2Proof.Machine.execTriadSettled die s
  | .coarseSearchDone c offset gain weights pga force => Sys2Proof.Machine.execCoarseSearchDone c offset gain weights pga force s
  | .calPassDone c p => Sys2Proof.Machine.execCalPassDone c p s
  | .dclkLoss => Sys2Proof.Machine.execDclkLoss s
  | .dclkAbsentTimeout => Sys2Proof.Machine.execDclkAbsentTimeout s
  | .draughtSourceReturn east => Sys2Proof.Machine.execDraughtSourceReturn east s
  | .recoveredClockLoss east => Sys2Proof.Machine.execRecoveredClockLoss east s
  | .oscillatorTrim => Sys2Proof.Machine.execOscillatorTrim s
  | .tempCompensation die temp => Sys2Proof.Machine.execTempCompensation die temp s
  | .ovpOpen m high => Sys2Proof.Machine.execOvpOpen m high s
  | .ovpClose m => Sys2Proof.Machine.execOvpClose m s
  | .cmxEntry p above => Sys2Proof.Machine.execCmxEntry p above s
  | .conversion n r q forced bad => Sys2Proof.Machine.execConversion n r q forced bad s
  | .flushExpiry q => Sys2Proof.Machine.execFlushExpiry q s
  | .engineJob e => Sys2Proof.Machine.execEngineJob e s
  | .flueTransfer die bad => Sys2Proof.Machine.execFlueTransfer die bad s
  | .dieKeepaliveTimeout die => Sys2Proof.Machine.execDieKeepaliveTimeout die s
  | .seqCommitEffective n => Sys2Proof.Machine.execSeqCommitEffective n s
  | .triggerArrival => Sys2Proof.Machine.execTriggerArrival s
  | .runStart n => Sys2Proof.Machine.execRunStart n s
  | .runEnd n => Sys2Proof.Machine.execRunEnd n s
  | .limitEpisodeStart n => Sys2Proof.Machine.execLimitEpisodeStart n s
  | .limitEpisodeEnd n => Sys2Proof.Machine.execLimitEpisodeEnd n s
  | .foldBack n => Sys2Proof.Machine.execFoldBack n s
  | .hizStep n => Sys2Proof.Machine.execHizStep n s
  | .forceRetry n => Sys2Proof.Machine.execForceRetry n s
  | .retryOk n => Sys2Proof.Machine.execRetryOk n s
  | .retryCountReset n => Sys2Proof.Machine.execRetryCountReset n s
  | .contention n iOut => Sys2Proof.Machine.execContention n iOut s
  | .rampDownDone n => Sys2Proof.Machine.execRampDownDone n s
  | .loopbackLevelDone n l => Sys2Proof.Machine.execLoopbackLevelDone n l s
  | .swapInstant n c => Sys2Proof.Machine.execSwapInstant n c s
  | .swapComplete n c => Sys2Proof.Machine.execSwapComplete n c s
  | .syncPinEdge sub => Sys2Proof.Machine.execSyncPinEdge sub s
  | .syncAct => Sys2Proof.Machine.execSyncAct s
  | .syncDone mask => Sys2Proof.Machine.execSyncDone mask s
  | .trackingDone g => Sys2Proof.Machine.execTrackingDone g s
  | .handBackDone g => Sys2Proof.Machine.execHandBackDone g s
  | .handoverTimeout g => Sys2Proof.Machine.execHandoverTimeout g s
  | .rollingStep g => Sys2Proof.Machine.execRollingStep g s
  | .faultSubstitution g => Sys2Proof.Machine.execFaultSubstitution g s
  | .rowBurnDone die ok => Sys2Proof.Machine.execRowBurnDone die ok s
  | .portWordArrival sv p bad => Sys2Proof.Machine.execPortWordArrival sv p bad s
  | .alignWaitTimeout sv i0 => Sys2Proof.Machine.execAlignWaitTimeout sv i0 s
  | .lawRunStart sv => Sys2Proof.Machine.execLawRunStart sv s
  | .trapCycles sv stall => Sys2Proof.Machine.execTrapCycles sv stall s
  | .cacheFillDone sv cycles => Sys2Proof.Machine.execCacheFillDone sv cycles s
  | .svNop sv => Sys2Proof.Machine.execSvNop sv s
  | .svAdd sv a b c => Sys2Proof.Machine.execSvAdd sv a b c s
  | .svSub sv a b c => Sys2Proof.Machine.execSvSub sv a b c s
  | .svAdds sv a b c => Sys2Proof.Machine.execSvAdds sv a b c s
  | .svSubs sv a b c => Sys2Proof.Machine.execSvSubs sv a b c s
  | .svAnd sv a b c => Sys2Proof.Machine.execSvAnd sv a b c s
  | .svOr sv a b c => Sys2Proof.Machine.execSvOr sv a b c s
  | .svXor sv a b c => Sys2Proof.Machine.execSvXor sv a b c s
  | .svShl sv a b c => Sys2Proof.Machine.execSvShl sv a b c s
  | .svShr sv a b c => Sys2Proof.Machine.execSvShr sv a b c s
  | .svSra sv a b c => Sys2Proof.Machine.execSvSra sv a b c s
  | .svMul sv a b c => Sys2Proof.Machine.execSvMul sv a b c s
  | .svMulh sv a b c => Sys2Proof.Machine.execSvMulh sv a b c s
  | .svSin sv a imm => Sys2Proof.Machine.execSvSin sv a imm s
  | .svSseq sv a imm => Sys2Proof.Machine.execSvSseq sv a imm s
  | .svStim sv a imm => Sys2Proof.Machine.execSvStim sv a imm s
  | .svAddi sv a b imm => Sys2Proof.Machine.execSvAddi sv a b imm s
  | .svAndi sv a b imm => Sys2Proof.Machine.execSvAndi sv a b imm s
  | .svOri sv a b imm => Sys2Proof.Machine.execSvOri sv a b imm s
  | .svLui sv a imm => Sys2Proof.Machine.execSvLui sv a imm s
  | .svShli sv a b imm => Sys2Proof.Machine.execSvShli sv a b imm s
  | .svShri sv a b imm => Sys2Proof.Machine.execSvShri sv a b imm s
  | .svSrai sv a b imm => Sys2Proof.Machine.execSvSrai sv a b imm s
  | .svSrr sv a imm => Sys2Proof.Machine.execSvSrr sv a imm s
  | .svSrw sv a imm => Sys2Proof.Machine.execSvSrw sv a imm s
  | .svLoopStep sv a imm => Sys2Proof.Machine.execSvLoopStep sv a imm s
  | .svLctlHold sv a imm => Sys2Proof.Machine.execSvLctlHold sv a imm s
  | .svLctlResume sv a imm => Sys2Proof.Machine.execSvLctlResume sv a imm s
  | .svLw sv a b imm => Sys2Proof.Machine.execSvLw sv a b imm s
  | .svSw sv a b imm => Sys2Proof.Machine.execSvSw sv a b imm s
  | .svBeq sv a b imm => Sys2Proof.Machine.execSvBeq sv a b imm s
  | .svBne sv a b imm => Sys2Proof.Machine.execSvBne sv a b imm s
  | .svBlt sv a b imm => Sys2Proof.Machine.execSvBlt sv a b imm s
  | .svBge sv a b imm => Sys2Proof.Machine.execSvBge sv a b imm s
  | .svJal sv a imm => Sys2Proof.Machine.execSvJal sv a imm s
  | .svJr sv a => Sys2Proof.Machine.execSvJr sv a s
  | .svClamp sv a b c => Sys2Proof.Machine.execSvClamp sv a b c s
  | .svRlim sv a b c => Sys2Proof.Machine.execSvRlim sv a b c s
  | .svTint sv a b c => Sys2Proof.Machine.execSvTint sv a b c s
  | .svCrc sv a b imm => Sys2Proof.Machine.execSvCrc sv a b imm s
  | .svMacc sv a b c => Sys2Proof.Machine.execSvMacc sv a b c s
  | .svMsub sv a b c => Sys2Proof.Machine.execSvMsub sv a b c s
  | .svAclr sv a => Sys2Proof.Machine.execSvAclr sv a s
  | .svAld sv a b c => Sys2Proof.Machine.execSvAld sv a b c s
  | .svArd sv a b imm => Sys2Proof.Machine.execSvArd sv a b imm s
  | .svFout sv a imm => Sys2Proof.Machine.execSvFout sv a imm s
  | .svMsg sv a imm => Sys2Proof.Machine.execSvMsg sv a imm s
  | .svQrec sv a imm => Sys2Proof.Machine.execSvQrec sv a imm s
  | .svTripr sv a => Sys2Proof.Machine.execSvTripr sv a s
  | .svTrg sv => Sys2Proof.Machine.execSvTrg sv s
  | .svEvt sv a => Sys2Proof.Machine.execSvEvt sv a s
  | .svFadd sv a b c => Sys2Proof.Machine.execSvFadd sv a b c s
  | .svFsub sv a b c => Sys2Proof.Machine.execSvFsub sv a b c s
  | .svFmul sv a b c => Sys2Proof.Machine.execSvFmul sv a b c s
  | .svFma sv a b c => Sys2Proof.Machine.execSvFma sv a b c s
  | .svFmin sv a b c => Sys2Proof.Machine.execSvFmin sv a b c s
  | .svFmax sv a b c => Sys2Proof.Machine.execSvFmax sv a b c s
  | .svFabs sv a b => Sys2Proof.Machine.execSvFabs sv a b s
  | .svFneg sv a b => Sys2Proof.Machine.execSvFneg sv a b s
  | .svFcmp sv a b c x => Sys2Proof.Machine.execSvFcmp sv a b c x s
  | .svPsreq sv a => Sys2Proof.Machine.execSvPsreq sv a s
  | .svFdiv sv a b c => Sys2Proof.Machine.execSvFdiv sv a b c s
  | .svFsqrt sv a b => Sys2Proof.Machine.execSvFsqrt sv a b s
  | .svFcvtsw sv a b imm => Sys2Proof.Machine.execSvFcvtsw sv a b imm s
  | .svFcvtws sv a b imm => Sys2Proof.Machine.execSvFcvtws sv a b imm s
  | .svEnd sv => Sys2Proof.Machine.execSvEnd sv s
  | .svIllegal sv op => Sys2Proof.Machine.execSvIllegal sv op s
  | .loopCommandAct sv => Sys2Proof.Machine.execLoopCommandAct sv s
  | .psOpStart k => Sys2Proof.Machine.execPsOpStart k s
  | .xipHoldTimeout k => Sys2Proof.Machine.execXipHoldTimeout k s
  | .psOpDone k ok => Sys2Proof.Machine.execPsOpDone k ok s
  | .pairInstant n => Sys2Proof.Machine.execPairInstant n s
  | .pairStart n => Sys2Proof.Machine.execPairStart n s
  | .periodicRecord => Sys2Proof.Machine.execPeriodicRecord s
  | .meterRecordDone ok => Sys2Proof.Machine.execMeterRecordDone ok s
  | .meterRestoreDone => Sys2Proof.Machine.execMeterRestoreDone s
  | .pcieLinkUp width rate => Sys2Proof.Machine.execPcieLinkUp width rate s
  | .dlDown => Sys2Proof.Machine.execDlDown s
  | .hotReset => Sys2Proof.Machine.execHotReset s
  | .pciePerstNAssert => Sys2Proof.Machine.execPciePerstNAssert s
  | .pciePerstNRelease => Sys2Proof.Machine.execPciePerstNRelease s
  | .flr fn => Sys2Proof.Machine.execFlr fn s
  | .flrDone fn => Sys2Proof.Machine.execFlrDone fn s
  | .vfEnable num enable badImages => Sys2Proof.Machine.execVfEnable num enable badImages s
  | .linkRetrainDone width rate => Sys2Proof.Machine.execLinkRetrainDone width rate s
  | .hostReadCompletion qid entry => Sys2Proof.Machine.execHostReadCompletion qid entry s
  | .completionTimeout qid => Sys2Proof.Machine.execCompletionTimeout qid s
  | .doorbell fn qid index phase full host => Sys2Proof.Machine.execDoorbell fn qid index phase full host s
  | .commandFetch qid host => Sys2Proof.Machine.execCommandFetch qid host s
  | .entryWrite qid host => Sys2Proof.Machine.execEntryWrite qid host s
  | .damperTick => Sys2Proof.Machine.execDamperTick s
  | .invalidationEnd => Sys2Proof.Machine.execInvalidationEnd s
  | .msixModTimer fn v => Sys2Proof.Machine.execMsixModTimer fn v s
  | .msixUnmask fn v => Sys2Proof.Machine.execMsixUnmask fn v s
  | .admqEnSet fn v => Sys2Proof.Machine.execAdmqEnSet fn v s
  | .admqEnClear fn => Sys2Proof.Machine.execAdmqEnClear fn s
  | .fnCtrlEn fn en => Sys2Proof.Machine.execFnCtrlEn fn en s
  | .tlbInv fn => Sys2Proof.Machine.execTlbInv fn s
  | .devTimeLoRead fn => Sys2Proof.Machine.execDevTimeLoRead fn s
  | .faultTimeLoRead => Sys2Proof.Machine.execFaultTimeLoRead s
  | .clrBarErr => Sys2Proof.Machine.execClrBarErr s
  | .clrRetrain => Sys2Proof.Machine.execClrRetrain s
  | .clrDbPf => Sys2Proof.Machine.execClrDbPf s
  | .clrDbVf k => Sys2Proof.Machine.execClrDbVf k s
  | .retrain => Sys2Proof.Machine.execRetrain s
  | .resetArm value => Sys2Proof.Machine.execResetArm value s
  | .resetArmExpiry => Sys2Proof.Machine.execResetArmExpiry s
  | .resetGo => Sys2Proof.Machine.execResetGo s
  | .registerWrite fn bar off len value => Sys2Proof.Machine.execRegisterWrite fn bar off len value s
  | .linkUp port a b d => Sys2Proof.Machine.execLinkUp port a b d s
  | .linkDown east a b cause => Sys2Proof.Machine.execLinkDown east a b cause s
  | .rxTirwin src pdu carry => Sys2Proof.Machine.execRxTirwin src pdu carry s
  | .rxLinkFault src fseq a b => Sys2Proof.Machine.execRxLinkFault src fseq a b s
  | .rxTime east sub res f => Sys2Proof.Machine.execRxTime east sub res f s
  | .rxDelayReq east sub res => Sys2Proof.Machine.execRxDelayReq east sub res s
  | .rxDelayResp east t2 t3 sub => Sys2Proof.Machine.execRxDelayResp east t2 t3 sub s
  | .rxSync fseq ref act => Sys2Proof.Machine.execRxSync fseq ref act s
  | .rxTrigger src fseq channel time => Sys2Proof.Machine.execRxTrigger src fseq channel time s
  | .rxPlan fseq seq switchAt order avoid => Sys2Proof.Machine.execRxPlan fseq seq switchAt order avoid s
  | .rxPrompt newRoute segs => Sys2Proof.Machine.execRxPrompt newRoute segs s
  | .rxMessage src fseq channel mseq => Sys2Proof.Machine.execRxMessage src fseq channel mseq s
  | .rxPacked newRoute segs => Sys2Proof.Machine.execRxPacked newRoute segs s
  | .rxCmd src tag c => Sys2Proof.Machine.execRxCmd src tag c s
  | .rxCpl src tag cmd status result addr len val => Sys2Proof.Machine.execRxCpl src tag cmd status result addr len val s
  | .rxEvent src tag time code hearth subject held detail => Sys2Proof.Machine.execRxEvent src tag time code hearth subject held detail s
  | .rxAck src tag => Sys2Proof.Machine.execRxAck src tag s
  | .rxNumber tag num w => Sys2Proof.Machine.execRxNumber tag num w s
  | .rxCapture src qid c => Sys2Proof.Machine.execRxCapture src qid c s
  | .rxLog src change body => Sys2Proof.Machine.execRxLog src change body s
  | .timeSend => Sys2Proof.Machine.execTimeSend s
  | .delayReqSend east => Sys2Proof.Machine.execDelayReqSend east s
  | .packedSendTimeout => Sys2Proof.Machine.execPackedSendTimeout s
  | .timeLossTimeout => Sys2Proof.Machine.execTimeLossTimeout s
  | .resendTimeout => Sys2Proof.Machine.execResendTimeout s
  | .commandWaitTimeout => Sys2Proof.Machine.execCommandWaitTimeout s
  | .formationEnd closed => Sys2Proof.Machine.execFormationEnd closed s
  | .insertionTimeout => Sys2Proof.Machine.execInsertionTimeout s
  | .joinOffer => Sys2Proof.Machine.execJoinOffer s
  | .joinTime => Sys2Proof.Machine.execJoinTime s
  | .joinTimeout => Sys2Proof.Machine.execJoinTimeout s
  | .planSwitch => Sys2Proof.Machine.execPlanSwitch s
  | .routeHoldEnd => Sys2Proof.Machine.execRouteHoldEnd s
  | .sessionTimeout => Sys2Proof.Machine.execSessionTimeout s
  | .lockoutEnd => Sys2Proof.Machine.execLockoutEnd s
  | .lockoutRecordWrite => Sys2Proof.Machine.execLockoutRecordWrite s
  | .changeLogEntryDone ok => Sys2Proof.Machine.execChangeLogEntryDone ok s
  | .heartbeatTimer c => Sys2Proof.Machine.execHeartbeatTimer c s
  | .pduHoldRelease c => Sys2Proof.Machine.execPduHoldRelease c s
  | .tirwinExpiry c => Sys2Proof.Machine.execTirwinExpiry c s
  | .tripLoopChange range => Sys2Proof.Machine.execTripLoopChange range s
  | .tripLoopDebounce => Sys2Proof.Machine.execTripLoopDebounce s
  | .minPulseEnd => Sys2Proof.Machine.execMinPulseEnd s
  | .faultDetection d => Sys2Proof.Machine.execFaultDetection d s
  | .reactionDone rid => Sys2Proof.Machine.execReactionDone rid s
  | .shadowEnd rid => Sys2Proof.Machine.execShadowEnd rid s
  | .tripLineSelfTest die ok => Sys2Proof.Machine.execTripLineSelfTest die ok s
  | .injectTimeout => Sys2Proof.Machine.execInjectTimeout s
  | .ramLogWrite => Sys2Proof.Machine.execRamLogWrite s
  | .tokenRefill => Sys2Proof.Machine.execTokenRefill s
  | .gaugeRead die i0 value => Sys2Proof.Machine.execGaugeRead die i0 value s
  | .hourlyMean => Sys2Proof.Machine.execHourlyMean s
  | .scheduledReplan => Sys2Proof.Machine.execScheduledReplan s
  | .replanDone => Sys2Proof.Machine.execReplanDone s
  | .devIdentify r => Sys2Proof.Machine.execDevIdentify r s
  | .feConfig r => Sys2Proof.Machine.execFeConfig r s
  | .feGroupConfig r => Sys2Proof.Machine.execFeGroupConfig r s
  | .feStatus r => Sys2Proof.Machine.execFeStatus r s
  | .feClearCounts r => Sys2Proof.Machine.execFeClearCounts r s
  | .coreStatus r => Sys2Proof.Machine.execCoreStatus r s
  | .coreClearCounts r => Sys2Proof.Machine.execCoreClearCounts r s
  | .tileMode r => Sys2Proof.Machine.execTileMode r s
  | .seqSlots r => Sys2Proof.Machine.execSeqSlots r s
  | .seqCommit r => Sys2Proof.Machine.execSeqCommit r s
  | .seqArm r => Sys2Proof.Machine.execSeqArm r s
  | .seqTrigger r => Sys2Proof.Machine.execSeqTrigger r s
  | .seqStatus r => Sys2Proof.Machine.execSeqStatus r s
  | .tcConfig r => Sys2Proof.Machine.execTcConfig r s
  | .tcReset r => Sys2Proof.Machine.execTcReset r s
  | .tcStatus r => Sys2Proof.Machine.execTcStatus r s
  | .filtConfig r => Sys2Proof.Machine.execFiltConfig r s
  | .filtCoef r => Sys2Proof.Machine.execFiltCoef r s
  | .filtAdmit r => Sys2Proof.Machine.execFiltAdmit r s
  | .filtStatus r => Sys2Proof.Machine.execFiltStatus r s
  | .filtSwap r => Sys2Proof.Machine.execFiltSwap r s
  | .filtPreset r => Sys2Proof.Machine.execFiltPreset r s
  | .filtDcb r => Sys2Proof.Machine.execFiltDcb r s
  | .filtDcbRead r => Sys2Proof.Machine.execFiltDcbRead r s
  | .filtSync r => Sys2Proof.Machine.execFiltSync r s
  | .calConfig r => Sys2Proof.Machine.execCalConfig r s
  | .calRun r => Sys2Proof.Machine.execCalRun r s
  | .calStatus r => Sys2Proof.Machine.execCalStatus r s
  | .calRowBurn r => Sys2Proof.Machine.execCalRowBurn r s
  | .calRowRead r => Sys2Proof.Machine.execCalRowRead r s
  | .calSubst r => Sys2Proof.Machine.execCalSubst r s
  | .forceConfig r => Sys2Proof.Machine.execForceConfig r s
  | .forceTarget r => Sys2Proof.Machine.execForceTarget r s
  | .forceRestart r => Sys2Proof.Machine.execForceRestart r s
  | .forceStatus r => Sys2Proof.Machine.execForceStatus r s
  | .forceLoopback r => Sys2Proof.Machine.execForceLoopback r s
  | .stoveLoad r => Sys2Proof.Machine.execStoveLoad r s
  | .lawConfig r => Sys2Proof.Machine.execLawConfig r s
  | .stoveBind r => Sys2Proof.Machine.execStoveBind r s
  | .stoveConfig r => Sys2Proof.Machine.execStoveConfig r s
  | .stoveCtrl r => Sys2Proof.Machine.execStoveCtrl r s
  | .stoveStatus r => Sys2Proof.Machine.execStoveStatus r s
  | .loopConfig r => Sys2Proof.Machine.execLoopConfig r s
  | .loopMode r => Sys2Proof.Machine.execLoopMode r s
  | .loopSet r => Sys2Proof.Machine.execLoopSet r s
  | .loopStatus r => Sys2Proof.Machine.execLoopStatus r s
  | .meterPair r => Sys2Proof.Machine.execMeterPair r s
  | .meterCtrl r => Sys2Proof.Machine.execMeterCtrl r s
  | .meterRead r => Sys2Proof.Machine.execMeterRead r s
  | .queueCreate r => Sys2Proof.Machine.execQueueCreate r s
  | .queueDestroy r => Sys2Proof.Machine.execQueueDestroy r s
  | .queueBind r => Sys2Proof.Machine.execQueueBind r s
  | .queueStatus r => Sys2Proof.Machine.execQueueStatus r s
  | .lmapInval r => Sys2Proof.Machine.execLmapInval r s
  | .ringConfig r => Sys2Proof.Machine.execRingConfig r s
  | .ringStatus r => Sys2Proof.Machine.execRingStatus r s
  | .ringBypass r => Sys2Proof.Machine.execRingBypass r s
  | .ringTrigger r => Sys2Proof.Machine.execRingTrigger r s
  | .sessionOpen r => Sys2Proof.Machine.execSessionOpen r s
  | .sessionClose r => Sys2Proof.Machine.execSessionClose r s
  | .rolePassword r => Sys2Proof.Machine.execRolePassword r s
  | .makerChallenge r => Sys2Proof.Machine.execMakerChallenge r s
  | .hearthAssign r => Sys2Proof.Machine.execHearthAssign r s
  | .hearthShares r => Sys2Proof.Machine.execHearthShares r s
  | .chainGrant r => Sys2Proof.Machine.execChainGrant r s
  | .hearthSeal r => Sys2Proof.Machine.execHearthSeal r s
  | .hearthStatus r => Sys2Proof.Machine.execHearthStatus r s
  | .clogRead r => Sys2Proof.Machine.execClogRead r s
  | .clogArchive r => Sys2Proof.Machine.execClogArchive r s
  | .safeConfig r => Sys2Proof.Machine.execSafeConfig r s
  | .safeConn r => Sys2Proof.Machine.execSafeConn r s
  | .safeArm r => Sys2Proof.Machine.execSafeArm r s
  | .safeStatus r => Sys2Proof.Machine.execSafeStatus r s
  | .tirwinPut r => Sys2Proof.Machine.execTirwinPut r s
  | .faultConfig r => Sys2Proof.Machine.execFaultConfig r s
  | .faultRead r => Sys2Proof.Machine.execFaultRead r s
  | .faultClear r => Sys2Proof.Machine.execFaultClear r s
  | .faultInject r => Sys2Proof.Machine.execFaultInject r s
  | .evlogRead r => Sys2Proof.Machine.execEvlogRead r s
  | .devReset r => Sys2Proof.Machine.execDevReset r s
  | .ageReplan r => Sys2Proof.Machine.execAgeReplan r s
  | .ageStatus r => Sys2Proof.Machine.execAgeStatus r s
  | .agePlanRead r => Sys2Proof.Machine.execAgePlanRead r s
  | .ageApply r => Sys2Proof.Machine.execAgeApply r s
  | .psRead r => Sys2Proof.Machine.execPsRead r s
  | .psProgram r => Sys2Proof.Machine.execPsProgram r s
  | .psErase r => Sys2Proof.Machine.execPsErase r s
  | .psStatus r => Sys2Proof.Machine.execPsStatus r s
  | .forceUpdate n => Sys2Proof.Machine.execForceUpdate n s
  | .linkRetrainStart => Sys2Proof.Machine.execLinkRetrainStart s
  | .unknownFrameType f => Sys2Proof.Machine.execUnknownFrameType f s
  | .malformedBarRead fn => Sys2Proof.Machine.execMalformedBarRead fn s
  | .faultManagerSelfTest ok => Sys2Proof.Machine.execFaultManagerSelfTest ok s
  | .flashLogRecordDone ok => Sys2Proof.Machine.execFlashLogRecordDone ok s
  | .powerFailRegionErased => Sys2Proof.Machine.execPowerFailRegionErased s
  | .fallbackMoveTimeout => Sys2Proof.Machine.execFallbackMoveTimeout s

end Sys2Proof.Machine
end

