-- ==== Sys2Proof/WellFormed.lean ====
section
/-! DEFINITION. Which commands are well formed: every operand lies in the range the spec gives its field or unit (R6, R8, R280, R361,
R363, R388). The meanings are total: an operand outside is answered there too. -/

set_option Elab.async false

namespace Sys2Proof

/-- Bytes by rising address. -/
def cellsRise : List Host.Cell → Bool
  | [] => true
  | [_] => true
  | a :: b :: t => decide (a.1 < b.1) && cellsRise (b :: t)

/-- A request: PF or one of eight VFs, an 18-bit QID, host memory's bytes in rising order, a role of R466. -/
def reqWf (r : Req) : Bool :=
  decide (r.fn < 9) && decide (r.qid < 262144) && cellsRise r.host
  && (match r.origin with
    | .ring => true
    | .frame tag role => decide (tag < 4294967296) && decide (role < 3))

/-- A CMD frame: one of the kinds of log 31, a function, a role, an argument of one byte. -/
def frameWf (c : CmdFrame) : Bool :=
  decide (c.kind < 9) && decide (c.fn < 9) && decide (c.right < 3) && decide (c.arg < 256) && cellsRise c.host

/-- The command is well formed. -/
def Instr.wf (i : Instr) : Bool :=
  match i with
  | .powerOn => true
  | .supplyBrownOut _ _ => true
  | .supplyRange die _ _ => decide (die < 8)
  | .va5PowerFail => true
  | .powerFailProgramDone => true
  | .powerFailReadbackDone => true
  | .rstNAssert => true
  | .resetRelease role => decide (role < 4)
  | .kindleDie die => decide (die < 8)
  | .kindleUnit die _ => decide (die < 8)
  | .kindleLane _ => true
  | .flueBridgeTimeout die => decide (die < 8)
  | .kindleQueueSlot die => decide (die < 8)
  | .triadSettled die => decide (die < 8)
  | .coarseSearchDone c _ _ _ _ _ => decide (c < 1056)
  | .calPassDone c _ => decide (c < 1056)
  | .dclkLoss => true
  | .dclkAbsentTimeout => true
  | .draughtSourceReturn _ => true
  | .recoveredClockLoss _ => true
  | .oscillatorTrim => true
  | .tempCompensation die _ => decide (die < 8)
  | .ovpOpen _ _ => true
  | .ovpClose _ => true
  | .cmxEntry _ _ => true
  | .conversion n _ _ _ _ => decide (n < 256)
  | .flushExpiry q => decide (q < 262144)
  | .engineJob e => decide (e.die < 8) && decide (e.lane < 16)
  | .flueTransfer die _ => decide (die < 8)
  | .dieKeepaliveTimeout die => decide (die < 8)
  | .seqCommitEffective n => decide (n < 256)
  | .triggerArrival => true
  | .runStart n => decide (n < 256)
  | .runEnd n => decide (n < 256)
  | .limitEpisodeStart n => decide (n < 256)
  | .limitEpisodeEnd n => decide (n < 256)
  | .foldBack n => decide (n < 256)
  | .hizStep n => decide (n < 256)
  | .forceRetry n => decide (n < 256)
  | .retryOk n => decide (n < 256)
  | .retryCountReset n => decide (n < 256)
  | .contention n _ => decide (n < 256)
  | .rampDownDone n => decide (n < 256)
  | .loopbackLevelDone n _ => decide (n < 256)
  | .swapInstant n c => decide (n < 256) && decide (c < 2)
  | .swapComplete n c => decide (n < 256) && decide (c < 2)
  | .syncPinEdge _ => true
  | .syncAct => true
  | .syncDone _ => true
  | .trackingDone g => decide (g < 32)
  | .handBackDone g => decide (g < 32)
  | .handoverTimeout g => decide (g < 32)
  | .rollingStep g => decide (g < 32)
  | .faultSubstitution g => decide (g < 32)
  | .rowBurnDone die _ => decide (die < 8)
  | .portWordArrival sv p _ => decide (sv < 32) && decide (p < 16)
  | .alignWaitTimeout sv i0 => decide (sv < 32) && decide (i0 < 8)
  | .lawRunStart sv => decide (sv < 32)
  | .trapCycles sv _ => decide (sv < 32)
  | .cacheFillDone sv _ => decide (sv < 32)
  | .svNop sv => decide (sv < 32)
  | .svAdd sv a b c => decide (sv < 32) && decide (a < 32) && decide (b < 32) && decide (c < 32)
  | .svSub sv a b c => decide (sv < 32) && decide (a < 32) && decide (b < 32) && decide (c < 32)
  | .svAdds sv a b c => decide (sv < 32) && decide (a < 32) && decide (b < 32) && decide (c < 32)
  | .svSubs sv a b c => decide (sv < 32) && decide (a < 32) && decide (b < 32) && decide (c < 32)
  | .svAnd sv a b c => decide (sv < 32) && decide (a < 32) && decide (b < 32) && decide (c < 32)
  | .svOr sv a b c => decide (sv < 32) && decide (a < 32) && decide (b < 32) && decide (c < 32)
  | .svXor sv a b c => decide (sv < 32) && decide (a < 32) && decide (b < 32) && decide (c < 32)
  | .svShl sv a b c => decide (sv < 32) && decide (a < 32) && decide (b < 32) && decide (c < 32)
  | .svShr sv a b c => decide (sv < 32) && decide (a < 32) && decide (b < 32) && decide (c < 32)
  | .svSra sv a b c => decide (sv < 32) && decide (a < 32) && decide (b < 32) && decide (c < 32)
  | .svMul sv a b c => decide (sv < 32) && decide (a < 32) && decide (b < 32) && decide (c < 32)
  | .svMulh sv a b c => decide (sv < 32) && decide (a < 32) && decide (b < 32) && decide (c < 32)
  | .svSin sv a imm => decide (sv < 32) && decide (a < 32) && decide (imm < 65536)
  | .svSseq sv a imm => decide (sv < 32) && decide (a < 32) && decide (imm < 65536)
  | .svStim sv a imm => decide (sv < 32) && decide (a < 32) && decide (imm < 65536)
  | .svAddi sv a b imm => decide (sv < 32) && decide (a < 32) && decide (b < 32) && decide (imm < 65536)
  | .svAndi sv a b imm => decide (sv < 32) && decide (a < 32) && decide (b < 32) && decide (imm < 65536)
  | .svOri sv a b imm => decide (sv < 32) && decide (a < 32) && decide (b < 32) && decide (imm < 65536)
  | .svLui sv a imm => decide (sv < 32) && decide (a < 32) && decide (imm < 65536)
  | .svShli sv a b imm => decide (sv < 32) && decide (a < 32) && decide (b < 32) && decide (imm < 65536)
  | .svShri sv a b imm => decide (sv < 32) && decide (a < 32) && decide (b < 32) && decide (imm < 65536)
  | .svSrai sv a b imm => decide (sv < 32) && decide (a < 32) && decide (b < 32) && decide (imm < 65536)
  | .svSrr sv a imm => decide (sv < 32) && decide (a < 32) && decide (imm < 65536)
  | .svSrw sv a imm => decide (sv < 32) && decide (a < 32) && decide (imm < 65536)
  | .svLoopStep sv a imm => decide (sv < 32) && decide (a < 32) && decide (imm < 65536)
  | .svLctlHold sv a imm => decide (sv < 32) && decide (a < 32) && decide (imm < 65536)
  | .svLctlResume sv a imm => decide (sv < 32) && decide (a < 32) && decide (imm < 65536)
  | .svLw sv a b imm => decide (sv < 32) && decide (a < 32) && decide (b < 32) && decide (imm < 65536)
  | .svSw sv a b imm => decide (sv < 32) && decide (a < 32) && decide (b < 32) && decide (imm < 65536)
  | .svBeq sv a b imm => decide (sv < 32) && decide (a < 32) && decide (b < 32) && decide (imm < 65536)
  | .svBne sv a b imm => decide (sv < 32) && decide (a < 32) && decide (b < 32) && decide (imm < 65536)
  | .svBlt sv a b imm => decide (sv < 32) && decide (a < 32) && decide (b < 32) && decide (imm < 65536)
  | .svBge sv a b imm => decide (sv < 32) && decide (a < 32) && decide (b < 32) && decide (imm < 65536)
  | .svJal sv a imm => decide (sv < 32) && decide (a < 32) && decide (imm < 65536)
  | .svJr sv a => decide (sv < 32) && decide (a < 32)
  | .svClamp sv a b c => decide (sv < 32) && decide (a < 32) && decide (b < 32) && decide (c < 32)
  | .svRlim sv a b c => decide (sv < 32) && decide (a < 32) && decide (b < 32) && decide (c < 32)
  | .svTint sv a b c => decide (sv < 32) && decide (a < 32) && decide (b < 32) && decide (c < 32)
  | .svCrc sv a b imm => decide (sv < 32) && decide (a < 32) && decide (b < 32) && decide (imm < 65536)
  | .svMacc sv a b c => decide (sv < 32) && decide (a < 32) && decide (b < 32) && decide (c < 32)
  | .svMsub sv a b c => decide (sv < 32) && decide (a < 32) && decide (b < 32) && decide (c < 32)
  | .svAclr sv a => decide (sv < 32) && decide (a < 32)
  | .svAld sv a b c => decide (sv < 32) && decide (a < 32) && decide (b < 32) && decide (c < 32)
  | .svArd sv a b imm => decide (sv < 32) && decide (a < 32) && decide (b < 32) && decide (imm < 65536)
  | .svFout sv a imm => decide (sv < 32) && decide (a < 32) && decide (imm < 65536)
  | .svMsg sv a imm => decide (sv < 32) && decide (a < 32) && decide (imm < 65536)
  | .svQrec sv a imm => decide (sv < 32) && decide (a < 32) && decide (imm < 65536)
  | .svTripr sv a => decide (sv < 32) && decide (a < 32)
  | .svTrg sv => decide (sv < 32)
  | .svEvt sv a => decide (sv < 32) && decide (a < 32)
  | .svFadd sv a b c => decide (sv < 32) && decide (a < 32) && decide (b < 32) && decide (c < 32)
  | .svFsub sv a b c => decide (sv < 32) && decide (a < 32) && decide (b < 32) && decide (c < 32)
  | .svFmul sv a b c => decide (sv < 32) && decide (a < 32) && decide (b < 32) && decide (c < 32)
  | .svFma sv a b c => decide (sv < 32) && decide (a < 32) && decide (b < 32) && decide (c < 32)
  | .svFmin sv a b c => decide (sv < 32) && decide (a < 32) && decide (b < 32) && decide (c < 32)
  | .svFmax sv a b c => decide (sv < 32) && decide (a < 32) && decide (b < 32) && decide (c < 32)
  | .svFabs sv a b => decide (sv < 32) && decide (a < 32) && decide (b < 32)
  | .svFneg sv a b => decide (sv < 32) && decide (a < 32) && decide (b < 32)
  | .svFcmp sv a b c x => decide (sv < 32) && decide (a < 32) && decide (b < 32) && decide (c < 32) && decide (x < 4)
  | .svPsreq sv a => decide (sv < 32) && decide (a < 32)
  | .svFdiv sv a b c => decide (sv < 32) && decide (a < 32) && decide (b < 32) && decide (c < 32)
  | .svFsqrt sv a b => decide (sv < 32) && decide (a < 32) && decide (b < 32)
  | .svFcvtsw sv a b imm => decide (sv < 32) && decide (a < 32) && decide (b < 32) && decide (imm < 65536)
  | .svFcvtws sv a b imm => decide (sv < 32) && decide (a < 32) && decide (b < 32) && decide (imm < 65536)
  | .svEnd sv => decide (sv < 32)
  | .svIllegal sv op => decide (sv < 32) && decide (op < 64)
  | .loopCommandAct sv => decide (sv < 32)
  | .psOpStart k => decide (k < 16)
  | .xipHoldTimeout k => decide (k < 16)
  | .psOpDone k _ => decide (k < 16)
  | .pairInstant n => decide (n < 64)
  | .pairStart n => decide (n < 64)
  | .periodicRecord => true
  | .meterRecordDone _ => true
  | .meterRestoreDone => true
  | .pcieLinkUp _ _ => true
  | .dlDown => true
  | .hotReset => true
  | .pciePerstNAssert => true
  | .pciePerstNRelease => true
  | .flr fn => decide (fn < 9)
  | .flrDone fn => decide (fn < 9)
  | .vfEnable _ _ _ => true
  | .linkRetrainDone _ _ => true
  | .hostReadCompletion qid _ => decide (qid < 262144)
  | .completionTimeout qid => decide (qid < 262144)
  | .doorbell fn qid _ _ _ _ => decide (fn < 9) && decide (qid < 262144)
  | .commandFetch qid _ => decide (qid < 262144)
  | .entryWrite qid _ => decide (qid < 262144)
  | .damperTick => true
  | .invalidationEnd => true
  | .msixModTimer fn v => decide (fn < 9) && decide (v < 256)
  | .msixUnmask fn v => decide (fn < 9) && decide (v < 256)
  | .admqEnSet fn v => decide (fn < 9) && decide (v < 256)
  | .admqEnClear fn => decide (fn < 9)
  | .fnCtrlEn fn _ => decide (fn < 9)
  | .tlbInv fn => decide (fn < 9)
  | .devTimeLoRead fn => decide (fn < 9)
  | .faultTimeLoRead => true
  | .clrBarErr => true
  | .clrRetrain => true
  | .clrDbPf => true
  | .clrDbVf k => decide (k < 8)
  | .retrain => true
  | .resetArm _ => true
  | .resetArmExpiry => true
  | .resetGo => true
  | .registerWrite fn _ _ _ _ => decide (fn < 9)
  | .linkUp _ _ _ _ => true
  | .linkDown _ _ _ _ => true
  | .rxTirwin src _ _ => decide (src < 64)
  | .rxLinkFault src fseq _ _ => decide (src < 64) && decide (fseq < 4294967296)
  | .rxTime _ _ _ _ => true
  | .rxDelayReq _ _ _ => true
  | .rxDelayResp _ _ _ _ => true
  | .rxSync fseq _ _ => decide (fseq < 4294967296)
  | .rxTrigger src fseq channel _ => decide (src < 64) && decide (fseq < 4294967296) && decide (channel < 1024)
  | .rxPlan fseq _ _ _ _ => decide (fseq < 4294967296)
  | .rxPrompt _ _ => true
  | .rxMessage src fseq channel _ => decide (src < 64) && decide (fseq < 4294967296) && decide (channel < 1024)
  | .rxPacked _ _ => true
  | .rxCmd src tag c => decide (src < 64) && decide (tag < 4294967296) && frameWf c
  | .rxCpl src tag _ _ _ _ _ _ => decide (src < 64) && decide (tag < 4294967296)
  | .rxEvent src tag _ _ _ _ _ _ => decide (src < 64) && decide (tag < 4294967296)
  | .rxAck src tag => decide (src < 64) && decide (tag < 4294967296)
  | .rxNumber tag _ _ => decide (tag < 4294967296)
  | .rxCapture src qid _ => decide (src < 64) && decide (qid < 262144)
  | .rxLog src _ _ => decide (src < 64)
  | .timeSend => true
  | .delayReqSend _ => true
  | .packedSendTimeout => true
  | .timeLossTimeout => true
  | .resendTimeout => true
  | .commandWaitTimeout => true
  | .formationEnd _ => true
  | .insertionTimeout => true
  | .joinOffer => true
  | .joinTime => true
  | .joinTimeout => true
  | .planSwitch => true
  | .routeHoldEnd => true
  | .sessionTimeout => true
  | .lockoutEnd => true
  | .lockoutRecordWrite => true
  | .changeLogEntryDone _ => true
  | .heartbeatTimer c => decide (c < 64)
  | .pduHoldRelease c => decide (c < 64)
  | .tirwinExpiry c => decide (c < 64)
  | .tripLoopChange range => decide (range < 3)
  | .tripLoopDebounce => true
  | .minPulseEnd => true
  | .faultDetection _ => true
  | .reactionDone _ => true
  | .shadowEnd _ => true
  | .tripLineSelfTest die _ => decide (die < 8)
  | .injectTimeout => true
  | .ramLogWrite => true
  | .tokenRefill => true
  | .gaugeRead die i0 _ => decide (die < 8) && decide (i0 < 16)
  | .hourlyMean => true
  | .scheduledReplan => true
  | .replanDone => true
  | .devIdentify r => reqWf r
  | .feConfig r => reqWf r
  | .feGroupConfig r => reqWf r
  | .feStatus r => reqWf r
  | .feClearCounts r => reqWf r
  | .coreStatus r => reqWf r
  | .coreClearCounts r => reqWf r
  | .tileMode r => reqWf r
  | .seqSlots r => reqWf r
  | .seqCommit r => reqWf r
  | .seqArm r => reqWf r
  | .seqTrigger r => reqWf r
  | .seqStatus r => reqWf r
  | .tcConfig r => reqWf r
  | .tcReset r => reqWf r
  | .tcStatus r => reqWf r
  | .filtConfig r => reqWf r
  | .filtCoef r => reqWf r
  | .filtAdmit r => reqWf r
  | .filtStatus r => reqWf r
  | .filtSwap r => reqWf r
  | .filtPreset r => reqWf r
  | .filtDcb r => reqWf r
  | .filtDcbRead r => reqWf r
  | .filtSync r => reqWf r
  | .calConfig r => reqWf r
  | .calRun r => reqWf r
  | .calStatus r => reqWf r
  | .calRowBurn r => reqWf r
  | .calRowRead r => reqWf r
  | .calSubst r => reqWf r
  | .forceConfig r => reqWf r
  | .forceTarget r => reqWf r
  | .forceRestart r => reqWf r
  | .forceStatus r => reqWf r
  | .forceLoopback r => reqWf r
  | .stoveLoad r => reqWf r
  | .lawConfig r => reqWf r
  | .stoveBind r => reqWf r
  | .stoveConfig r => reqWf r
  | .stoveCtrl r => reqWf r
  | .stoveStatus r => reqWf r
  | .loopConfig r => reqWf r
  | .loopMode r => reqWf r
  | .loopSet r => reqWf r
  | .loopStatus r => reqWf r
  | .meterPair r => reqWf r
  | .meterCtrl r => reqWf r
  | .meterRead r => reqWf r
  | .queueCreate r => reqWf r
  | .queueDestroy r => reqWf r
  | .queueBind r => reqWf r
  | .queueStatus r => reqWf r
  | .lmapInval r => reqWf r
  | .ringConfig r => reqWf r
  | .ringStatus r => reqWf r
  | .ringBypass r => reqWf r
  | .ringTrigger r => reqWf r
  | .sessionOpen r => reqWf r
  | .sessionClose r => reqWf r
  | .rolePassword r => reqWf r
  | .makerChallenge r => reqWf r
  | .hearthAssign r => reqWf r
  | .hearthShares r => reqWf r
  | .chainGrant r => reqWf r
  | .hearthSeal r => reqWf r
  | .hearthStatus r => reqWf r
  | .clogRead r => reqWf r
  | .clogArchive r => reqWf r
  | .safeConfig r => reqWf r
  | .safeConn r => reqWf r
  | .safeArm r => reqWf r
  | .safeStatus r => reqWf r
  | .tirwinPut r => reqWf r
  | .faultConfig r => reqWf r
  | .faultRead r => reqWf r
  | .faultClear r => reqWf r
  | .faultInject r => reqWf r
  | .evlogRead r => reqWf r
  | .devReset r => reqWf r
  | .ageReplan r => reqWf r
  | .ageStatus r => reqWf r
  | .agePlanRead r => reqWf r
  | .ageApply r => reqWf r
  | .psRead r => reqWf r
  | .psProgram r => reqWf r
  | .psErase r => reqWf r
  | .psStatus r => reqWf r
  | .forceUpdate n => decide (n < 256)
  | .linkRetrainStart => true
  | .unknownFrameType f =>
    match f.fails with
    | none => true
    | some x => decide (x.hops < 64) && decide (x.src < 64) && decide (x.cls < 8) && decide (x.type < 32)
      && (match x.dst with
        | some n => decide (n < 64)
        | none => true)
  | .malformedBarRead fn => decide (fn < 9)
  | .faultManagerSelfTest _ => true
  | .flashLogRecordDone _ => true
  | .powerFailRegionErased => true
  | .fallbackMoveTimeout => true

end Sys2Proof
end

