-- ==== Sys2Proof/Safety.lean ====
section
/-! DEFINITION. What the statements speak of: the canonical form of the byte memories, what a command leaves alone, when nothing holds
a host command back, and how one that is accepted takes effect. -/

set_option Elab.async false

namespace Sys2Proof.Machine

/-! ### Invariants -/

/-- Every addressed memory of a stove is in canonical form (R278). -/
def Stove.memOk (v : Stove) : Bool := memWf 0 v.isram && memWf 0 v.dsram

/-- Every byte memory of the state is in canonical form: the stoves' SRAM, their copies in the seal images, the program store. -/
def State.memOk (s : State) : Bool :=
  s.stoveTab.all (fun e => e.2.memOk)
  && s.sealImages.all (fun e => e.2.stoves.all (fun v => v.2.memOk))
  && s.ps.all (fun e => memWf 0xFF e.2.cells)

/-! ### What a host command leaves alone -/

/-- The units behind the host interface: the state without the host's queues, the ring, the sessions, the change log, the counter of
free values and the waiting commands, and without the reports that a read of host memory has failed (R359). -/
def State.units (s : State) : State :=
  { s with
    host := {}, ring := {}, roles := {}, clog := {}, fresh := 0, pending := []
    faults := { s.faults with reports := s.faults.reports.filter (fun x => x.1 ≠ 0x1D) } }

/-! ### When a host command acts (R388, R390, R466, R479, R605) -/

/-- The state in which the checks of a request are made: it is fetched no longer, and its session is kept open (R467). -/
def State.taken (s : State) (r : Req) : State :=
  ({ s with host := { s.host with fetched := s.host.fetched.erase (r.qid, r.entry) } }).touchSession r

/-- Nothing holds the request of a command back: the node is out of reset and has a host for it, its function has not been reset since it
was fetched, it is not behind another of its queue, none of its queue waits, nothing in hand names what it names, FENCE has nothing to wait for, the change log has room to stage, and it is for this node (R388, R390). -/
def CmdSpec.starts (p : CmdSpec) (r : Req) (s : State) : Bool :=
  !s.node.inReset && !(s.isWorker && r.origin = .ring) && !s.outOfTurn r && decide (s.claim r = r) && decide (r.opcode = p.opcode)
  && !(r.origin = .ring && s.host.waiting.any (fun e => e.1.origin = .ring && e.1.qid = r.qid))
  && !(if r.u 4 0 6 = 0 || r.origin ≠ .ring then p.names r else queueNames p r).any (fun n => s.namesInHand.contains n)
  && !(r.b 6 0 && s.queueInHand r.qid) && decide (s.clog.staging.length < 16)
  && !(s.isManager && r.origin = .ring && r.u 4 0 6 ≠ 0 && p.node = .forward)

/-- The conditions that could refuse a command, with their statuses: the header's, then its own table's. -/
def CmdSpec.checks (p : CmdSpec) (r : Req) (s : State) : List (Bool × Status) :=
  (s.taken r).headerRefusals p r ++ p.refuse r (((s.taken r).who r).getD { right := 0, sess := 0, serial := 0 }).right (s.taken r)

/-- Who an admitted command acts as, and the state it acts on: taken, and its host addresses translated (R401). None where the command
is held back or refused. -/
def CmdSpec.admits (p : CmdSpec) (r : Req) (s : State) : Option (Who × State) :=
  if !p.starts r s then none
  else match (s.taken r).who r, pickStatus (p.checks r s), (s.taken r).mapData r (p.data r (s.taken r)) with
    | some w, none, (t, true) => some (w, t)
    | _, _, _ => none

/-- The command must be entered in the change log: one of an installer or maker session, or one that the log names (R477). -/
def CmdSpec.logs (p : CmdSpec) (r : Req) (w : Who) (t : State) : Bool := w.sess ≠ 0 || p.opLogged r t

/-- The change log has room for its entry (R480). -/
def CmdSpec.room (p : CmdSpec) (r : Req) (w : Who) (t : State) : Bool :=
  if w.sess = 1 then decide (t.clogUsed < 4080)
  else if w.sess = 2 then decide (t.clogUsed < 4096) || p.opcode = 0x0B0B
  else decide (t.clogUsed < (if r.opcode = 0x0B01 && r.u 16 0 2 = 2 then 4096 else 4080))

/-- The state on which an admitted command acts at once: no entry is due before it acts. -/
def CmdSpec.actsNow (p : CmdSpec) (r : Req) (s : State) : Option State :=
  match p.admits r s with
  | some (w, t) => if !p.logs r w t || ((p.endLogged || p.opcode = 0x0B0B) && p.room r w t) then some t else none
  | none => none

/-- The entry that an admitted command is staged with, and the state it waits in: nothing else is staged and bank 1 of the lead die
has nothing to do, the log has room, no power-fail sequence runs. -/
def CmdSpec.actsLogged (p : CmdSpec) (r : Req) (s : State) : Option (ClogStaged × State) :=
  match p.admits r s with
  | some (w, t) =>
    if p.logs r w t && p.room r w t && !p.endLogged && p.opcode ≠ 0x0B0B && t.clog.staging.isEmpty && t.logs.bank1.isEmpty
      && t.node.pfStage = PfStage.none
    then some (t.clogEntry r w .ok p (.command r), t) else none
  | none => none

/-- The command `i` of p that acts at once answers the state `eff` makes of the one it acts on. -/
def CmdSpec.Acts (p : CmdSpec) (i : Instr) (r : Req) (s : State) (eff : State → State) : Prop :=
  ∀ t, p.actsNow r s = some t → exec i s = .next (eff t)

/-- The command `i` of p that must be entered first answers a state in which its entry waits; when that entry is programmed, the block
answers the state `eff` makes of the one with the entry in the log (R479). -/
def CmdSpec.ActsLogged (p : CmdSpec) (i : Instr) (r : Req) (s : State) (eff : State → State) : Prop :=
  ∀ e t, p.actsLogged r s = some (e, t) →
    exec i s = .next (t.stage e) ∧ exec (.changeLogEntryDone true) (t.stage e) = .next (eff (t.clogAppend e))

/-- Either way. -/
def CmdSpec.Does (p : CmdSpec) (i : Instr) (r : Req) (s : State) (eff : State → State) : Prop :=
  p.Acts i r s eff ∧ p.ActsLogged i r s eff

/-! ### Groups of host commands -/

/-- The request of a host command, and the command's entry in the table. -/
def commandOf (i : Instr) : Option (Req × CmdSpec) :=
  match i with
  | .devIdentify r => some (r, devIdentifySpec)
  | .feConfig r => some (r, feConfigSpec)
  | .feGroupConfig r => some (r, feGroupConfigSpec)
  | .feStatus r => some (r, feStatusSpec)
  | .feClearCounts r => some (r, feClearCountsSpec)
  | .coreStatus r => some (r, coreStatusSpec)
  | .coreClearCounts r => some (r, coreClearCountsSpec)
  | .tileMode r => some (r, tileModeSpec)
  | .seqSlots r => some (r, seqSlotsSpec)
  | .seqCommit r => some (r, seqCommitSpec)
  | .seqArm r => some (r, seqArmSpec)
  | .seqTrigger r => some (r, seqTriggerSpec)
  | .seqStatus r => some (r, seqStatusSpec)
  | .tcConfig r => some (r, tcConfigSpec)
  | .tcReset r => some (r, tcResetSpec)
  | .tcStatus r => some (r, tcStatusSpec)
  | .filtConfig r => some (r, filtConfigSpec)
  | .filtCoef r => some (r, filtCoefSpec)
  | .filtAdmit r => some (r, filtAdmitSpec)
  | .filtStatus r => some (r, filtStatusSpec)
  | .filtSwap r => some (r, filtSwapSpec)
  | .filtPreset r => some (r, filtPresetSpec)
  | .filtDcb r => some (r, filtDcbSpec)
  | .filtDcbRead r => some (r, filtDcbReadSpec)
  | .filtSync r => some (r, filtSyncSpec r)
  | .calConfig r => some (r, calConfigSpec)
  | .calRun r => some (r, calRunSpec)
  | .calStatus r => some (r, calStatusSpec)
  | .calRowBurn r => some (r, calRowBurnSpec)
  | .calRowRead r => some (r, calRowReadSpec)
  | .calSubst r => some (r, calSubstSpec)
  | .forceConfig r => some (r, forceConfigSpec)
  | .forceTarget r => some (r, forceTargetSpec)
  | .forceRestart r => some (r, forceRestartSpec)
  | .forceStatus r => some (r, forceStatusSpec)
  | .forceLoopback r => some (r, forceLoopbackSpec)
  | .stoveLoad r => some (r, stoveLoadSpec)
  | .lawConfig r => some (r, lawConfigSpec)
  | .stoveBind r => some (r, stoveBindSpec)
  | .stoveConfig r => some (r, stoveConfigSpec)
  | .stoveCtrl r => some (r, stoveCtrlSpec)
  | .stoveStatus r => some (r, stoveStatusSpec)
  | .loopConfig r => some (r, loopConfigSpec)
  | .loopMode r => some (r, loopModeSpec)
  | .loopSet r => some (r, loopSetSpec)
  | .loopStatus r => some (r, loopStatusSpec)
  | .meterPair r => some (r, meterPairSpec)
  | .meterCtrl r => some (r, meterCtrlSpec)
  | .meterRead r => some (r, meterReadSpec)
  | .queueCreate r => some (r, queueCreateSpec)
  | .queueDestroy r => some (r, queueDestroySpec)
  | .queueBind r => some (r, queueBindSpec)
  | .queueStatus r => some (r, queueStatusSpec)
  | .lmapInval r => some (r, lmapInvalSpec)
  | .ringConfig r => some (r, ringConfigSpec)
  | .ringStatus r => some (r, ringStatusSpec)
  | .ringBypass r => some (r, ringBypassSpec)
  | .ringTrigger r => some (r, ringTriggerSpec)
  | .sessionOpen r => some (r, sessionOpenSpec)
  | .sessionClose r => some (r, sessionCloseSpec)
  | .rolePassword r => some (r, rolePasswordSpec)
  | .makerChallenge r => some (r, makerChallengeSpec)
  | .hearthAssign r => some (r, hearthAssignSpec)
  | .hearthShares r => some (r, hearthSharesSpec)
  | .chainGrant r => some (r, chainGrantSpec)
  | .hearthSeal r => some (r, hearthSealSpec)
  | .hearthStatus r => some (r, hearthStatusSpec)
  | .clogRead r => some (r, clogReadSpec)
  | .clogArchive r => some (r, clogArchiveSpec)
  | .safeConfig r => some (r, safeConfigSpec)
  | .safeConn r => some (r, safeConnSpec)
  | .safeArm r => some (r, safeArmSpec)
  | .safeStatus r => some (r, safeStatusSpec)
  | .tirwinPut r => some (r, tirwinPutSpec)
  | .faultConfig r => some (r, faultConfigSpec)
  | .faultRead r => some (r, faultReadSpec)
  | .faultClear r => some (r, faultClearSpec)
  | .faultInject r => some (r, faultInjectSpec)
  | .evlogRead r => some (r, evlogReadSpec)
  | .devReset r => some (r, devResetSpec)
  | .ageReplan r => some (r, ageReplanSpec)
  | .ageStatus r => some (r, ageStatusSpec)
  | .agePlanRead r => some (r, agePlanReadSpec)
  | .ageApply r => some (r, ageApplySpec)
  | .psRead r => some (r, psReadSpec)
  | .psProgram r => some (r, psProgramSpec)
  | .psErase r => some (r, psEraseSpec)
  | .psStatus r => some (r, psStatusSpec)
  | _ => none

/-- A command that reads a record and changes no unit. -/
def isStatusRead (i : Instr) : Bool :=
  match i with
  | .devIdentify _ | .feStatus _ | .coreStatus _ | .seqStatus _ | .tcStatus _ | .filtStatus _ | .filtDcbRead _ | .calStatus _
  | .calRowRead _ | .forceStatus _ | .stoveStatus _ | .meterRead _ | .queueStatus _ | .ringStatus _ | .hearthStatus _ | .clogRead _
  | .evlogRead _ | .ageStatus _ | .agePlanRead _ | .psStatus _ => true
  | _ => false

/-- A command that changes one tile, the one at offset 16. -/
def isTileCommand (i : Instr) : Bool :=
  match i with
  | .feConfig _ | .seqSlots _ | .tcReset _ | .filtCoef _ | .filtAdmit _ | .filtDcb _ | .forceConfig _ | .forceTarget _ | .forceRestart _ => true
  | _ => false

/-- What the action of a command leaves stands to what it acted on as F says, at once or behind its entry. -/
def CmdSpec.Frames (p : CmdSpec) (i : Instr) (r : Req) (s : State) (F : State → State → Prop) : Prop :=
  (∀ t, p.actsNow r s = some t → ∃ u, exec i s = .next u ∧ F t u)
  ∧ (∀ e t, p.actsLogged r s = some (e, t) →
    ∃ u, exec (.changeLogEntryDone true) (t.stage e) = .next u ∧ F (t.clogAppend e) u)

/-! ### When a stove runs an instruction (R281, R282, R288, R292) -/

/-- The run x of stove sv stands at instruction i: the stove exists, is not stalled and not fenced, MAX_CYCLES is not reached, and the
word at the pc is i's. -/
def State.issues (s : State) (sv : Nat) (i : Instr) (x : Run) : Prop :=
  sv < s.nStoves ∧ (s.stove sv).run = some x ∧ x.stalled = false ∧ s.stoveFenced sv = false
  ∧ x.cycle < ((s.stove sv).law x.law).maxCycles ∧ stoveDecode sv (s.fetchWord sv x.pc) = i

/-- The stove and the register of an instruction that writes one register and traps on no operand of its own. -/
def registerOp (i : Instr) : Option (Nat × Nat) :=
  match i with
  | .svAdd sv a _ _ | .svSub sv a _ _ | .svAdds sv a _ _ | .svSubs sv a _ _ | .svAnd sv a _ _ | .svOr sv a _ _ | .svXor sv a _ _
  | .svShl sv a _ _ | .svShr sv a _ _ | .svSra sv a _ _ | .svMul sv a _ _ | .svMulh sv a _ _ => some (sv, a)
  | .svAddi sv a _ _ | .svAndi sv a _ _ | .svOri sv a _ _ | .svLui sv a _ | .svShli sv a _ _ | .svShri sv a _ _ | .svSrai sv a _ _ => some (sv, a)
  | .svSrr sv a _ | .svClamp sv a _ _ | .svRlim sv a _ _ | .svCrc sv a _ _ | .svArd sv a _ _ => some (sv, a)
  | .svFadd sv a _ _ | .svFsub sv a _ _ | .svFmul sv a _ _ | .svFma sv a _ _ | .svFmin sv a _ _ | .svFmax sv a _ _ | .svFabs sv a _
  | .svFneg sv a _ | .svFdiv sv a _ _ | .svFsqrt sv a _ | .svFcvtsw sv a _ _ | .svFcvtws sv a _ _ => some (sv, a)
  | _ => none

/-- Two states that differ in the stoves and the counter of free values at most. -/
def State.sameButStoves (s t : State) : Prop := { t with stoveTab := [], fresh := 0 } = { s with stoveTab := [], fresh := 0 }

/-- Instruction of the run x done after `cyc` cycles: its flags are kept in STICKY; a flag that TRAP_MASK selects traps, else the run goes
on at pc, and the fetch there begins (R283, R292). -/
def State.retires (s : State) (sv : Nat) (x : Run) (flags cyc pc : Nat) : State :=
  let t := s.modStove sv (fun v => { v with sticky := v.sticky ||| flags })
  if flags &&& (t.stove sv).trapMask ≠ 0 then t.trapRun sv 6
  else (t.modStove sv (fun v => { v with run := v.run.map (fun y => { y with pc := pc, cycle := x.cycle + cyc }) })).beginFetch sv

/-- Done without a flag; the run goes on at the next word. -/
def State.goesNext (s : State) (sv : Nat) (x : Run) (cyc : Nat) : State := s.retires sv x 0 cyc ((x.pc + 4) % 2 ^ 32)

/-- sa becomes r; done in `cyc` cycles without a flag. -/
def State.yields (s : State) (sv : Nat) (x : Run) (a r cyc : Nat) : State :=
  (s.modStove sv (fun v => v.setReg a r)).goesNext sv x cyc

/-- sa becomes the value of r, which sets r's flags. -/
def State.yieldsFlags (s : State) (sv : Nat) (x : Run) (a : Nat) (r : Nat × Nat) (cyc : Nat) : State :=
  (s.modStove sv (fun v => v.setReg a r.1)).retires sv x r.2 cyc ((x.pc + 4) % 2 ^ 32)

end Sys2Proof.Machine
end

