-- ==== Sys2Proof/Certificates/Slice0/Obligations.lean ====
section
/-! DEFINITION. The statements for the provers. A command's request stands in r; what it acts on, at once or behind its change-log entry, in u. -/

set_option Elab.async false

open Sys2Proof Sys2Proof.Machine

/-- A step takes the command at the front of the queue and executes it with the queue's rest. -/
def Obligations.StepRunsFront : Prop :=
  ∀ (c : Instr) (rest : List Instr) (s : State),
    step { s with pending := c :: rest } = exec c { s with pending := rest }

/-- Front-end and core commands (R81 to R85, R113, R114, R622, R623): DEV_IDENTIFY, FE_STATUS and CORE_STATUS write their 64 B record to
RESULT_ADDR and change no unit; FE_CONFIG, FE_GROUP_CONFIG, FE_CLEAR_COUNTS and CORE_CLEAR_COUNTS, entered in the change log first, write
the fields named here and no other; what FE_CONFIG and FE_GROUP_CONFIG write takes effect at the next draught edge (R86). TILE_MODE
(R121, R148): a tile out of OFF waits in the kindling queue of its die, every other change for the next draught edge. There a ramp-down
begins (the tile takes other commands meanwhile), or the tile enters the mode, an output that cannot drive with its switches open, and
the command ends, but for a MEASURED start. -/
def Obligations.FrontEndCommands : Prop :=
   (∀ (r : Req) (s : State),
      devIdentifySpec.Does (.devIdentify r) r s (fun u => (u.writeResult r (r.u 24 0 64) 64 u.identity).finish r .ok 0)
      ∧ feStatusSpec.Does (.feStatus r) r s (fun u => (u.writeResult r (r.u 24 0 64) 64 (u.feRecord (r.u 16 0 16))).finish r .ok 0)
      ∧ coreStatusSpec.Does (.coreStatus r) r s (fun u => (u.writeResult r (r.u 24 0 64) 64 (u.coreRecord (r.u 16 0 16))).finish r .ok 0)
      ∧ feConfigSpec.ActsLogged (.feConfig r) r s (fun u =>
          { u with due := u.due ++ [EdgeAct.fe (r.u 16 0 16) (r.u 18 0 2) (r.u 18 2 2) (r.b 18 4) (r.b 18 5)] }.finish r .ok 0)
      ∧ feGroupConfigSpec.ActsLogged (.feGroupConfig r) r s (fun u =>
          { u with due := u.due ++ [EdgeAct.feGroup (r.u 16 0 8) (r.u 17 0 4) ((List.range 8).map (fun k =>
            (k, { owner := r.u (20 + k) 0 3, ovpEv := r.b (20 + k) 3, cmxEv := r.b (20 + k) 4, valid := r.b (20 + k) 7 })))] }.finish r .ok 0)
      ∧ (∀ (n g chop refsel aux : Nat) (cmxEv ovpEv : Bool) (pos : Tab AuxPos),
          s.edgeAct (.fe n chop refsel cmxEv ovpEv) = s.modTile n (fun t => { t with fe := { t.fe with
            chop := chop, refsel := refsel, cmxEv := cmxEv, ovpEv := ovpEv } })
          ∧ s.edgeAct (.feGroup g aux pos) = s.modGroup g (fun x => { x with fe := { x.fe with auxPair := aux, aux := pos } }))
      ∧ feClearCountsSpec.ActsLogged (.feClearCounts r) r s (fun u =>
          let n := r.u 16 0 16
          let v := if r.b 18 0 then
              ((u.clearPin (pinP n)).clearPin (pinN n)).modTile n (fun t =>
                { t with fe := { t.fe with cmxCnt := {}, lastOpen := 0, lastClose := 0 } })
            else u
          let aux := (List.range 8).filter (fun k => r.b 18 1 && bitAt (r.u 19 0 8) k)
          (aux.foldl (fun v k => v.clearPin (pinAux (8 * groupOfTile n + k))) v).finish r .ok 0)
      ∧ coreClearCountsSpec.ActsLogged (.coreClearCounts r) r s (fun u =>
          let v := u.modTile (r.u 16 0 16) (fun t => t.clearCounts r)
          (if r.b 19 0 then { v with sync := { v.sync with miss := {} } } else v).finish r .ok 0))
   ∧(∀ (r : Req) (s : State),
      tileModeSpec.Does (.tileMode r) r s (fun u =>
        let n := r.u 16 0 16
        let m := modeOf (r.u 18 0 2)
        (if (u.tile n).force.mode = .off && m ≠ .off then u.kindleTile n else { u with due := u.due ++ [EdgeAct.mode n m (r.b 18 2)] }).startOp
          { opMark 0x0207 with names := tileNames } n r 0 0)
      ∧ (∀ (n : Nat) (m : TileMode) (ramp : Bool), (s.findOp 0x0207 n).isSome →
        let f := (s.tile n).force
        let down : Bool := f.mode.forcing && !m.forcing && ramp && f.driving
        let e := s.enterMode n m s.edge
        let v := if e.forceOff n then e.forceLost n else e
        (down = true → s.edgeAct (.mode n m ramp) =
          let v := s.modForce n (fun f => { f with ramp := true, rampTo := m })
          { v with host := { v.host with ops := v.host.ops.map (fun o => if o.opcode = 0x0207 && o.key = n then { o with names := [] } else o) } })
        ∧ (down = false → s.edgeAct (.mode n m ramp) =
          if (v.tile n).force.phase = .measuring then v else v.endOp 0x0207 n .ok 0)))

/-- The sequencer commands (R177 to R180): SEQ_SLOTS writes the shadow list alone, reserved bits as zero; SEQ_COMMIT schedules the list
on a converting tile and applies it at once on another; SEQ_ARM arms a burst and, on a converting tile, completes when its run starts; a
SEQ_TRIGGER that the tile does not act on counts and completes with BUSY, another waits for its run; SEQ_STATUS writes its record. The
comparator commands (R175, R181 to R183): a full TC_CONFIG writes every field, releases an asserted comparator it disables, and starts it
in WATCHING or leaves it DISABLED; THRESH_ONLY writes the thresholds and hysteresis and restarts its counts unless it is DISABLED;
TC_RESET asks for a release at the next evaluated word; TC_STATUS writes its record. -/
def Obligations.SequencerCommands : Prop :=
   (∀ (r : Req) (s : State),
      let n := r.u 16 0 16
      seqStatusSpec.Does (.seqStatus r) r s (fun u => (u.writeResult r (r.u 24 0 64) 64 (u.seqRecord n)).finish r .ok 0)
      ∧ seqSlotsSpec.ActsLogged (.seqSlots r) r s (fun u =>
          (u.modSeq n (fun q => { q with
            shadow := (List.range (r.u 19 0 4)).foldl (fun l i => l.set (r.u 18 0 5 + i) (dMask (r.u (20 + 4 * i) 0 32))) q.shadow })).finish r .ok 0)
      ∧ seqCommitSpec.ActsLogged (.seqCommit r) r s (fun u =>
          (if (u.tile n).converting then u.modSeq n (fun q => { q with commit := some (commitOf r u) })
           else u.applyCommit n u.edge (commitOf r u)).finish r .ok 0)
      ∧ seqArmSpec.Does (.seqArm r) r s (fun u =>
          let v := u.modSeq n (fun q => { q with armed := true, rest := none, armEdge := u.seqEdge n (u.edge + 1) })
          if (u.tile n).converting then v.startOp (opMark 0x0303) n r 0 0 else v.finish r .ok 0)
      ∧ seqTriggerSpec.Does (.seqTrigger r) r s (fun u =>
          let v := u.arrive { tile := n, src := 2, at64 := 64 * r.u 24 0 64 }
          if (u.tile n).deaf then v.finish r .busy 0 else v.startOp { opMark 0x0304 with names := tileNames } n r 0 0))
   ∧(∀ (r : Req) (s : State),
      let n := r.u 16 0 16
      let c := r.u 18 0 1
      tcStatusSpec.Does (.tcStatus r) r s (fun u => (u.writeResult r (r.u 24 0 64) 64 (u.tcRecord n)).finish r .ok 0)
      ∧ tcResetSpec.ActsLogged (.tcReset r) r s (fun u => (u.modTc n c (fun x => { x with resetPending := true })).finish r .ok 0)
      ∧ (r.b 18 4 = true → tcConfigSpec.ActsLogged (.tcConfig r) r s (fun u =>
          (u.modTc n c (fun x => { x with
            hi := r.i 20 32, lo := r.i 24 32, hyst := r.u 28 0 16, state := if x.state = .counting then .watching else x.state,
            count := if x.state = .disabled then x.count else 0,
            releaseRun := if x.state = .disabled then x.releaseRun else 0 })).finish r .ok 0))
      ∧ (r.b 18 4 = false → tcConfigSpec.ActsLogged (.tcConfig r) r s (fun u =>
          let v := if ((u.tile n).tc c).state = .asserted && !r.b 18 1 then u.tcReleased n c else u
          ((v.modTc n c (fun x => { x with
            state := if r.b 18 1 then .watching else .disabled, latch := r.b 18 2, disHold := r.b 18 3, slot := r.u 19 0 5,
            hi := r.i 20 32, lo := r.i 24 32, hyst := r.u 28 0 16, persist := r.u 30 0 8, release := r.u 31 0 8,
            actions := r.u 32 0 3, stove := r.u 33 0 5, count := 0, releaseRun := 0, resetPending := false })).tripCheck).finish r .ok 0)))

/-- The filter commands (R207 to R211, R221, R226, R236 to R238). FILT_SYNC (R233, R239): OP 0 schedules a SYNC at its act time and edge
with its reference edge, OP 1 arms the pin with its scope and lead, OP 2 disarms it, OP 3 writes the record. -/
def Obligations.FilterCommands : Prop :=
   (∀ (r : Req) (s : State),
      let n := r.u 16 0 16
      let c := r.u 18 0 1
      filtStatusSpec.Does (.filtStatus r) r s (fun u => (u.writeResult r (r.u 24 0 64) 64 (u.filtRecord n c)).finish r .ok 0)
      ∧ filtDcbReadSpec.Does (.filtDcbRead r) r s (fun u => (u.writeResult r (r.u 24 0 64) 64 (u.dcbRecord n c)).finish r .ok 0)
      ∧ filtConfigSpec.ActsLogged (.filtConfig r) r s (fun u =>
          ((u.modChain n c (fun x =>
            { x.configure (r.u 20 0 10) (r.u 19 0 2) (r.b 18 1) (r.u 22 0 9) with
              fclampEv := r.b 18 2, govfEv := r.b 18 3 })).takePending (dieOfTile n)).finish r .ok 0)
      ∧ filtPresetSpec.ActsLogged (.filtPreset r) r s (fun u =>
          ((u.modChain n c (fun x => x.preset (r.u 19 0 3))).takePending (dieOfTile n)).finish r .ok 0)
      ∧ filtCoefSpec.ActsLogged (.filtCoef r) r s (fun u =>
          (u.modChain n c (fun x => { x with
            shadow := { coefs := (List.range (r.u 21 0 4)).foldl (fun (l : List Int) i => l.set (r.u 20 0 8 + i) (r.i (24 + 3 * i) 24))
                          x.shadow.coefs },
            shadowAdmitted := false })).finish r .ok 0)
      ∧ filtAdmitSpec.ActsLogged (.filtAdmit r) r s (fun u =>
          (u.modChain n c (fun x => { x with
            shadowAdmitted := true, shadow := { x.shadow with unnormed := decide (1073741824 < x.shadow.l1 x.ntaps) } })).finish r .ok 0)
      ∧ filtSwapSpec.Acts (.filtSwap r) r s (fun u =>
          (u.modChain n c (fun x => x.startSwap (max (r.u 24 0 64) u.now))).startOp (opMark 0x0405)
            (chainKey n c) r 0 (u.whoNote r))
      ∧ filtDcbSpec.Does (.filtDcb r) r s (fun u =>
          let x := (u.tile n).chain c
          let v := u.modChain n c (fun x => { x with
            dcbEnable := r.b 18 1, dcbFreeze := r.b 18 2, dcbUns := r.b 18 5, dcbK := r.u 20 0 5 })
          let v := if r.b 18 3 || (r.b 18 1 && !x.dcbEnable) then
              v.modChain n c (fun x => (List.range 32).foldl (fun x i =>
                x.modCtx i (fun z => { z with est := 0, settle := 4 * 2 ^ (r.u 20 0 5) })) x)
            else v
          (if r.b 18 4 then v.modChain n c (fun x => x.modCtx (r.u 19 0 5) (fun z => { z with est := r.i 24 48 })) else v).finish r .ok 0))
   ∧(∀ (r : Req) (s : State),
      (r.u 16 0 2 = 0 → (filtSyncSpec r).ActsLogged (.filtSync r) r s (fun u =>
        let soon := u.edgeAtOrAfter (u.node.clock + 3200)
        let t := r.u 24 0 64
        let act := if r.b 16 2 then
            (if t = 0 then (u.now + r.u 20 0 16 * 1000, u.edgeAtOrAfter (u.node.clock + r.u 20 0 16 * 64000)) else (t, u.edgeAtOrAfter (t * 64)))
          else (max (u.edgeTime soon) t, max soon (u.edgeAtOrAfter (t * 64)))
        (u.schedule (if r.u 32 0 64 = 0 then act.2 else u.edgeAtOrAfter (r.u 32 0 64 * 64)) act.2 act.1 (r.b 16 2) (some r.fn)).finish r .ok 0))
      ∧ (r.u 16 0 2 = 1 → (filtSyncSpec r).ActsLogged (.filtSync r) r s (fun u =>
          { u with sync := { u.sync with armed := true, scope := r.b 16 2, oneShot := r.b 16 3, lead := r.u 20 0 16 } }.finish r .ok 0))
      ∧ (r.u 16 0 2 = 2 → (filtSyncSpec r).ActsLogged (.filtSync r) r s (fun u =>
          { u with sync := { u.sync with armed := false } }.finish r .ok 0))
      ∧ (r.u 16 0 2 = 3 → (filtSyncSpec r).Does (.filtSync r) r s (fun u =>
          (u.writeResult r (r.u 40 0 64) 64 u.syncRecord).finish r .ok 0)))

/-- The force commands (R149 to R153): FORCE_CONFIG writes the configuration fields alone; FORCE_TARGET gives the tile its new target, or
counts it where a ramp-down or a safe action stands; FORCE_RESTART releases the latch and closes as a retry does, or, where the output
cannot drive, leaves the switches open; FORCE_STATUS writes its record, with a free value for the measured current; FORCE_LOOPBACK starts
the test, which aborts at once where the output cannot drive. -/
def Obligations.ForceCommands : Prop :=
  ∀ (r : Req) (s : State),
    let n := r.u 16 0 16
    forceConfigSpec.ActsLogged (.forceConfig r) r s (fun u =>
      (u.modForce n (fun f => { f with
        range := r.u 18 0 2, slew := r.b 18 2, init := r.u 18 3 2, safeAction := r.u 18 5 2, stove := r.u 19 0 5,
        writerStove := r.b 19 7, vmax := r.u 20 0 16, acc := r.u 22 0 16, initTarget := BitVec.ofNat 32 (r.u 24 0 32),
        safeTarget := BitVec.ofNat 32 (r.u 28 0 32), limitEv := r.b 32 0, foldEv := r.b 32 1, contEv := r.b 32 2 })).finish r .ok 0)
    ∧ forceTargetSpec.Does (.forceTarget r) r s (fun u =>
        let w := BitVec.ofNat 32 (r.u 20 0 32)
        (if (u.tile n).force.ramp || (u.tile n).force.hold then u.modForce n (fun f => { f with rejCnt := f.rejCnt.bump 16 })
         else u.modForce n (fun f => f.receive u.node.clock w)).finish r .ok 0)
    ∧ forceRestartSpec.ActsLogged (.forceRestart r) r s (fun u =>
        (if u.forceOff n then u.modForce n (fun f => { f with phase := .fenceLost, v := 0, retry := 0, closedAt := none })
       else u.modForce n (fun f => { f with phase := f.reclose, v := 0, retry := 0, closedAt := some u.now })).finish r .ok 0)
    ∧ forceStatusSpec.Does (.forceStatus r) r s (fun u =>
        ({ u with fresh := u.fresh + 1 }.writeResult r (r.u 24 0 64) 64 (u.forceRecord n (Config.freeVal u.fresh))).finish r .ok 0)
    ∧ forceLoopbackSpec.ActsLogged (.forceLoopback r) r s (fun u =>
        let f := (u.tile n).force
        let b : Loopback := { range := f.range, slew := f.slew, start := u.now, levelAt := u.now, errs := [] }
        let v := { u with loopbacks := tset u.loopbacks n b }.modForce n (fun f => { f with
          mode := .force, phase := .normal, range := r.u 19 0 2, slew := false, inbox := [], hold := false, ramp := false, retry := 0,
          closedAt := none, cleanSince := none })
        let w := (v.loopbackStep n 0 (r.u 18 0 8)).startOp
          { opMark 0x0605 with names := fun r => [nTile (r.u 16 0 16), nTile (r.u 16 0 16 ^^^ 1)] } n r 0 0
        if w.forceOff n then w.loopbackAbort n else w)

/-- The calibration commands (R270 to R275): CAL_CONFIG writes the schedule fields of every group of its mask alone; CAL_RUN starts the
core's calibration at once where its tile is already covered, or OFF with no rolling step under way in its group, and else enters a
demand for the reserve; CAL_STATUS and CAL_ROW_READ write their records; CAL_ROW_BURN marks the row attempted and burns; CAL_SUBST enters
a demand for the reserve or hands back. CAL_RUN, CAL_ROW_BURN and CAL_SUBST complete later. -/
def Obligations.CalibrationCommands : Prop :=
  ∀ (r : Req) (s : State),
    let n := r.u 16 0 16
    calStatusSpec.Does (.calStatus r) r s (fun u => (u.writeResult r (r.u 24 0 64) 64 (u.calRecord n (calTarget r))).finish r .ok 0)
    ∧ calConfigSpec.ActsLogged (.calConfig r) r s (fun u =>
        ((maskGroups u r).foldl (fun (v : State) g => v.modSched g (fun x => { x with
          rollPeriod := r.u 20 0 16, tempStep := r.u 22 0 8, failSubst := r.b 23 0, doneEv := r.b 23 1, failEv := r.b 23 2,
          handoverEv := r.b 23 3 })) u).finish r .ok 0)
    ∧ calRunSpec.Does (.calRun r) r s (fun u =>
        let c := calTarget r
        let g := groupOfTile n
        let v := u.startOp (opMark 0x0502) c r 0 0
        if c < 1024 ∧ (v.group g).sched.use = .covering n then v.calStart c .onDemand false
        else if c < 1024 ∧ (v.tile n).force.mode = .off ∧ v.rollingNow g = false then v.calStart c .onDemand true
        else (v.modSched g (fun x => { x with demands := x.demands ++ [(.onDemand, c)] })).serveNext g)
    ∧ calRowBurnSpec.Acts (.calRowBurn r) r s (fun u =>
        let img := u.dataBytes r (r.u 24 0 64) 2048
        let v := u.modRows (r.u 16 0 3) (fun x => { x with attempted := x.attempted ++ [r.u 17 0 4], burning := some (r.u 17 0 4, img) })
        v.startOp { opMark 0x0504 with names := rowNames } (r.u 16 0 3) r 0 (v.whoNote r))
    ∧ calRowReadSpec.Does (.calRowRead r) r s (fun u =>
        (u.writeResult r (r.u 24 0 64) 2112 ((u.rowsOf (r.u 16 0 3)).record (r.u 16 0 3) (r.u 17 0 4))).finish r .ok 0)
    ∧ calSubstSpec.ActsLogged (.calSubst r) r s (fun u =>
        let v := u.startOp (opMark 0x0506) n r 0 0
        let g := groupOfTile n
        if r.b 18 0 then v.handBack n
        else (v.modSched g (fun x => { x with demands := x.demands ++ [(.manual, n)] })).serveNext g)

/-- The stove commands (R304 to R310): STOVE_LOAD writes the image's bytes to one SRAM and nothing else of the stove; LAW_CONFIG writes
one law slot, a running law losing ENABLE when its run ends; STOVE_BIND changes one binding and the streams it subscribes to;
STOVE_CONFIG writes the trap and program-store fields; STOVE_CTRL starts, stops (after the present run), withdraws the trip request or
clears the counts; STOVE_STATUS writes its record. -/
def Obligations.StoveCommands : Prop :=
  ∀ (r : Req) (s : State),
    let sv := r.u 16 0 5
    stoveStatusSpec.Does (.stoveStatus r) r s (fun u =>
      (u.writeResult r (r.u 24 0 64) 64 (u.stoveRecord sv (r.u 17 0 3))).finish r .ok 0)
    ∧ stoveLoadSpec.ActsLogged (.stoveLoad r) r s (fun u =>
        let l := u.dataBytes r (r.u 32 0 64) (r.u 24 0 32)
        (u.modStove sv (fun v =>
          if r.b 17 0 then { v with dsram := memSetBytes 0 v.dsram (r.u 20 0 32) l }
          else { v with isram := memSetBytes 0 v.isram (r.u 20 0 32) l })).finish r .ok 0)
    ∧ lawConfigSpec.ActsLogged (.lawConfig r) r s (fun u =>
        let i := r.u 17 0 3
        let running : Bool := match (u.stove sv).run with
          | some x => x.law = i
          | none => false
        ((u.modStove sv (fun v => v.modLaw i (fun l =>
          let n := lawOf r l
          if n.enable then { n with disabling := false }
          else if running then { n with enable := true, disabling := true }
          else { n.unpend with disabling := false }))).takePending (sv / 4)).finish r .ok 0)
    ∧ (r.u 17 0 2 ≠ 0 → stoveBindSpec.ActsLogged (.stoveBind r) r s (fun u => (u.modStove sv (fun v => v.bind r)).finish r .ok 0))
    ∧ (r.u 17 0 2 = 0 → stoveBindSpec.ActsLogged (.stoveBind r) r s (fun u =>
        let w := u.modStove sv (fun v => v.bind r)
        let v := match (tget {} (u.stove sv).ports (r.u 18 0 4)).bound with
          | some k => w.subscribe k (w.stoveOwner sv) false
          | none => w
        ((if r.b 17 7 then v.subscribe (bindStream r) (v.stoveOwner sv) true else v).takePending (sv / 4)).finish r .ok 0))
    ∧ stoveConfigSpec.ActsLogged (.stoveConfig r) r s (fun u =>
        (u.modStove sv (fun v => { v with
          trapMask := r.u 18 0 8, trapAction := r.u 19 0 1, psBank := r.u 20 0 1, psFirst := r.u 21 0 6, psCount := r.u 22 0 7 })).finish
            r .ok 0)
    ∧ (r.u 17 0 2 = 0 → stoveCtrlSpec.ActsLogged (.stoveCtrl r) r s (fun u =>
        (u.modStove sv (fun v => { v with cache := [], state := if v.state = .stopped then .idle else v.state })).finish r .ok 0))
    ∧ (r.u 17 0 2 = 1 → stoveCtrlSpec.ActsLogged (.stoveCtrl r) r s (fun u =>
        if (u.stove sv).run.isSome then
          (u.modStove sv (fun v => { v with stopping := true, loopWait := v.loopWait ++ [r] })).startOp
            { opMark 0x0705 with names := stoveNames } sv r 0 0
        else ((u.settle sv).loopAct r).finish r .ok 0))
    ∧ (r.u 17 0 2 = 2 → stoveCtrlSpec.ActsLogged (.stoveCtrl r) r s (fun u =>
        ((u.modStove sv (fun v => { v with tripReq := false })).tripCheck).finish r .ok 0))
    ∧ (r.u 17 0 2 = 3 → stoveCtrlSpec.ActsLogged (.stoveCtrl r) r s (fun u =>
        (u.modStove sv (fun v => { v with
          sticky := 0, laws := v.laws.map (fun e => (e.1, { e.2 with
            runCnt := {}, overruns := {}, traps := {}, maxSeen := 0, skipEv := {} })) })).finish r .ok 0))

/-- The loop commands (R324 to R330): between runs LOOP_CONFIG, LOOP_MODE, LOOP_SET and LOOP_STATUS act on the record as it then stands,
and complete, with LOOP_CLOSED or COMBINATION where the state of the loop refuses them; during a run they wait for its end. What a
command that waits for the stove to be between runs does when it acts (R309, R320, R327 to R330): STOVE_CTRL STOP stops the stove and
holds its loops in AUTO; LOOP_CONFIG writes record bytes 0 to 28 (29 to 31 as zero) and sets FIRST; LOOP_MODE changes the state by the
table of R320; LOOP_SET writes SP and MAN_OUT and clears the counters, each as its bit says; LOOP_STATUS writes the first 128 B out and
leaves the record. -/
def Obligations.LoopCommands : Prop :=
   (∀ (r : Req) (s : State),
      let sv := r.u 16 0 5
      let eff := fun (u : State) =>
        if (u.stove sv).run.isNone then
          match loopRefusal r (u.settle sv) with
          | some x => (u.settle sv).finish r x 0
          | none => ((u.settle sv).loopAct r).finish r .ok 0
        else
          (u.modStove sv (fun v => { v with loopWait := v.loopWait ++ [r] })).startOp
            { opMark r.opcode with names := loopNames } sv r 0 0
      loopConfigSpec.ActsLogged (.loopConfig r) r s eff
      ∧ loopModeSpec.ActsLogged (.loopMode r) r s eff
      ∧ loopSetSpec.Does (.loopSet r) r s eff
      ∧ loopStatusSpec.Does (.loopStatus r) r s eff)
   ∧(∀ (r : Req) (s : State),
      let sv := r.u 16 0 5
      let k := r.u 17 0 3
      (r.opcode = 0x0705 → s.loopAct r = (s.stopStove sv).modLoops sv 255 (lrAutoHold 5))
      ∧ (r.opcode = 0x0707 → s.loopAct r = s.modLoop sv k (fun x =>
        lrPut ((List.range 8).map (fun i => r.u (20 + 4 * i) 0 (if i = 7 then 8 else 32)) ++ x.drop 8) 16 2 1 1))
      ∧ (r.opcode = 0x0708 → s.loopAct r = s.modLoop sv k (lrMode (r.u 18 0 2) (r.u 20 0 32)))
      ∧ (r.opcode = 0x0709 → s.loopAct r = s.modLoop sv k (fun x =>
          let x := if r.b 18 0 then x.set 8 (r.u 20 0 32) else x
          let x := if r.b 18 1 then x.set 9 (r.u 24 0 32) else x
          if r.b 18 2 then lrPut (((x.set 24 0).set 25 0).set 26 0) 16 12 4 0 else x))
      ∧ (r.opcode = 0x070A → (s.loopAct r).stoveTab = s.stoveTab))

/-- The program-store commands (R301 to R303): PS_READ, PS_PROGRAM and PS_ERASE enter their operation in the queue of its bank and
complete when it ends; PS_STATUS writes its record. The metering commands (R353 to R356): METER_PAIR configures the pair and stops it
with an empty window; METER_CTRL START asks for a start at the next window boundary, STOP closes the window and stops, SNAPSHOT captures
a record and completes when it is written; METER_READ writes its record. -/
def Obligations.StoreAndMeterCommands : Prop :=
   (∀ (r : Req) (s : State),
      let k := psKey (r.u 16 0 32)
      let mark := fun (op : Nat) => { opMark op with names := fun r => [nBank (psKey (r.u 16 0 32))] }
      psStatusSpec.Does (.psStatus r) r s (fun u => (u.writeResult r (r.u 24 0 64) 64 (u.psRecord k)).finish r .ok 0)
      ∧ psReadSpec.ActsLogged (.psRead r) r s (fun u =>
          (u.startOp (mark 0x0F01) k r 0 0).enqueuePs k { kind := 0, off := psOff (r.u 16 0 32), req := some r })
      ∧ psProgramSpec.Acts (.psProgram r) r s (fun u =>
          (u.startOp (mark 0x0F02) k r 0 (u.whoNote r)).enqueuePs k
            { kind := 1, off := psOff (r.u 16 0 32), data := u.dataBytes r (r.u 24 0 64) 256, req := some r })
      ∧ psEraseSpec.Acts (.psErase r) r s (fun u =>
          (u.startOp (mark 0x0F03) k r 0 (u.whoNote r)).enqueuePs k { kind := 2, off := psOff (r.u 16 0 32), req := some r }))
   ∧(∀ (r : Req) (s : State),
      let n := r.u 16 0 6
      meterReadSpec.Does (.meterRead r) r s (fun u => (u.writeResult r (r.u 24 0 64) 128 (u.pairRecord n)).finish r .ok 0)
      ∧ meterPairSpec.ActsLogged (.meterPair r) r s (fun u =>
          (u.modPair n (fun p =>
            { pairOf r p with state := .stopped, startPending := false, win := {}, vIn := [], iIn := [], lastInstant := some u.edge })).finish
              r .ok 0)
      ∧ (r.u 17 0 2 = 0 → meterCtrlSpec.ActsLogged (.meterCtrl r) r s (fun u =>
          (u.modPair n (fun p => if p.state = .stopped && !p.startPending then { p with startPending := true, lastInstant := some u.edge }
            else p)).finish r .ok 0))
      ∧ (r.u 17 0 2 = 1 → meterCtrlSpec.ActsLogged (.meterCtrl r) r s (fun u =>
          ((u.closeWindow n true).modPair n (fun p => { p with state := .stopped, startPending := false, frozen := false })).finish r .ok 0))
      ∧ (r.u 17 0 2 = 2 → meterCtrlSpec.Does (.meterCtrl r) r s (fun u =>
          (u.captureRecord .command).startOp { opMark 0x0802 with names := fun r => [nPair (r.u 16 0 6)] } 0 r 0 0)))

/-- The queue commands (R413 to R417): QUEUE_CREATE takes the context's configuration half, sets the queue live with its state half at
the start, tells the workers whose streams stay bound to the QID, and makes it the default event or log queue when the command says so;
QUEUE_DESTROY ends the queue, a command queue once the commands in hand have ended; QUEUE_BIND binds a stream here, or sends the command
to the stream's node; QUEUE_STATUS writes the state half through the lake map, clears or restarts as its bits say, and returns the
counts; LMAP_INVAL drops the translations of its range and completes when the invalidation ends. -/
def Obligations.QueueCommands : Prop :=
  ∀ (r : Req) (s : State),
    let q := qidOf r
    queueCreateSpec.Does (.queueCreate r) r s (fun u =>
      let v := u.evictCtx r.host
      let x : Queue := { (({} : Queue).withConfig ((u.ctxOf r).getD 0)) with live := true, cached := true, pinned := r.b 19 0, dirty := true }
      let v := (({ v with host := { v.host with queues := tset v.host.queues q x } }).touchCtx q).shipQueue q
      (if r.b 19 1 then v.modFn r.fn (fun f => if x.kind = 3 then { f with evQid := some q } else { f with logQid := some q }) else v).finish
        r .ok 0)
    ∧ queueDestroySpec.Does (.queueDestroy r) r s (fun u =>
        if (u.queue q).kind = 0 then
          let v := u.modQueue q (fun x => { x with stopping := true })
          if (u.queue q).inHand = 0 then (v.endQueue r.host q).finish r .ok 0
          else if r.qid = q ∧ (u.queue q).inHand = 1 then (v.finishOne r .ok 0).endQueue r.host q
          else v.startOp (opMark 0x0902) q r 0 0
        else ((u.discardWaiting r.fn q).endQueue r.host q).finish r .ok 0)
    ∧ queueBindSpec.Does (.queueBind r) r s (fun u =>
        let k := bindKey r
        if keyNode k = u.ring.nodeNo then
          ((u.bindStream k q (u.bindCap r) (r.b 19 0)).takePending (dieOfTile (keyTile k))).finish r .ok 0
        else
          let v := u.sendAcked .cmd (keyNode k) (mkRec [⟨0, 0, 8, r.fn⟩, ⟨3, 0, 8, if u.bindCap r then 3 else 0⟩,
            ⟨4, 0, 64, (u.queue q).shipped⟩, ⟨16, 0, 512, r.entry.toNat⟩])
          { v with ring := { v.ring with forwarded := v.ring.forwarded ++
              [{ tag := v.ring.tag, node := keyNode k, req := r, names := [nQueue q, nNode 1],
                 deadline := v.now + v.ring.commandWait * 1000000000 }] } })
    ∧ queueStatusSpec.Does (.queueStatus r) r s (fun u =>
        let x := u.queue q
        let v := (u.writeBack r.host q x.live).modQueue q (fun y => { y with dirty := false })
        let v := if r.b 19 0 then v.modQueue q (fun y => { y with loss := {}, lastLoss := 0, dirty := true }) else v
        let v := if r.b 19 1 then v.modQueue q (fun y => { y.withConfig ((v.ctxOf r).getD 0) with err := 0, dirty := true }) else v
        v.finish r .ok (x.loss.n + x.devIdx * 2 ^ 32 + b2n x.devPhase * 2 ^ 48 + x.err * 2 ^ 56))
    ∧ lmapInvalSpec.Does (.lmapInval r) r s (fun u =>
        let a := r.u 16 0 64
        let n := r.u 24 0 64
        (u.startInval { fn := r.fn, lo := if n = 0 then 0 else a, hi := if n = 0 then 2 ^ 52 else a + n, viaRoot := false }).startOp
          (opMark 0x0905) r.fn r 0 0)

/-- The ring commands (R454 to R457): RING_CONFIG writes asymmetries, join scan and waits (a worker its asymmetries alone) and completes
at once; in a formed ring the manager first moves the traffic off each link of the node whose lane rate changes, then the node takes the
rest; RING_STATUS writes its record or the node table, and clears the counts when asked; RING_BYPASS takes a node out, offers it a join
again, or scans a link; RING_TRIGGER sends TRIGGER to every node and to the tiles of this one. -/
def Obligations.RingCommands : Prop :=
  ∀ (r : Req) (s : State),
    let byp : CmdSpec := { opcode := 0x0A03, refuse := fun _ _ _ => [], act := fun _ s => { st := s } }
    let asked := fun (u : State) (q : Req) => u.modRing (fun x => { x with
        east := { x.east with asym := q.i 20 16 }, west := { x.west with asym := q.i 22 16 },
        joinScan := if u.isWorker then x.joinScan else q.b 16 2, joinPeriod := if u.isWorker then x.joinPeriod else q.u 18 0 16,
        commandWait := if u.isWorker then x.commandWait else q.u 24 0 16 })
    ringConfigSpec.ActsLogged (.ringConfig r) r s (fun u =>
      let n := if u.isWorker then 0 else r.u 4 0 6
      let same : Bool := u.ring.slowAt n true = r.b 16 0 && u.ring.slowAt n false = r.b 16 1
      if n ≠ 0 ∧ (same ∨ u.ring.view = 0 ∨ n ∉ u.ring.order) then u.sendRing r 0
      else if same ∨ u.isWorker ∨ u.ring.view = 0 then
        (((asked u r).setRate true (some (r.b 16 0))).setRate false (some (r.b 16 1))).finish r .ok 0
      else (u.startOp (opMark 0x0A01) 0 r 0
        (b2n (u.ring.slowAt n true != r.b 16 0) + 2 * b2n (u.ring.slowAt n false != r.b 16 1))).nextRate)
    ∧ (∀ o, s.findOp 0x0A01 0 = some o →
        let n := o.req.u 4 0 6
        let e := o.req.b 16 0
        let w := o.req.b 16 1
        (s.ring.slowAt n true = e → s.ring.slowAt n false = w →
          s.nextRate = if n = 0 then (asked s o.req).endOp 0x0A01 0 .ok 0
            else { s with host := { s.host with ops := s.host.ops.erase o } }.sendRing o.req o.note)
        ∧ (s.ring.plan = none → s.ring.blocked (s.ring.linkAt n true) = false → s.ring.blocked (s.ring.linkAt n false) = false →
          (s.ring.slowAt n true ≠ e → s.nextRate = s.startMove (s.ring.linkAt n true) (.rate n (some e) none false))
          ∧ (s.ring.slowAt n true = e → s.ring.slowAt n false ≠ w →
            s.nextRate = s.startMove (s.ring.linkAt n false) (.rate n none (some w) false))))
    ∧ ringStatusSpec.Does (.ringStatus r) r s (fun u =>
        let v := if u.isWorker then u else { u with fresh := u.fresh + 1 }
        let rec_ := u.ringRecord (if u.isWorker then 0 else Config.freeVal u.fresh % 16)
        let v := if r.b 16 0 then v.writeResult r (r.u 24 0 64) 1024 v.ringTable else v.writeResult r (r.u 24 0 64) 64 rec_
        (if r.b 16 1 then v.modRing (fun x => { x with
            east := { x.east with crc := {} }, west := { x.west with crc := {} }, downCnt := {}, rerouteCnt := {}, resendCnt := {} })
         else v).finish r .ok 0)
    ∧ ringBypassSpec.ActsLogged (.ringBypass r) r s (fun u =>
        let n := r.u 4 0 6
        if u.isWorker then (if r.u 16 0 2 = 0 then (u.finish r .ok 0).leaveRing else u.finish r .ok 0)
        else if r.u 16 0 2 = 0 then (u.startOp byp 0 r 0 0).startMove (n, n) (.takeOut n)
        else if r.u 16 0 2 = 1 then
          (u.modRing (fun y => { y with
            table := tset y.table n { (tget {} u.ring.table n) with takenOut := false }
            offersDue := if (tget ({} : RingNode) u.ring.table n).present then y.offersDue
                         else y.offersDue ++ [y.beforeLost (tget {} u.ring.table n)] })).finish r .ok 0
        else (u.startOp byp 0 r 0 0).modRing (fun x => { x with offersDue := r.u 17 0 6 :: x.offersDue }))
    ∧ ringTriggerSpec.Does (.ringTrigger r) r s (fun u =>
        ((u.sendFrame { type := .trigger, dst := none, aux := r.u 16 0 4, body := r.u 24 0 64 }).sendTriggers 5 (64 * r.u 24 0 64)
          (fun _ q => q.trigArg % 16 = r.u 16 0 4)).finish r .ok 0)

/-- The session commands (R467, R470 to R472): SESSION_CLOSE closes the session of the command's handle; ROLE_PASSWORD CLEAR removes the
password and the installer session, SET stores a digest over a free salt; MAKER_CHALLENGE records the challenge it hands out, with a free
nonce, for 10 minutes. SESSION_OPEN (R467, R469, R471, R472): the session opens with a serial number one above the last, on the issuing
function, under a handle that is a free value but never zero and never the other session's; the lockout of the role is lifted, and a
maker's challenge is used up. RESULT is the handle. The other role's session stays. A session command that nothing holds back and no
check refuses, whose data translates and whose entry has room in the change log, answers a next state: its entry is staged and,
programmed, the command takes its effect and completes with OK; SESSION_CLOSE and MAKER_CHALLENGE under no session of their own need no
entry. -/
def Obligations.SessionCommands : Prop :=
   (∀ (r : Req) (s : State),
      sessionCloseSpec.Does (.sessionClose r) r s (fun u =>
        let keep := fun (x : Option Session) => x.filter (fun y => y.handle ≠ r.u 8 0 32)
        (u.modRoles (fun y => { y with installer := keep y.installer, maker := keep y.maker })).finish r .ok 0)
      ∧ (r.b 16 0 = true → rolePasswordSpec.ActsLogged (.rolePassword r) r s (fun u =>
          ((u.modTrust (fun t => { t with password := none })).modRoles (fun x => { x with installer := none })).finish r .ok 0))
      ∧ (r.b 16 0 = false → rolePasswordSpec.ActsLogged (.rolePassword r) r s (fun u =>
          let salt := Config.freeVal u.fresh % 2 ^ 128
          ({ u with fresh := u.fresh + 1 }.modTrust (fun t => { t with
            password := some (salt, passwordDigest salt (Req.bytesAt r 24 (r.u 17 0 6))) })).finish r .ok 0))
      ∧ makerChallengeSpec.Does (.makerChallenge r) r s (fun u =>
          let v := mkRec [⟨0, 0, 128, Config.freeVal u.fresh⟩, ⟨16, 0, 32, satInc 32 u.roles.challengeId⟩, ⟨20, 0, 32, u.node.bootCnt⟩,
            ⟨24, 0, 64, Config.serial⟩, ⟨32, 0, 64, u.now + 600000000000⟩]
          let w := { u with fresh := u.fresh + 1 }.modRoles (fun x => { x with
            challengeId := satInc 32 u.roles.challengeId,
            challenge := some { record := v, id := satInc 32 u.roles.challengeId, expires := u.now + 600000000000 } })
          (w.writeResult r (r.u 24 0 64) 64 v).finish r .ok 0))
   ∧(∀ (r : Req) (s : State) (e : ClogStaged) (t : State), sessionOpenSpec.actsLogged r s = some (e, t) →
      exec (.sessionOpen r) s = .next (t.stage e)
      ∧ ∃ (v : State) (h : Nat), exec (.changeLogEntryDone true) (t.stage e) = .next (v.finish r .ok h) ∧ 0 < h ∧ h < 2 ^ 32
        ∧ v.roles.sessionSeq = nextSession t.roles.sessionSeq
        ∧ (r.u 16 0 2 = 1 → v.roles.installer = some ⟨h, r.fn, v.now, v.roles.sessionSeq, t.trust.password.isNone⟩ ∧ v.roles.instLock = {} ∧ v.roles.maker = t.roles.maker
            ∧ ∀ y, v.roles.maker = some y → y.handle ≠ h)
        ∧ (r.u 16 0 2 ≠ 1 → v.roles.maker = some ⟨h, r.fn, v.now, v.roles.sessionSeq, false⟩
            ∧ v.roles.makerLock = {} ∧ v.roles.challenge = none ∧ v.roles.installer = t.roles.installer
            ∧ ∀ y, v.roles.installer = some y → y.handle ≠ h)
        ∧ v.units = t.units)
   ∧(∀ (r : Req) (s u : State) (w : Who),
      let ready := fun (p : CmdSpec) => p.starts r s = true ∧ (s.taken r).who r = some w ∧ (∀ c ∈ p.checks r s, c.1 = false)
        ∧ (s.taken r).mapData r (p.data r (s.taken r)) = (u, true) ∧ u.clogUsed < 4080 ∧ u.clog.staging = [] ∧ u.logs.bank1 = []
        ∧ u.node.pfStage = .none
      let entered := fun (p : CmdSpec) => u.stage (u.clogEntry r w .ok p (.command r))
      (ready sessionOpenSpec → exec (.sessionOpen r) s = .next (entered sessionOpenSpec)
        ∧ ∃ (t : State) (h : Nat), exec (.changeLogEntryDone true) (entered sessionOpenSpec) = .next (t.finish r .ok h) ∧ 0 < h
          ∧ (if r.u 16 0 2 = 1 then t.roles.installer else t.roles.maker).map (·.handle) = some h)
      ∧ (ready sessionCloseSpec →
        let shut := fun (v : State) => v.modRoles (fun y => { y with
          installer := y.installer.filter (fun z => z.handle ≠ r.u 8 0 32), maker := y.maker.filter (fun z => z.handle ≠ r.u 8 0 32) })
        (w.sess = 0 → exec (.sessionClose r) s = .next ((shut u).finish r .ok 0))
        ∧ (w.sess ≠ 0 → exec (.sessionClose r) s = .next (entered sessionCloseSpec)
          ∧ ∃ t : State, exec (.changeLogEntryDone true) (entered sessionCloseSpec) = .next ((shut t).finish r .ok 0)))
      ∧ (ready rolePasswordSpec → exec (.rolePassword r) s = .next (entered rolePasswordSpec)
        ∧ ∃ t : State, exec (.changeLogEntryDone true) (entered rolePasswordSpec) = .next (t.finish r .ok 0)
          ∧ t.trust.password.isSome = !r.b 16 0 ∧ (r.b 16 0 → t.roles.installer = none))
      ∧ (ready makerChallengeSpec →
        (w.sess = 0 → ∃ t : State, exec (.makerChallenge r) s = .next (t.finish r .ok 0) ∧ t.roles.challenge.isSome
          ∧ t.roles.challengeId = satInc 32 u.roles.challengeId)
        ∧ (w.sess ≠ 0 → exec (.makerChallenge r) s = .next (entered makerChallengeSpec)
          ∧ ∃ t : State, exec (.changeLogEntryDone true) (entered makerChallengeSpec) = .next (t.finish r .ok 0) ∧ t.roles.challenge.isSome)))

/-- The hearth commands (R462 to R464, R473 to R476): HEARTH_ASSIGN and HEARTH_SHARES write the trust record, and the bindings of a tile
that changes its hearth end (the model's reading, log 79); CHAIN_GRANT grants, or takes back chain 1 and ends its use; HEARTH_SEAL SEAL
keeps the seal image, BREAK marks the seal broken, counts it and raises SEAL_BROKEN; HEARTH_STATUS writes its record. The change-log
commands (R481, R482): CLOG_READ writes the entries asked for; CLOG_ARCHIVE, on an area that still erases, stages its entry, which says
how far the log was read, and completes when the archiving is done; on a worn area it completes with TIMEOUT. -/
def Obligations.HearthCommands : Prop :=
   (∀ (r : Req) (s : State),
      let h := r.u 16 0 3
      let n := r.u 16 0 16
      hearthStatusSpec.Does (.hearthStatus r) r s (fun u => (u.writeResult r (r.u 24 0 64) 64 (u.hearthRecord h)).finish r .ok 0)
      ∧ hearthAssignSpec.ActsLogged (.hearthAssign r) r s (fun u =>
          let moved := if r.u 17 0 2 = 0 then (assignTiles r).filter (fun n => u.tileOwner n ≠ r.u 16 0 4) else []
          let v := moved.foldl (fun (v : State) n => v.endTile n) u
          { v with trust := v.trust.assign r }.finish r .ok 0)
      ∧ hearthSharesSpec.ActsLogged (.hearthShares r) r s (fun u =>
          { u with trust := { u.trust with
            pcieW := (List.range 8).map (fun k => (k, r.u (20 + k) 0 8)), ringW := (List.range 8).map (fun k => (k, r.u (28 + k) 0 8)) } }.finish
              r .ok 0)
      ∧ (r.b 18 0 = true → chainGrantSpec.ActsLogged (.chainGrant r) r s (fun u =>
          { u with trust := { u.trust with grants := tset u.trust.grants n (r.u 19 0 3) } }.finish r .ok 0))
      ∧ (r.b 18 0 = false → chainGrantSpec.ActsLogged (.chainGrant r) r s (fun u =>
          ((u.endChain1 n).modTrust (fun t => { t with grants := terase t.grants n })).finish r .ok 0))
      ∧ (r.u 17 0 2 = 0 → hearthSealSpec.ActsLogged (.hearthSeal r) r s (fun u =>
          { u with
            fresh := u.fresh + 1, trust := { u.trust with seals := tset u.trust.seals h .intact },
            sealImages := tset u.sealImages h { u.sealImage h with crc := Config.freeVal u.fresh % 2 ^ 32 } }.finish r .ok 0))
      ∧ (r.u 17 0 2 ≠ 0 → hearthSealSpec.ActsLogged (.hearthSeal r) r s (fun u =>
          let v := { u with trust := { u.trust with
            seals := tset u.trust.seals h .broken, legalCnt := satInc 32 u.trust.legalCnt, lastBreak := tset u.trust.lastBreak h u.stamp } }
          let det := r.u 20 0 16 + v.trust.legalCnt * 2 ^ 32
          ((v.raise 0x0B02 h h det).raise 0x0B02 15 h det).finish r .ok 0)))
   ∧(∀ (r : Req) (s : State),
      clogReadSpec.Does (.clogRead r) r s (fun u =>
        (u.writeResult r (r.u 32 0 64) (64 + 64 * r.u 24 0 7) (u.clogBytes (r.u 20 0 32) (r.u 24 0 7))).finish r .ok 0)
      ∧ clogArchiveSpec.Acts (.clogArchive r) r s (fun u =>
          let w := (u.who r).getD { right := 2, sess := 2, serial := 0 }
          if u.clog.worn then u.finish r .timeout 0
          else u.stage {
            action := 0xFF01, status := .ok, role := 2, time := u.now, node := u.ring.nodeNo, func := hearthOfFn r.fn, serial := w.serial,
            detail := r.u 20 0 32 + satInc 32 u.trust.archiveCnt * 2 ^ 32 + u.trust.unlogged * 2 ^ 64 + u.trust.legalCnt * 2 ^ 96,
            why := .archive r }))

/-- The protection commands (R492, R494 to R496, R501, R505, R509): SAFE_CONFIG names the protection hearth and the trip options;
SAFE_CONN writes a connection, which starts anew when it is enabled and is OFF when it is disabled; SAFE_ARM ARM, RESET, CLEAR and TRIP
change the state and the sources of the trip logic; SAFE_STATUS writes a record and clears the counts when asked; TIRWIN_PUT gives a PDU
to its connection and returns the result. The trip output is judged anew after every change. -/
def Obligations.ProtectionCommands : Prop :=
  ∀ (r : Req) (s : State),
    let c := r.u 16 0 6
    safeConfigSpec.ActsLogged (.safeConfig r) r s (fun u =>
      ({ u with
        trust := { u.trust with protHearth := if r.b 16 3 then some (r.u 16 0 3) else none },
        prot := { u.prot with loopTrip := r.b 17 0, minPulse := r.u 18 0 16 } }.tripCheck).finish r .ok 0)
    ∧ safeConnSpec.ActsLogged (.safeConn r) r s (fun u =>
        ((u.modConn c (fun x =>
          let y := connOf r x
          if r.b 16 7 && !x.enable then { y with
            enable := true, state := if y.dir then 0 else 1, good := 0, formed := false, lastUs := none, tripUs := none, holding := none,
            remote := false }
          else if !r.b 16 7 then { y with enable := false, state := 0, holding := none, remote := false }
          else y)).tripCheck).finish r .ok 0)
    ∧ (r.u 16 0 2 = 0 → safeArmSpec.ActsLogged (.safeArm r) r s (fun u =>
        (({ u with prot := { u.prot with state := .armed } }.safeState).tripCheck).finish r .ok 0))
    ∧ (r.u 16 0 2 = 1 → safeArmSpec.ActsLogged (.safeArm r) r s (fun u =>
        let leave := u.prot.state = .armed ∨ u.prot.state = .tripped
        let v := { u with prot := { u.prot with
          latch := false, command := false, was := 0, state := if leave then .proven else u.prot.state } }
        (((if leave then v.safeState else v).tripEdge u.tripLow).tripCheck).finish r .ok 0))
    ∧ (r.u 16 0 2 = 2 → safeArmSpec.ActsLogged (.safeArm r) r s (fun u =>
        (({ u with prot := { u.prot with latch := false, command := false, pulse := false, state := .armed } }.safeState).tripCheck).finish
          r .ok 0))
    ∧ (r.u 16 0 2 = 3 → safeArmSpec.ActsLogged (.safeArm r) r s (fun u =>
        ({ u with prot := { u.prot with command := true } }.tripCheck).finish r .ok 0))
    ∧ safeStatusSpec.Does (.safeStatus r) r s (fun u =>
        let v := u.writeResult r (r.u 24 0 64) 64 (if r.b 17 0 then u.connStatus c else u.safeRecord)
        (if !r.b 17 1 then v
         else if r.b 17 0 then v.modConn c (fun x => { x with
           rejCrc := {}, rejIdent := {}, rejAge := {}, rejSeq := {}, dup := {}, expires := {}, lost := {}, txDrop := {} })
         else { v with prot := { v.prot with trips := {}, loopOpens := {} } }).finish r .ok 0)
    ∧ tirwinPutSpec.Does (.tirwinPut r) r s (fun u =>
        (u.receivePdu c (u.dataBytes r (r.u 24 0 64) 68)).1.finish r .ok (u.receivePdu c (u.dataBytes r (r.u 24 0 64) 68)).2)

/-- The fault commands (R518, R526, R535, R536, R541): FAULT_CONFIG sets the scheme with N and W, one reaction, or all reactions to their
defaults; FAULT_READ writes registers and records, or the counts, which it clears when asked; FAULT_CLEAR closes the record, enters and
raises FAULT_CLEARED, and takes the fence back; FAULT_INJECT arms an injection for one second. -/
def Obligations.FaultCommands : Prop :=
  ∀ (r : Req) (s : State),
    (r.u 16 0 2 = 0 → faultConfigSpec.ActsLogged (.faultConfig r) r s (fun u =>
      let scheme := if r.u 17 0 2 = 2 then u.packageScheme else r.b 17 0
      { u with faults := { u.faults with
        scheme := scheme, n := r.u 18 0 8, w := r.u 20 0 32,
        sources := if scheme ≠ u.faults.scheme then [] else u.faults.sources } }.finish r .ok 0))
    ∧ (r.u 16 0 2 = 1 → faultConfigSpec.ActsLogged (.faultConfig r) r s (fun u =>
        { u with faults := { u.faults with reactions := tset u.faults.reactions (r.u 24 0 8) (r.u 25 0 4) } }.finish r .ok 0))
    ∧ (r.u 16 0 2 = 2 → faultConfigSpec.ActsLogged (.faultConfig r) r s (fun u =>
        { u with faults := { u.faults with reactions := [] } }.finish r .ok 0))
    ∧ faultReadSpec.Does (.faultRead r) r s (fun u =>
        let v := u.writeResult r (r.u 24 0 64) (if r.b 18 0 then 136 else 64 + 64 * r.u 17 0 5)
          (u.faultBytes (r.b 18 0) (r.u 16 0 8) (r.u 17 0 5))
        (if r.b 18 1 && r.b 18 0 then { v with faults := { v.faults with detCnt := [] } } else v).finish r .ok 0)
    ∧ faultClearSpec.ActsLogged (.faultClear r) r s (fun u =>
        let rid := r.u 16 0 8
        let v := u.modRec rid (fun x => { x with isOpen := false, clearTime := u.stamp })
        let x := v.faultRec rid
        let v := if rid = 127 then v.faultChange.modProt (fun p => { p with faultHeld := false }) else v.faultChange
        let v := ((v.release rid x).tripCheck).faultEvent 0x0D02 rid x.merges.n
        (v.logRec {
          time := v.now, kind := 0x0D02, node := v.ring.nodeNo, hearth := x.hearth.getD 15, subject := x.det + 256 * rid,
          detail := x.merges.n, anyToken := true }).finish r .ok 0)
    ∧ faultInjectSpec.ActsLogged (.faultInject r) r s (fun u =>
        { u with faults := { u.faults with injection := some {
            det := r.u 16 0 8, inst := r.u 20 0 32, left := r.u 17 0 8, react := r.b 18 0, deadline := u.now + 1000000000 } } }.startOp
          (opMark 0x0D04) 0 r 0 0)

/-- EVLOG_READ writes the head and the records of the log it names (R542, R596); DEV_RESET of this node resets it with cause 5, one that
names workers sends it to each and waits (R563); AGE_REPLAN starts a re-plan and completes when it ends, AGE_STATUS and AGE_PLAN_READ
write their records, AGE_APPLY changes the rate of a die or restores it (R574, R577, R583). -/
def Obligations.NodeCommands : Prop :=
  ∀ (r : Req) (s : State),
    evlogReadSpec.Does (.evlogRead r) r s (fun u =>
      (u.writeResult r (r.u 32 0 64) (64 + 64 * r.u 24 0 7) (u.evlogBytes (r.b 16 0) (r.u 20 0 32) (r.u 24 0 7))).finish r .ok 0)
    ∧ (r.origin = .ring → devResetSpec.ActsLogged (.devReset r) r s (fun u =>
        if (resetNodes r).isEmpty then u.devResetDone r
        else ((resetNodes r).foldl (fun v j => v.sendAcked .cmd j (mkRec [⟨1, 0, 8, 1⟩, ⟨16, 0, 512, r.entry.toNat⟩])) u).startOp
          (opMark 0x0E01) 0 r 0 0))
    ∧ (r.origin ≠ .ring → devResetSpec.ActsLogged (.devReset r) r s (fun u => u.resetNode 5))
    ∧ ageReplanSpec.ActsLogged (.ageReplan r) r s (fun u => u.startReplan 1 (some r))
    ∧ ageStatusSpec.Does (.ageStatus r) r s (fun u => (u.writeResult r (r.u 24 0 64) 128 (u.ageRecord (r.u 16 0 3))).finish r .ok 0)
    ∧ agePlanReadSpec.Does (.agePlanRead r) r s (fun u => (u.writeResult r (r.u 24 0 64) 192 u.planRecord).finish r .ok 0)
    ∧ ageApplySpec.ActsLogged (.ageApply r) r s (fun u =>
        (if r.b 17 0 && !u.node.derated.contains (r.u 16 0 3) then u else u.changeRate (r.u 16 0 3) (!r.b 17 0)).finish r .ok 0)

/-- ADD, SUB wrap; ADDS, SUBS saturate and set SAT32; AND, OR, XOR; the shifts by sc[4:0]; MUL and MULH of the signed product: each
writes sa from sb and sc in one cycle (R281, R283). A stove that runs at NOP changes nothing but the pc and CYCLE. ADDI with imm
sign-extended, ANDI, ORI with it zero-extended, LUI, the shifts by imm[4:0]; SIN, SSEQ and STIM from input port imm[3:0], which trap with
UNBOUND (7) where the port has no binding (R281, R287, R292). CLAMP, RLIM, TINT and CRC (R281, R284). Where the spec states no result
(CLAMP with c odd, TINT with N outside 2 to 1,024, CRC with k above 1: log 20), sa takes a free value. A table that runs past the data
SRAM traps with DADDR (3). -/
def Obligations.StoveIntegerOps : Prop :=
   (∀ (s : State) (sv a b c : Nat) (x : Run),
      let y := (s.stove sv).reg b
      let z := (s.stove sv).reg c
      (s.issues sv (.svNop sv) x → exec (.svNop sv) s = .next (s.goesNext sv x 1))
      ∧ (s.issues sv (.svAdd sv a b c) x → exec (.svAdd sv a b c) s = .next (s.yields sv x a ((y + z) % 2 ^ 32) 1))
      ∧ (s.issues sv (.svSub sv a b c) x → exec (.svSub sv a b c) s = .next (s.yields sv x a ((y + 2 ^ 32 - z) % 2 ^ 32) 1))
      ∧ (s.issues sv (.svAdds sv a b c) x → exec (.svAdds sv a b c) s = .next (s.yieldsFlags sv x a (sat32 (toI 32 y + toI 32 z)) 1))
      ∧ (s.issues sv (.svSubs sv a b c) x → exec (.svSubs sv a b c) s = .next (s.yieldsFlags sv x a (sat32 (toI 32 y - toI 32 z)) 1))
      ∧ (s.issues sv (.svAnd sv a b c) x → exec (.svAnd sv a b c) s = .next (s.yields sv x a (y &&& z) 1))
      ∧ (s.issues sv (.svOr sv a b c) x → exec (.svOr sv a b c) s = .next (s.yields sv x a (y ||| z) 1))
      ∧ (s.issues sv (.svXor sv a b c) x → exec (.svXor sv a b c) s = .next (s.yields sv x a (y ^^^ z) 1))
      ∧ (s.issues sv (.svShl sv a b c) x → exec (.svShl sv a b c) s = .next (s.yields sv x a (y * 2 ^ (z % 32) % 2 ^ 32) 1))
      ∧ (s.issues sv (.svShr sv a b c) x → exec (.svShr sv a b c) s = .next (s.yields sv x a (y / 2 ^ (z % 32)) 1))
      ∧ (s.issues sv (.svSra sv a b c) x →
          exec (.svSra sv a b c) s = .next (s.yields sv x a (toU 32 (toI 32 y / (2 ^ (z % 32) : Nat))) 1))
      ∧ (s.issues sv (.svMul sv a b c) x → exec (.svMul sv a b c) s = .next (s.yields sv x a (toU 32 (toI 32 y * toI 32 z)) 1))
      ∧ (s.issues sv (.svMulh sv a b c) x →
          exec (.svMulh sv a b c) s = .next (s.yields sv x a (toU 32 (toI 32 y * toI 32 z / 2 ^ 32)) 1)))
   ∧(∀ (s : State) (sv a b imm : Nat) (x : Run),
      let y := (s.stove sv).reg b
      let p := tget {} (s.stove sv).ports (imm % 16)
      (s.issues sv (.svAddi sv a b imm) x → exec (.svAddi sv a b imm) s = .next (s.yields sv x a (toU 32 ((y : Int) + toI 16 imm)) 1))
      ∧ (s.issues sv (.svAndi sv a b imm) x → exec (.svAndi sv a b imm) s = .next (s.yields sv x a (y &&& imm) 1))
      ∧ (s.issues sv (.svOri sv a b imm) x → exec (.svOri sv a b imm) s = .next (s.yields sv x a (y ||| imm) 1))
      ∧ (s.issues sv (.svLui sv a imm) x → exec (.svLui sv a imm) s = .next (s.yields sv x a (imm * 65536) 1))
      ∧ (s.issues sv (.svShli sv a b imm) x → exec (.svShli sv a b imm) s = .next (s.yields sv x a (y * 2 ^ (imm % 32) % 2 ^ 32) 1))
      ∧ (s.issues sv (.svShri sv a b imm) x → exec (.svShri sv a b imm) s = .next (s.yields sv x a (y / 2 ^ (imm % 32)) 1))
      ∧ (s.issues sv (.svSrai sv a b imm) x →
          exec (.svSrai sv a b imm) s = .next (s.yields sv x a (toU 32 (toI 32 y / (2 ^ (imm % 32) : Nat))) 1))
      ∧ (p.bound.isSome → s.issues sv (.svSin sv a imm) x → exec (.svSin sv a imm) s = .next (s.yields sv x a p.word.toNat 1))
      ∧ (p.bound.isSome → s.issues sv (.svSseq sv a imm) x → exec (.svSseq sv a imm) s = .next (s.yields sv x a (p.seq % 2 ^ 32) 1))
      ∧ (p.bound.isSome → s.issues sv (.svStim sv a imm) x → exec (.svStim sv a imm) s =
          .next (s.yields sv x a ((if bitAt imm 4 then p.time / 2 ^ 32 else p.time) % 2 ^ 32) 1))
      ∧ (p.bound = none →
          (s.issues sv (.svSin sv a imm) x → exec (.svSin sv a imm) s = .next (s.trapRun sv 7))
          ∧ (s.issues sv (.svSseq sv a imm) x → exec (.svSseq sv a imm) s = .next (s.trapRun sv 7))
          ∧ (s.issues sv (.svStim sv a imm) x → exec (.svStim sv a imm) s = .next (s.trapRun sv 7))))
   ∧(∀ (s : State) (sv a b c imm : Nat) (x : Run),
      let v := s.stove sv
      let r := fun (i : Nat) => toI 32 (v.reg i)
      let t := v.reg c
      let w := fun (i : Nat) => memGetLE 0 v.dsram (t + i) 4
      let n := bits (w 4) 16 11
      let sh : Nat := 2 ^ bits (w 4) 0 5
      let u := r b - toI 32 (w 0)
      let i := (u / (sh : Int)).toNat
      let y := fun (i : Nat) => toI 32 (w (8 + 4 * i))
      let inside := t % 4 = 0 ∧ t + 8 + 4 * n ≤ 65536
      (c % 2 = 0 → s.issues sv (.svClamp sv a b c) x → exec (.svClamp sv a b c) s =
        .next (s.yields sv x a (toU 32 (min (max (r b) (r c)) (r (c + 1)))) 1))
      ∧ (c % 2 = 1 → s.issues sv (.svClamp sv a b c) x → exec (.svClamp sv a b c) s =
        .next (s.free.2.yields sv x a s.free.1 1))
      ∧ (s.issues sv (.svRlim sv a b c) x → exec (.svRlim sv a b c) s =
        .next (s.yieldsFlags sv x a (sat32 (r a + clampI (-max 0 (r c)) (max 0 (r c)) (r b - r a))) 1))
      ∧ (inside → 2 ≤ n → n ≤ 1024 → s.issues sv (.svTint sv a b c) x → exec (.svTint sv a b c) s =
        .next (s.yieldsFlags sv x a (if u < 0 then sat32 (y 0) else if n - 1 ≤ i then sat32 (y (n - 1))
          else sat32 (y i + divHalfUp ((y (i + 1) - y i) * (u % (sh : Int))) sh)) 2))
      ∧ (inside → n < 2 ∨ 1024 < n → s.issues sv (.svTint sv a b c) x → exec (.svTint sv a b c) s =
        .next (s.free.2.yields sv x a s.free.1 2))
      ∧ (¬ inside → s.issues sv (.svTint sv a b c) x → exec (.svTint sv a b c) s = .next (s.trapRun sv 3))
      ∧ (s.issues sv (.svCrc sv a b 0) x → exec (.svCrc sv a b 0) s =
        .next (s.yields sv x a (crc32cRaw (v.reg a) (leBytes (v.reg b) 4)) 1))
      ∧ (s.issues sv (.svCrc sv a b 1) x → exec (.svCrc sv a b 1) s =
        .next (s.yields sv x a (tirwinRaw (v.reg a) (leBytes (v.reg b) 4)) 1))
      ∧ (2 ≤ imm → s.issues sv (.svCrc sv a b imm) x → exec (.svCrc sv a b imm) s = .next (s.free.2.yields sv x a s.free.1 1)))

/-- LW and SW at sb + sext(imm), 4-byte aligned and within the data SRAM, the loop records closed to SW (R312): else DADDR (3). The
branches go to pc + 4 x sext(imm) where their relation holds; JAL also writes pc + 4 to sa; JR goes to sa (R281, R292). -/
def Obligations.StoveMemoryAndBranches : Prop :=
  ∀ (s : State) (sv a b imm : Nat) (x : Run),
    let v := s.stove sv
    let y := v.reg a
    let z := v.reg b
    let ad := toU 32 ((z : Int) + toI 16 imm)
    let next := (x.pc + 4) % 2 ^ 32
    let there := toU 32 ((x.pc : Int) + 4 * toI 16 imm)
    (ad < 65536 → ad % 4 = 0 → s.issues sv (.svLw sv a b imm) x →
        exec (.svLw sv a b imm) s = .next (s.yields sv x a (memGetLE 0 v.dsram ad 4) 1))
    ∧ (65536 ≤ ad ∨ ad % 4 ≠ 0 → s.issues sv (.svLw sv a b imm) x → exec (.svLw sv a b imm) s = .next (s.trapRun sv 3))
    ∧ (ad < dLoopBase → ad % 4 = 0 → s.issues sv (.svSw sv a b imm) x → exec (.svSw sv a b imm) s =
        .next ((s.modStove sv (fun v => { v with dsram := memSetLE 0 v.dsram ad 4 y })).goesNext sv x 1))
    ∧ (dLoopBase ≤ ad ∨ ad % 4 ≠ 0 → s.issues sv (.svSw sv a b imm) x → exec (.svSw sv a b imm) s = .next (s.trapRun sv 3))
    ∧ (s.issues sv (.svBeq sv a b imm) x → exec (.svBeq sv a b imm) s = .next (s.retires sv x 0 1 (if y = z then there else next)))
    ∧ (s.issues sv (.svBne sv a b imm) x → exec (.svBne sv a b imm) s = .next (s.retires sv x 0 1 (if y = z then next else there)))
    ∧ (s.issues sv (.svBlt sv a b imm) x → exec (.svBlt sv a b imm) s =
        .next (s.retires sv x 0 1 (if toI 32 y < toI 32 z then there else next)))
    ∧ (s.issues sv (.svBge sv a b imm) x → exec (.svBge sv a b imm) s =
        .next (s.retires sv x 0 1 (if toI 32 y < toI 32 z then next else there)))
    ∧ (s.issues sv (.svJal sv a imm) x → exec (.svJal sv a imm) s =
        .next ((s.modStove sv (fun v => v.setReg a next)).retires sv x 0 1 there))
    ∧ (s.issues sv (.svJr sv a) x → exec (.svJr sv a) s = .next (s.retires sv x 0 1 y))

/-- The accumulators (R281, R283): MACC and MSUB add or subtract the exact signed product and saturate to 72 bits with ASATn, ACLR
clears, ALD loads sb x 2^32 + sc sign-extended, ARD reads acc / 2^n rounded half toward plus infinity, saturated to 32 bits with SAT32. A
shift above 63 has no stated result: a free value (log 20). The FP32 unit (R281, R283): each operation's result and flags go to sa and
STICKY; FDIV and FSQRT take 8 cycles, the rest one. FABS and FNEG change the sign bit of a number, flush a subnormal, and give the one
NaN for a NaN; FCMP writes 1 or 0 and traps with ILLEGAL (1) for x[10:9] = 3; a conversion with a scale above 63 has no stated result: a
free value (log 20). FMIN and FMAX of numbers the spec gives no order take a free value (log 22). -/
def Obligations.StoveAccumulatorsAndFloat : Prop :=
   (∀ (s : State) (sv a b c imm : Nat) (x : Run),
      let v := s.stove sv
      let m := toI 32 (v.reg b) * toI 32 (v.reg c)
      (s.issues sv (.svMacc sv a b c) x → exec (.svMacc sv a b c) s =
        .next ((s.modStove sv (fun w => w.setAcc a (sat72 a (v.acc a + m)).1)).retires sv x (sat72 a (v.acc a + m)).2 1 ((x.pc + 4) % 2 ^ 32)))
      ∧ (s.issues sv (.svMsub sv a b c) x → exec (.svMsub sv a b c) s =
        .next ((s.modStove sv (fun w => w.setAcc a (sat72 a (v.acc a - m)).1)).retires sv x (sat72 a (v.acc a - m)).2 1 ((x.pc + 4) % 2 ^ 32)))
      ∧ (s.issues sv (.svAclr sv a) x → exec (.svAclr sv a) s = .next ((s.modStove sv (fun w => w.setAcc a 0)).goesNext sv x 1))
      ∧ (s.issues sv (.svAld sv a b c) x → exec (.svAld sv a b c) s =
        .next ((s.modStove sv (fun w => w.setAcc a (toI 32 (v.reg b) * 2 ^ 32 + (v.reg c : Int)))).goesNext sv x 1))
      ∧ (imm ≤ 63 → s.issues sv (.svArd sv a b imm) x → exec (.svArd sv a b imm) s =
        .next (s.yieldsFlags sv x a (sat32 (divHalfUp (v.acc b) (2 ^ imm))) 1))
      ∧ (63 < imm → s.issues sv (.svArd sv a b imm) x → exec (.svArd sv a b imm) s = .next (s.free.2.yields sv x a s.free.1 1)))
   ∧(∀ (s : State) (sv a b c x imm : Nat) (r : Run),
      let v := s.stove sv
      let f := fun (i : Nat) => fpOf (v.reg i)
      (s.issues sv (.svFadd sv a b c) r → exec (.svFadd sv a b c) s = .next (s.yieldsFlags sv r a ((f b).add (f c)) 1))
      ∧ (s.issues sv (.svFsub sv a b c) r → exec (.svFsub sv a b c) s = .next (s.yieldsFlags sv r a ((f b).add (f c).negate) 1))
      ∧ (s.issues sv (.svFmul sv a b c) r → exec (.svFmul sv a b c) s = .next (s.yieldsFlags sv r a ((f b).mul (f c)) 1))
      ∧ (s.issues sv (.svFma sv a b c) r → exec (.svFma sv a b c) s = .next (s.yieldsFlags sv r a ((f a).fma (f b) (f c)) 1))
      ∧ (s.issues sv (.svFdiv sv a b c) r → exec (.svFdiv sv a b c) s = .next (s.yieldsFlags sv r a ((f b).div (f c)) 8))
      ∧ (s.issues sv (.svFsqrt sv a b) r → exec (.svFsqrt sv a b) s = .next (s.yieldsFlags sv r a ((f b).sqrt) 8))
      ∧ (s.issues sv (.svFmin sv a b c) r → exec (.svFmin sv a b c) s =
        .next (s.free.2.yieldsFlags sv r a (fpPick false (v.reg b) (v.reg c) s.free.1) 1))
      ∧ (s.issues sv (.svFmax sv a b c) r → exec (.svFmax sv a b c) s =
        .next (s.free.2.yieldsFlags sv r a (fpPick true (v.reg b) (v.reg c) s.free.1) 1))
      ∧ (s.issues sv (.svFabs sv a b) r → exec (.svFabs sv a b) s = .next (s.yields sv r a (if (f b).nan then fpNan else fpSigned false (fpFlush (v.reg b) % 2 ^ 31)) 1))
      ∧ (s.issues sv (.svFneg sv a b) r → exec (.svFneg sv a b) s = .next (s.yields sv r a (if (f b).nan then fpNan else fpSigned (!bitAt (v.reg b) 31) (fpFlush (v.reg b) % 2 ^ 31)) 1))
      ∧ (x < 3 → s.issues sv (.svFcmp sv a b c x) r → exec (.svFcmp sv a b c x) s =
        .next (s.yields sv r a (if (f b).cmp x (f c) then 1 else 0) 1))
      ∧ (s.issues sv (.svFcmp sv a b c 3) r → exec (.svFcmp sv a b c 3) s = .next (s.trapRun sv 1))
      ∧ (imm ≤ 63 → s.issues sv (.svFcvtsw sv a b imm) r → exec (.svFcvtsw sv a b imm) s =
        .next (s.yieldsFlags sv r a (fpFromInt (toI 32 (v.reg b)) imm) 1))
      ∧ (imm ≤ 63 → s.issues sv (.svFcvtws sv a b imm) r → exec (.svFcvtws sv a b imm) s =
        .next (s.yieldsFlags sv r a (fpToInt (v.reg b) imm) 1))
      ∧ (63 < imm →
        (s.issues sv (.svFcvtsw sv a b imm) r → exec (.svFcvtsw sv a b imm) s = .next (s.free.2.yields sv r a s.free.1 1))
        ∧ (s.issues sv (.svFcvtws sv a b imm) r → exec (.svFcvtws sv a b imm) s = .next (s.free.2.yields sv r a s.free.1 1))))

/-- SRR reads a system register of R285 or R315 (a free value where the spec states none: log 20), SRW writes one (LPV and LCTL: the next
statement), and a write of a read-only one changes nothing. 0x3E traps with ILLEGAL (1). A write of LPV is a loop step (LOOP_STEP), of
LCTL a request (LCTL_HOLD, LCTL_RESUME) (R316, R318, R320, R321): a loop that the law does not serve traps with UNBOUND (7), a second
step of a loop in one run with OUT_LIMIT (5); a NaN holds the loop with cause 7; else the record is stepped; the flags of its FP32
operations go to STICKY. LCTL 1 holds an AUTO loop with cause 4; LCTL 2 returns a loop that LCTL held to AUTO. All is staged: nothing is
committed before END. -/
def Obligations.StoveSystemRegisters : Prop :=
   (∀ (s : State) (sv a imm : Nat) (x : Run),
      let v := s.stove sv
      let y := v.reg a
      let k := v.lsel
      let set := fun (f : Stove → Stove) => Host.Outcome.next ((s.modStove sv f).goesNext sv x 1)
      (∀ z, v.sysRead x imm = some z → s.issues sv (.svSrr sv a imm) x → exec (.svSrr sv a imm) s = .next (s.yields sv x a z 1))
      ∧ (v.sysRead x imm = none → s.issues sv (.svSrr sv a imm) x → exec (.svSrr sv a imm) s = .next (s.free.2.yields sv x a s.free.1 1))
      ∧ (s.issues sv (.svSrw sv a 5) x → exec (.svSrw sv a 5) s = set (fun v => { v with sticky := v.sticky - (v.sticky &&& y) }))
      ∧ (s.issues sv (.svSrw sv a 8) x → exec (.svSrw sv a 8) s = set (fun v => { v with lsel := y % 8 }))
      ∧ (s.issues sv (.svSrw sv a 9) x → exec (.svSrw sv a 9) s = set (fun v => { v with lsp := tset v.lsp k (BitVec.ofNat 32 y) }))
      ∧ (s.issues sv (.svSrw sv a 10) x → exec (.svSrw sv a 10) s = set (fun v => { v with lff := tset v.lff k (BitVec.ofNat 32 y) }))
      ∧ (imm ∉ [5, 8, 9, 10, 11, 14] → s.issues sv (.svSrw sv a imm) x → exec (.svSrw sv a imm) s = .next (s.goesNext sv x 1))
      ∧ (s.issues sv (.svIllegal sv 0x3E) x → exec (.svIllegal sv 0x3E) s = .next (s.trapRun sv 1)))
   ∧(∀ (s : State) (sv a : Nat) (x : Run),
      let v := s.stove sv
      let pv := v.reg a
      let k := v.lsel
      let r := v.staged x k
      let serves := bitAt (v.law x.law).loops k
      let sp := if bitAt (r.getD 7 0) 0 then (tget 0 v.lsp k).toNat else r.getD 8 0
      let e := if bitAt (r.getD 7 0) 5 then fsub (fpv pv) (fpv sp) else fsub (fpv sp) (fpv pv)
      let ff := if bitAt (r.getD 7 0) 1 then (tget 0 v.lff k).toNat else 0
      let c := loopCompute r pv e.1 ff x.trigTime (bitAt v.safeJump k && lrState r = 1)
      let steps := fun (l : LoopRec) (flags : Nat) => Host.Outcome.next
        (((s.stageLoop sv k l).modStove sv (fun v => { v with run := v.run.map (fun y => { y with stepped := k :: y.stepped }) })).retires
          sv x flags 1 ((x.pc + 4) % 2 ^ 32))
      let stages := fun (l : LoopRec) => Host.Outcome.next ((s.stageLoop sv k l).goesNext sv x 1)
      let lpv := fun (o : Host.Outcome State Fault Refusal) => exec (.svSrw sv a 11) s = o ∧ exec (.svLoopStep sv a 11) s = o
      (s.issues sv (.svSrw sv a 11) x →
        (serves = false → lpv (.next (s.trapRun sv 7)))
        ∧ (serves = true → k ∈ x.stepped → lpv (.next (s.trapRun sv 5)))
        ∧ (serves = true → k ∉ x.stepped → fpIsNan e.1 ∨ fpIsNan ff → lpv (steps (lrTrap 7 r) e.2))
        ∧ (serves = true → k ∉ x.stepped → ¬ (fpIsNan e.1 ∨ fpIsNan ff) → lpv (steps c.1 (e.2 ||| c.2))))
      ∧ (s.issues sv (.svSrw sv a 14) x → pv = 1 → lrState r = 2 →
        exec (.svSrw sv a 14) s = stages (lrHold 4 r) ∧ exec (.svLctlHold sv a 14) s = stages (lrHold 4 r))
      ∧ (s.issues sv (.svSrw sv a 14) x → pv = 2 → lrState r = 3 → lrField r 16 8 4 = 4 → bitAt (r.getD 7 0) 2 →
        s.tripLow = false ∨ lrField r 7 3 2 = 0 →
        exec (.svSrw sv a 14) s = stages (lrAuto r) ∧ exec (.svLctlResume sv a 14) s = stages (lrAuto r))
      ∧ (s.issues sv (.svSrw sv a 14) x →
        ¬ (pv = 1 ∧ lrState r = 2)
          ∧ ¬ (pv = 2 ∧ lrState r = 3 ∧ lrField r 16 8 4 = 4 ∧ bitAt (r.getD 7 0) 2 ∧ (s.tripLow = false ∨ lrField r 7 3 2 = 0)) →
        exec (.svSrw sv a 14) s = .next (s.goesNext sv x 1)))

/-- The output instructions stage, and stop at their limits (R290 to R292): UNBOUND (7) without a binding, DADDR (3) for a range outside
the data SRAM, OUT_LIMIT (5) beyond 4 MSG, 4 QREC, 1 TRG, 1 EVT, 1 PSREQ, ILLEGAL (1) for TRIPR outside the protection hearth. END ends
the run and releases its staged outputs in their order: the loop steps commit, then the force targets, the trip request, the trigger, the
messages, the records, the event and the program-store request (R291, R318); the law's MAX_SEEN and LAST_RUN are kept. -/
def Obligations.StoveOutputs : Prop :=
   (∀ (s : State) (sv a imm : Nat) (x : Run),
      let v := s.stove sv
      let y := v.reg a
      let stages := fun (f : Staged → Staged) => Host.Outcome.next ((s.stageOut sv f).goesNext sv x 1)
      let traps := fun (c : Nat) => Host.Outcome.next (s.trapRun sv c)
      let range := fun (l : Nat) => y % 4 = 0 ∧ y + l ≤ 65536
      let prot := s.trust.protHearth = some (s.stoveOwner sv)
      (s.issues sv (.svFout sv a imm) x → exec (.svFout sv a imm) s =
        if v.forceBind.any (fun e => e.1 = imm % 8) then stages (fun g => { g with force := tset g.force (imm % 8) (BitVec.ofNat 32 y) })
        else traps 7)
      ∧ (s.issues sv (.svMsg sv a imm) x → exec (.svMsg sv a imm) s =
        match v.msgBind.find? (fun e => e.1 = imm % 16) with
        | none => traps 7
        | some b => if ¬ range b.2.length then traps 3 else if 4 ≤ x.staged.msgs.length then traps 5
          else stages (fun g => { g with msgs := g.msgs ++ [(imm % 16, y)] }))
      ∧ (s.issues sv (.svQrec sv a imm) x → exec (.svQrec sv a imm) s =
        if !v.recBind.any (fun e => e.1 = imm % 4) then traps 7
        else if ¬ range 48 then traps 3 else if 4 ≤ x.staged.recs.length then traps 5
        else stages (fun g => { g with recs := g.recs ++ [(imm % 4, y)] }))
      ∧ (prot → s.issues sv (.svTripr sv a) x → exec (.svTripr sv a) s = stages (fun g => { g with trip := some (y ≠ 0) }))
      ∧ (¬ prot → s.issues sv (.svTripr sv a) x → exec (.svTripr sv a) s = traps 1)
      ∧ (s.issues sv (.svTrg sv) x → exec (.svTrg sv) s =
        if x.staged.trigger then traps 5 else stages (fun g => { g with trigger := true }))
      ∧ (s.issues sv (.svEvt sv a) x → exec (.svEvt sv a) s =
        if x.staged.evt.isSome then traps 5 else stages (fun g => { g with evt := some (y % 65536) }))
      ∧ (s.issues sv (.svPsreq sv a) x → exec (.svPsreq sv a) s =
        if ¬ range 16 then traps 3 else if x.staged.psreq.isSome then traps 5 else stages (fun g => { g with psreq := some y })))
   ∧(∀ (s : State) (sv : Nat) (x : Run),
      s.issues sv (.svEnd sv) x →
      let g := x.staged
      let ended := s.modStove sv (fun v =>
        let w : Stove := x.loops.foldl (fun v e => v.putLoop e.1 e.2) v
        { w with run := none, safeJump := w.safeJump - (w.safeJump &&& maskOf 8 (fun k => x.stepped.contains k)) }.modLaw x.law
          (fun l => { l with maxSeen := max l.maxSeen (min 65535 (x.cycle + 1)), lastRun := s.stamp }))
      let looped := x.loopEvs.foldl
        (fun s e => s.loopEvent sv e.1 e.2.1 (e.2.2 % 4) (((s.stove sv).loopRec e.1).getD 7 0) (e.2.2 / 4)) ended
      let forced := g.force.foldl (fun s e => s.stoveTarget sv (tget (0, 0) (s.stove sv).forceBind e.1).2 e.2) looped
      let tripped := g.trip.elim forced (fun b => (forced.modStove sv (fun v => { v with tripReq := b })).tripCheck)
      let triggered := if g.trigger then tripped.sendTriggers 3 tripped.node.clock (fun _ q => q.trigArg % 32 = sv) else tripped
      let sent := g.msgs.foldl (fun s e => s.releaseMsg sv e.1 e.2) triggered
      let recorded := g.recs.foldl (fun s e => s.releaseRec sv x.law x.trigSeq e.1 e.2) sent
      let told := g.evt.elim recorded (fun c => recorded.releaseEvt sv x.law c)
      let asked := g.psreq.elim told (fun a => told.releasePsreq sv a)
      exec (.svEnd sv) s = .next ((asked.runEnded sv x.law).goesNext sv x 1))

/-- POWER_ON and the resets of the supplies, of RST_N and of the power-fail sequence (R551, R552, R555, R556): a digital rail that browns
out first lets the power-fail record be written for the dies that reached die 0; RST_N freezes the pairs, captures the record and resets
with CAUSE 4; the staged entries of the change log are programmed in any case; a rail's range is kept per die and one out of range told
with a free reading; RESET_RELEASE samples ROLE and starts the clock. The power-fail sequence (R347, R349, R551): VA5_POWER_FAIL closes
the windows as SHORT, takes every force output to Hi-Z, gives up the record being written and captures its own; the staged change-log
entries are programmed with it; after the read-back the device goes on when every rail is in range, else it resets with CAUSE 3. -/
def Obligations.SupplyResets : Prop :=
   (∀ (s : State) (rail die role : Nat) (sent : List Nat),
      let down := { s with node := { s.node with badRails := insertSorted rail s.node.badRails } }
      let lost := (List.range s.node.dies).filter (fun d => d ≠ 0 && !sent.contains d)
      let railOk := 1 ≤ rail ∧ rail ≤ 8
      exec .powerOn s = .next (s.afterReset 1 0 true)
      ∧ (railOk → rail ≠ 3 → s.node.inReset → exec (.supplyBrownOut rail sent) s = .next down)
      ∧ (railOk → rail ≠ 3 → s.node.inReset = false → rail ≤ 4 ∨ s.node.pfStage ≠ .none →
        exec (.supplyBrownOut rail sent) s = .next ((if s.clog.staging = [] then down else down.pfStart).afterReset 2 rail true))
      ∧ (railOk → s.node.inReset = false → 5 ≤ rail → s.node.pfStage = .none →
        exec (.supplyBrownOut rail sent) s = .next ((down.freezePairs.capturePf lost).pfStart.afterReset 2 rail true))
      ∧ (die < s.node.dies → railOk →
        let rest := s.node.badAt.filter (· ≠ (die, rail))
        let out := { down with node := { down.node with badAt := (die, rail) :: rest } }
        exec (.supplyRange die rail true) s = .next { s with node := { s.node with
          badAt := rest, badRails := if rest.any (fun e => e.2 = rail) then s.node.badRails else s.node.badRails.filter (· ≠ rail) } }
        ∧ (s.node.inReset → exec (.supplyRange die rail false) s = .next out)
        ∧ (s.node.inReset = false →
          exec (.supplyRange die rail false) s = .next (out.free.2.report 0x18 die (rail + 256 * (out.free.1 % 65536)))))
      ∧ (let low := { s with node := { s.node with rstLow := true } }
        (s.node.inReset → exec .rstNAssert s = .next low)
        ∧ (s.node.inReset = false → s.node.pfStage = .none →
          exec .rstNAssert s = .next ((low.freezePairs.capturePf []).pfStart.afterReset 4 0 false))
        ∧ (s.node.inReset = false → s.node.pfStage ≠ .none → exec .rstNAssert s = .next (low.afterReset 4 0 false)))
      ∧ (s.node.inReset → role < 4 → exec (.resetRelease role) s = .next { s with node := { s.node with
        inReset := false, rstLow := false, badRails := [], badAt := [], role := role, clock := 0, up := 0 } }))
   ∧(∀ (s : State),
      let staged := s.clog.staging.foldl (fun s e => s.clogAppend e) { s with clog := { s.clog with staging := [] } }
      (s.node.inReset = false → s.node.pfStage = .none → s.node.va5Off = false →
        let a := ({ s with node := { s.node with badRails := insertSorted 3 s.node.badRails } }).freezePairs
        let b := (List.range a.nTiles).foldl (fun s n => (s.closeTile n (fun _ => true)).forceLost n) a
        let c := { b with node := { b.node with va5Off := true }, meter := b.meter.abandon }.capturePf []
        exec .va5PowerFail s = .next c.pfStart)
      ∧ (s.node.pfStage = .programming none →
        exec .powerFailProgramDone s = .next { s with node := { s.node with pfStage := .readBack none } })
      ∧ (∀ c, s.node.pfStage = .programming (some c) →
        let u := { s with node := { s.node with pfStage := .readBack (some c) } }
        exec .powerFailProgramDone s =
          .next (u.clog.staging.foldl (fun s e => s.clogAppend e) { u with clog := { u.clog with staging := [] } }))
      ∧ (∀ c, s.node.pfStage = .readBack (some c) →
        exec .powerFailReadbackDone s = .next { s with node := { s.node with pfStage := .none } })
      ∧ (s.node.pfStage = .readBack none → s.node.badRails = [] → exec .powerFailReadbackDone s = .next s.va5Back)
      ∧ (s.node.pfStage = .readBack none → s.node.badRails ≠ [] →
        exec .powerFailReadbackDone s = .next ({ staged with node := { staged.node with pfStage := .none } }.afterReset 3 3 true)))

/-- Kindling (R558 to R561): die d starts 2 d ms after the reference, its units kindle in order at their offsets, their islands trimmed
as they start, the PCIe lanes follow the dies and the ring lanes them; under a FATAL kept from before only the core logic of die 0
starts, and a latched die stays fenced. A bridge that has not come up 5 ms after the start of its die reports DIE_LOST. The flue bridges
(R25, R516): a transfer whose CRC fails is resent and reports FLUE_CRC, a second failure reports FLUE_FAIL; 8 us without a valid transfer
reports DIE_LOST. The draught's source (R29, R36 to R38): without DCLK a manager holds over and reports SYS clock loss; a worker follows
its other port and holds over when both are lost; a source that returns is locked to without a phase step. Every 10 ms each island is
trimmed to within 3 % above its step frequency: free values (log 18). -/
def Obligations.Kindling : Prop :=
   (∀ (s : State) (die : Nat) (chk : KindleChecks),
      let k := tget {} s.node.kindle die
      let first := 2000000 * s.node.dies
      s.node.inReset = false →
      (die < s.node.dies → k.start = none → 2000000 * die ≤ s.sinceRef → s.dieFenced die = false → s.faults.fatal = false ∨ die = 0 →
        exec (.kindleDie die) s = .next (s.modKindle die (fun k => { k with start := some (2000000 * die) })))
      ∧ (∀ t, die < s.node.dies → k.start = some t → k.nextUnit ≤ 44 → t + kindleOffset k.nextUnit ≤ s.sinceRef → s.dieFenced die = false →
        s.faults.fatal = false ∨ k.nextUnit = 0 →
        exec (.kindleUnit die chk) s = 
          let u := s.modKindle die (fun x => { x with nextUnit := k.nextUnit + 1, bridgeUp := x.bridgeUp || (die ≠ 0 && chk.bridge) })
          .next (((u.trimIslands (u.islandsOf die k.nextUnit)).kindleEffect die k.nextUnit chk).checkReady))
      ∧ (s.isWorker = false → s.host.perst = false → s.node.pcieLanes < 8 → first + 250000 * s.node.pcieLanes ≤ s.sinceRef →
        exec (.kindleLane false) s = .next { s with node := { s.node with pcieLanes := s.node.pcieLanes + 1 } }.checkReady)
      ∧ (s.isAlone = false → s.faults.fatal = false → s.node.ringLanes < 8 → first + 2000000 + 250000 * s.node.ringLanes ≤ s.sinceRef →
        let u := if s.node.ringLanes % 4 = 0 then s.trimIslands [s.islands - 2 + s.node.ringLanes / 4] else s
        exec (.kindleLane true) s = .next { u with node := { u.node with ringLanes := s.node.ringLanes + 1 } }.checkReady)
      ∧ (∀ t, die < s.node.dies → die ≠ 0 → k.start = some t → k.bridgeUp = false → t + 5000000 ≤ s.sinceRef → s.dieFenced die = false →
        (0x12, die, 0) ∉ s.faults.reports → exec (.flueBridgeTimeout die) s = .next (s.report 0x12 die 0)))
   ∧(∀ (s : State) (die : Nat),
      let k := tget {} s.node.kindle die
      let resend := fun (b : Bool) => s.modKindle die (fun k => { k with resend := b })
      s.node.inReset = false → die < s.node.dies → die ≠ 0 → k.bridgeUp → s.dieFenced die = false →
      exec (.flueTransfer die false) s = .next (s.modKindle die (fun k => { k with resend := false, lastTransfer := s.now }))
      ∧ (k.resend = false → exec (.flueTransfer die true) s = .next ((resend true).report 0x10 die 0))
      ∧ (k.resend → exec (.flueTransfer die true) s = .next ((resend false).report 0x11 die 0))
      ∧ (k.lastTransfer + 8000 ≤ s.now → (0x12, die, 0) ∉ s.faults.reports →
        exec (.dieKeepaliveTimeout die) s = .next (s.report 0x12 die 0)))
   ∧(∀ (s : State) (east : Bool),
      let heldOver := fun (u : State) =>
        ({ u with node := { u.node with dclkPresent := false, draughtLocked := false, holdover := true } }).report 0x15 0 0
      let lost := fun (r : Ring) => if east then { r with east := { r.east with clockLost := true } }
        else { r with west := { r.west with clockLost := true } }
      let locked := { s with node := { s.node with draughtLocked := true, holdover := false, everLocked := true } }
      s.node.inReset = false →
      (s.isWorker = false → s.node.dclkPresent → exec .dclkLoss s = .next (heldOver s))
      ∧ (s.isWorker = false → s.node.dclkPresent = false → s.node.holdover = false → 100000000 ≤ s.sinceRef →
        exec .dclkAbsentTimeout s = .next (heldOver s))
      ∧ (s.isWorker = false → exec (.draughtSourceReturn east) s = .next { locked with node := { locked.node with dclkPresent := true } })
      ∧ (s.isWorker → exec (.draughtSourceReturn true) s = .next { locked with ring := { s.ring with east := { s.ring.east with clockLost := false } } })
      ∧ (s.isWorker → exec (.draughtSourceReturn false) s = .next { locked with ring := { s.ring with west := { s.ring.west with clockLost := false } } })
      ∧ (s.isWorker → (lost s.ring).east.clockLost = false ∨ (lost s.ring).west.clockLost = false →
        exec (.recoveredClockLoss east) s = .next { s with
          ring := if s.ring.activeEast = east then { lost s.ring with activeEast := !east } else lost s.ring })
      ∧ (s.isWorker → (lost s.ring).east.clockLost → (lost s.ring).west.clockLost → s.node.holdover = false →
        exec (.recoveredClockLoss east) s = .next (heldOver { s with ring := lost s.ring }))
      ∧ (s.node.trimAt + 10000000 ≤ s.now → ∃ t, exec .oscillatorTrim s = .next t ∧ t.node.trimAt = s.now
        ∧ (∀ i < s.islands, tget 0 t.node.trim i = Config.freeVal (s.fresh + i) % 30001)
        ∧ { t with fresh := s.fresh, node := { t.node with trimAt := s.node.trimAt, trim := s.node.trim } } = s))

/-- The overvoltage switch of a pin (R70, R73 to R78) and the CMX region (R72): an opening counts, joins the open pins of its group and
is told with its time, and aborts a loopback test of the tile; a closing leaves them, and DIS runs 2.0 us on, merged with a DIS that
still runs; an entry of the CMX region counts for the pin and its tile, and is told to the hearth of the pin where it asks for it. -/
def Obligations.PinEvents : Prop :=
  ∀ (s : State) (p sub : Nat) (high : Bool),
    s.pinThere p →
    let g := pinGroup p
    let tell := fun (u : State) (code : Nat) => (u.raisePin code p (u.pinOvpEv p) (u.ovpDetail p)).logEv code
      (((u.raisePin code p (u.pinOvpEv p) (u.ovpDetail p)).pinHearth p).getD 15) (pinSubject p)
      ((u.raisePin code p (u.pinOvpEv p) (u.ovpDetail p)).ovpDetail p)
    let stamped := fun (u : State) (f : FrontEnd → FrontEnd) => if p < 4096 then u.modTile (p / 2) (fun t => { t with fe := f t.fe }) else u
    (s.pinUp p → (s.pin p).inEvent = false →
      let k := (s.group g).fe.ovpSeq
      let a := s.modPin p (fun x => { x with
        inEvent := true, high := high, ord := k, openAt := s.node.clock + sub % 3125, cnt := x.cnt.bump 16 })
      let b := a.modGroup g (fun y => { y with fe := { y.fe with openPins := y.fe.openPins ++ [p], ovpSeq := k + 1 } })
      let c := tell (stamped b (fun x => { x with lastOpen := b.stamp })) 0x0201
      exec (.ovpOpen ⟨p, sub⟩ high) s = .next (if p < 4096 then c.loopbackAbort (p / 2) else c))
    ∧ ((s.pin p).inEvent →
      let now := s.node.clock + sub % 3125
      let a := s.modPin p (fun x => { x with inEvent := false, closeAt := now })
      let b := a.modGroup g (fun y => { y with fe := { y.fe with
        openPins := y.fe.openPins.filter (· ≠ p), disFrom := if y.fe.disUntil ≤ now then now else y.fe.disFrom,
        disUntil := now + 128000 } })
      exec (.ovpClose ⟨p, sub⟩) s = .next (tell (stamped b (fun x => { x with lastClose := b.stamp })) 0x0202))
    ∧ ((s.pin p).cmx = false → s.switchOpen p = false →
      let a := s.modPin p (fun x => { x with cmx := true, cmxCnt := x.cmxCnt.bump 16 })
      let b := stamped a (fun x => { x with cmxCnt := x.cmxCnt.bump 16 })
      let n := if p < 4096 then (b.tile (p / 2)).fe.cmxCnt.n else (b.pin p).cmxCnt.n
      (∀ h, b.pinHearth p = some h →
        exec (.cmxEntry p true) s = .next (if b.pinCmxEv p then b.raise 0x0203 h (pinSubject p) n else b))
      ∧ (b.pinHearth p = none → exec (.cmxEntry p true) s = .next b))
    ∧ exec (.cmxEntry p false) s = .next (s.modPin p (fun x => { x with cmx := false }))

/-- Power-up calibration (R251, R252, R258): 200 ms after its start the triad of a kindled die has settled, and its cores that no fence
holds calibrate from the row in force, or are in CAL_FAIL with cause TRIAD when no row is valid; the coarse search, its conversions
counted, sets the analogue trims where they are in range and the passes begin. The fine values follow the temperature every 10 ms (R242):
offset and gain from the coefficients of the core, held at the ends of their ranges; a tile whose temperature has moved by more than
TEMP_STEP is queued for a rolling step (R264) while the reserve substitutes for none (R266). A calibration pass of the segments of R243
ends after 12 ms (R243, R248), its 245,760 conversions counted: the first of two is kept and the next begins with a seed of its own;
after the second, two valid passes that agree, lie within the anchors and give trims in range apply; else RETRY counts and another
attempt begins, and after the fourth the calibration fails, with the first cause that holds (R250). -/
def Obligations.CalibrationPasses : Prop :=
   (∀ (s : State) (die c : Nat) (temp offset gain : Int) (weights pga : List Int) (found : CoarseEnd),
      let settled := s.modKindle die (fun k => { k with triadSettled := true })
      let k := tget {} s.node.kindle die
      let t : Trims := { offset := offset, gain := gain, weights := weights, pga := pga, forceOffset := found.forceOffset, forceGain := found.forceGain }
      (∀ t0, die < s.node.dies → k.start = some t0 → t0 + 200000000 ≤ s.node.up / 64 → k.kindled → k.triadSettled = false →
        s.dieFenced die = false → exec (.triadSettled die) s = .next (if (settled.rowsOf die).rowOk
          then ((dieCores die).filter (fun c => !settled.calUp c && !settled.coreFenced c && !settled.groupFenced (coreGroup c)
              && (decide (1024 ≤ c) || !settled.tileFenced c) && (settled.calCore c).run.isNone)).foldl
            (fun s c => (s.loadRowTrims c).calStart c .powerUp false) settled
          else ((dieCores die).foldl (fun s c => s.calFailed c cTRIAD false (s.calSet c)) settled).checkReady))
      ∧ (∀ x, (s.calCore c).run = some x → x.coarse → exec (.coarseSearchDone c offset gain weights pga found) s =
        let u := s.converted c (min found.conversions 40960) found.forced
        .next (u.modCal c (fun k => { k with
          trims := if t.inRange then t else k.trims
          run := some { x with coarse := false, startedAt := u.now, startUp := u.node.up } })))
      ∧ (die < s.node.dies → s.node.inReset = false → s.dieFenced die = false → tget 0 s.node.compAt die + 10000000 ≤ s.now →
        let a := { s with node := { s.node with temp := tset s.node.temp die temp, compAt := tset s.node.compAt die s.now } }
        let follow := fun (u : State) (c : Nat) => u.modCal c (fun k =>
          let dt := temp - k.refTemp
          if k.state = 0 then k else { k with trims := { k.trims with
            fineOffset := (List.range 8).map (fun i => clampI (-32768) 32767
              (k.base.fineOffset.getD i 0 - divHalfUp (toI 16 (u.coreField c 24 0 16) * dt * (2 ^ i : Nat) * 512) (2 * 100 * 78125)))
            fineGain := (List.range 8).map (fun i => clampI (-100000) 100000
              (k.base.fineGain.getD i 0 - divHalfUp (toI 16 (u.coreField c 26 0 16) * dt) 1000)) } })
        let roll := fun (u : State) (n : Nat) =>
          let g := (u.group (groupOfTile n)).sched
          let k := u.calCore n
          if g.tempStep ≠ 0 ∧ g.rollPeriod ≠ 0 ∧ k.lastCal ≠ 0 ∧ 50 * g.tempStep < (temp - k.calTemp).natAbs
            ∧ (.rolling, n) ∉ g.demands ∧ k.run = none ∧ u.substitutes (groupOfTile n) = false
          then u.modSched (groupOfTile n) (fun x => { x with demands := x.demands ++ [(.rolling, n)] }) else u
        exec (.tempCompensation die temp) s = .next ((dieTiles die).foldl roll ((dieCores die).foldl follow a))))
   ∧(∀ (s : State) (c : Nat) (p : CalPass) (x : CalRun),
      (s.calCore c).run = some x → x.coarse = false → x.startedAt + 12000000 ≤ s.now → passShaped p →
      let out := s.runPass c x.seed p
      let u := (s.converted c 245760 p.forced).triadCheck (coreDie c) out.2.1 out.2.2
      (x.passes = [] → exec (.calPassDone c p) s =
        .next (u.nextPass c { x with passes := [out.1] }))
      ∧ (∀ p1, x.passes = [p1] →
        let p2 := out.1
        let a := p1.average p2
        let t := a.trims (u.calCore c).trims
        let v := u.modCal c (fun k => { k with
          diffOffset := min (maxDiff p1.offsets p2.offsets * 7812500 / (1000 * 4294967296)) 65535,
          diffGain := min (maxDiff (p1.coreGain :: p1.ratios) (p2.coreGain :: p2.ratios) * 100000000 / 4294967296) 65535,
          diffWeight := min (maxDiff p1.weights p2.weights * 64 / 4294967296) 65535 })
        let sound := p1.valid ∧ p2.valid ∧ agree (c < 1024) p1 p2 ∧ v.withinAnchors c a (v.calCore c).trims ∧ t.inRange
        (sound → exec (.calPassDone c p) s = .next ((v.calApply c x a t).calEnd c x true).checkReady)
        ∧ (¬ sound → p1.valid ∨ p1.cause ≠ 0 →
          let cause := if p1.valid = false then p1.cause else if p2.valid = false then p2.cause else if agree (c < 1024) p1 p2 = false then 1
            else if v.withinAnchors c a (v.calCore c).trims = false then 2 else 4
          let w := v.modCal c (fun k => { k with retryCnt := k.retryCnt.bump 16, cause := cause })
          exec (.calPassDone c p) s = .next (if 4 ≤ x.attempt then (w.calFail c x cause).checkReady
            else w.nextPass c { x with attempt := x.attempt + 1, passes := [] })))
      ∧ (∀ y, let n := (s.newSeed c).1
        s.nextPass c y = (s.newSeed c).2.modCal c (fun k => { k with
          run := some { y with seed := n, startedAt := s.now, startUp := s.node.up }, lastSeed := n })
        ∧ n ≠ (s.calCore c).lastSeed))

/-- The handover of a tile to the reserve core and back (R262, R602): 64 conversions of every active slot that match let the reserve take
over, with the settings its step began with (R270) (the calibration of the tile's core starts, or CAL_SUBST completes); no match counts
and ends it with CAL_DISAGREE; 10 s without an end TIMEOUT. The hand-back (R250, R262): a match frees the reserve, tells it and serves
the next demand; a failure calibrates again, the second in a row is CAL_FAIL. The reserve of a group serves its waiting demands in the
order of R263; a rolling step comes at its time and moves the rotation on (R264), and is entered unless its tile is taken, forcing,
fenced or has one waiting. A burn of the row fuses stores what was programmed, and ends with its read-back (R259, R260). -/
def Obligations.ReserveCores : Prop :=
   (∀ (s : State) (g n : Nat),
      let k := (s.group g).sched.purpose
      let freed := fun (u : State) => u.setUse g .free
      g < s.nGroups → (s.group g).sched.use = .tracking n →
      (s.trackedAll g n → s.matches g n →
        let a := s.setUse g (.covering n)
        let b := a.calEvent 0x0503 n 0 (a.group g).sched.stepSet.handoverEv
        exec (.trackingDone g) s = .next (if k = .manual then b.endOp 0x0506 n .ok 0 else b.calStart n k.why false))
      ∧ (s.trackedAll g n → s.matches g n = false →
        let a := freed (s.modCal n (fun x => { x with mismatchCnt := x.mismatchCnt.bump 16 }))
        exec (.trackingDone g) s = .next ((a.endOp 0x0502 n .calDisagree 0).endOp 0x0506 n .calDisagree 0))
      ∧ (k ≠ .manual → (s.group g).sched.started + 10000000000 ≤ s.now →
        exec (.handoverTimeout g) s = .next ((freed s).endOp 0x0502 n .timeout 0)))
   ∧(∀ (s : State) (g n die : Nat),
      let x := (s.group g).sched
      let freed := s.setUse g .free
      let ends := fun (u : State) (st : Status) => .next (((u.calEvent 0x0504 n 0 (u.group g).sched.stepSet.handoverEv).endOp 0x0506 n st 0).serveNext g)
      let p := s.rollPeriod g
      let due := max x.nextRoll (g * p * 1000000000 / 288)
      let step := p * 1000000000 / 9
      let c := rotationCore g x.rotation
      let rolls := s.node.inReset = false ∧ p ≠ 0 ∧ due ≤ s.now ∧ s.coreDown (1024 + g) = false
      let timed := s.modSched g (fun x => { x with nextRoll := due + ((s.now - due) / step + 1) * step, rotation := (x.rotation + 1) % 9 })
      let passed := (∃ m, x.use = .substituting m) ∨ s.calUp c = false ∨ (.rolling, c) ∈ x.demands
        ∨ c < 1024 ∧ (((s.tile c).force.mode.forcing || s.tileFenced c) || s.coreFenced c)
      g < s.nGroups →
      (x.use = .handingBack n → s.trackedAll g n →
        (s.matches g n → exec (.handBackDone g) s = ends (freed.modCal n (fun x => { x with handFails := 0 })) .ok)
        ∧ (s.matches g n = false → (s.calCore n).handFails = 0 → exec (.handBackDone g) s =
          .next (((s.setUse g (.covering n)).modCal n (fun x => { x with handFails := 1 })).calStart n .onDemand false))
        ∧ (s.matches g n = false → 1 ≤ (s.calCore n).handFails →
          let u := freed.modCal n (fun x => { x with handFails := 0 })
          exec (.handBackDone g) s = ends (u.calFailed n (u.calCore n).cause ((u.calCore n).lastCal ≠ 0) (u.group g).sched.stepSet) .calDisagree))
      ∧ (s.node.inReset = false → exec (.faultSubstitution g) s = .next (s.serveNext g))
      ∧ (rolls → passed → exec (.rollingStep g) s = .next timed)
      ∧ (rolls → ¬ passed → exec (.rollingStep g) s =
        .next ((timed.modSched g (fun x => { x with demands := x.demands ++ [(.rolling, c)] })).serveNext g))
      ∧ (∀ row img, die < s.node.dies → (s.rowsOf die).burning = some (row, img) →
        let burnt := fun (ok : Bool) => { s.modRows die (fun x => x.burn die row img s.fresh ok) with fresh := s.fresh + 2048 }
        let taken := (burnt true).modRows die (fun x => { x with verified := x.verified ++ [row], rowOk := x.rowOk || x.valid die row })
        let asked := (dieCores die).foldl (fun (s : State) c => (s.modCal c (fun k => { k with rowPending := true })).modSched (coreGroup c)
          (fun x => { x with demands := x.demands.filter (· ≠ (.newRow, c)) ++ [(.newRow, c)] })) taken
        exec (.rowBurnDone die true) s =
          .next (((List.range 4).foldl (fun s i => s.serveNext (4 * die + i)) asked).endOpLogged calRowBurnSpec die .ok 0)
        ∧ exec (.rowBurnDone die false) s = .next ((burnt false).endOpLogged calRowBurnSpec die .timeout 0)))

/-- A conversion at its edge (R89 to R106, R122, R253, R267): on a tile from which nothing is delivered every stream of the slot loses a
sample; a tile whose words are held delivers the last code with STL; else the corrected code goes out, to the comparators, the raw stream
and the chains of its slot, and the sequencer advances. A force output that waits for its MEASURED start takes its value from it, 97 ns
or more after the entry. Results given to the command are the analogue's (log 16). -/
def Obligations.Conversions : Prop :=
  ∀ (s : State) (n e bad : Nat) (r q : Int) (forced : Forced),
    let t := s.tile n
    let slot := t.seq.slot
    let d := t.seq.active.getD slot 0
    let x := tget {} t.core.slots slot
    let due := t.converting ∧ t.seq.next = some e ∧ e ≤ s.edge ∧ (∀ c, s.commitEdge n = some c → e < c)
      ∧ ∀ p, s.sync.pending = some p → e < p.actEdge
    n < s.nTiles → s.node.inReset = false →
    (t.force.phase = .measuring → s.silent n = false →
      (t.force.enteredAt + 6250 ≤ s.node.clock → exec (.conversion n r q forced bad) s = .next (s.measured n r forced.tile))
      ∧ (s.node.clock < t.force.enteredAt + 6250 → exec (.conversion n r q forced bad) s = .next s))
    ∧ (t.force.phase ≠ .measuring ∨ s.silent n → due →
      (s.silent n → exec (.conversion n r q forced bad) s = .next (s.missConversion n slot d e (s.edgeTime e)))
      ∧ (s.silent n = false → s.holds n d → exec (.conversion n r q forced bad) s =
        .next ((((s.convertedFor n 0 forced).modTile n (fun y => { y with
          core := { y.core with slots := tmod {} t.core.slots slot (fun x => { x with lost := false, outOvr := false }) },
          cal := { y.cal with staleCnt := if y.cal.stale then y.cal.staleCnt.add 26 1 else y.cal.staleCnt } })).rawOut n slot d
            (rawWord x.lastCode (fSTL + fGAP * b2n x.lost)) e (s.edgeTime e) bad).seqAdvance n e))
      ∧ (s.silent n = false → s.holds n d = false → exec (.conversion n r q forced bad) s =
        .next ((s.convert n slot d e (s.edgeTime e) (s.edgeClock e) r q forced bad).seqAdvance n e)))

/-- The sequencer (R156 to R168, R179): a pending commit acts at its effective edge; the first trigger on its way reaches its tile, where
it is ignored, missed, or pending with its fire edge; a BURST run starts at its arm edge, a TRIGGERED one at its fire edge, and the
command that waits for it completes; after the last pass the sequencer is idle. -/
def Obligations.SequencerEvents : Prop :=
  ∀ (s : State) (n e : Nat),
    let t := s.tile n
    let waits := t.converting ∧ t.seq.next = none ∧ t.seq.ended = false
    (∀ c, n < s.nTiles → t.seq.commit = some c → s.commitEdge n = some e → e ≤ s.edge →
      exec (.seqCommitEffective n) s = .next (s.applyCommit n e c))
    ∧ (∀ m rest, s.triggers = m :: rest →
      let u := { s with triggers := rest }
      let y := s.tile m.tile
      let f := u.fireEdge m.tile m
      let x := u.fireTime m.tile m
      (y.seq.mode ≠ .triggered ∨ y.seq.trigSrc ≠ m.src → exec .triggerArrival s = .next u)
      ∧ (y.seq.mode = .triggered → y.seq.trigSrc = m.src → y.deaf →
        exec .triggerArrival s = .next (u.modSeq m.tile (fun q => { q with trigMiss := q.trigMiss.bump 16 })))
      ∧ (y.seq.mode = .triggered → y.seq.trigSrc = m.src → y.deaf = false → exec .triggerArrival s =
        .next (u.modSeq m.tile (fun q => { q with
          trigger := some f.1, trigAt := x.at_, trigTimed := x.timed, trigCnt := q.trigCnt.bump 32, lateTrig := if f.2 then q.lateTrig.bump 16 else q.lateTrig }))))
    ∧ (n < s.nTiles → waits → t.seq.mode = .burst → t.seq.armed → t.seq.armEdge ≤ s.edge → exec (.runStart n) s =
      .next (((s.seqAt n t.seq.armEdge).modSeq n (fun q => { q with armed := false })).endOp 0x0303 n .ok 0))
    ∧ (n < s.nTiles → waits → t.seq.mode = .triggered → t.seq.trigger = some e → e ≤ s.edge → exec (.runStart n) s =
      .next (((s.seqAt n e).modSeq n (fun q => { q with trigger := none, lastTrig := max (s.edgeTime e) 1 })).endOp 0x0304 n .ok 0))
    ∧ (n < s.nTiles → t.seq.ended → exec (.runEnd n) s =
      .next ((s.closeTile n (fun _ => true)).modSeq n (fun q => { q with ended := false, slot := 0, rep := 0 })))

/-- Filters (R199, R223, R226) and blocks (R44): the job of one of the 16 lanes of a die completes, the first of its stream, an output
stamped at or after a pending t_s with the new bank; at t_s the swap is under way; when no job stamped before t_s remains the banks are
exchanged, the outputs still to be marked UNS stay so, and FILT_SWAP completes; a flush interval that has passed posts the open blocks of
its queue. SYNC (R231 to R234, R638): the pending SYNC acts at its act edge: the affected chain contexts start afresh with their sequence
numbers going on, the windows of pairs fed by them close, the new reference edge is in force; SYNC_DONE is raised 1 ms after with the
nodes that applied it; an edge on the pin, or a ring message, that cannot be applied counts as missed. -/
def Obligations.FilterEvents : Prop :=
   (∀ (s : State) (n c die i q : Nat) (bad : Bool),
      let ch := (s.tile n).chain c
      (∀ j, die < s.node.dies → (s.laneJobs die)[i]? = some j → s.dieFenced die = false → s.node.inReset = false →
        let key := streamKey s.ring.nodeNo j.tile j.slot j.chain 0
        s.jobs.find? (s.jobOf key) = some j →
        let x := (s.tile j.tile).chain j.chain
        let bank := if x.swap.any (fun t => t ≤ j.time) then x.shadow else x.active
        let y := stageB bank x.ntaps j.xs
        let u := { s with jobs := s.jobs.erase j }.chainOut j.tile j.chain j.slot y.1 y.2 j.flags j.edge j.time j.seq j.gap bad
        exec (.engineJob ⟨die, i, bad⟩) s = .next (if j.ends then (u.postBlock key false).postBlock key true else u))
      ∧ (∀ t, n < s.nTiles → ch.swap = some t → t ≤ s.now → ch.swapGo = false → exec (.swapInstant n c) s =
        .next (s.modChain n c (fun x => { x with swapGo := true })))
      ∧ (∀ t, n < s.nTiles → ch.swap = some t → ch.swapGo → (∀ j ∈ s.jobs, j.tile = n → j.chain = c → t ≤ j.time) →
        exec (.swapComplete n c) s =
          .next ((s.modChain n c (fun x => { x with
            swap := none, swapGo := false, active := x.shadow, shadow := x.active,
            ctx := x.ctx.map (fun e => (e.1, { e.2 with swapUns := e.2.swapNext, swapNext := 0 })) })).endOpLogged
            filtSwapSpec (chainKey n c) .ok 0))
      ∧ ((s.queue q).flush ≠ 0 →
        let due := fun (x : Share) => x.qid = some q ∧ x.openBlock.isSome ∧ x.openAt + (s.queue q).flush * 100 ≤ s.now
        exec (.flushExpiry q) s = .next (s.host.streams.foldl (fun s e =>
          let u := if due e.2.sample then s.postBlock e.1 false else s
          if due e.2.capture then u.postBlock e.1 true else u) s)))
   ∧(∀ (s : State) (sub mask fseq ref act : Nat),
      (∀ p, s.sync.pending = some p → p.actEdge ≤ s.edge → s.node.inReset = false →
        let hits := s.syncHits p.refEdge
        let a := hits.foldl (fun s x => s.syncContext x) s
        let b := (List.range a.nPairs).foldl (fun s n =>
          let q := s.pair n
          if hits.contains (q.vTile, 1, q.vSlot) || hits.contains (q.iTile, 1, q.iSlot) then s.closeWindow n true else s) a
        let nodes := if p.ring then b.ring.order.foldl (fun a n => a ||| 2 ^ n) (2 ^ b.ring.nodeNo) else 2 ^ b.ring.nodeNo
        exec .syncAct s = .next { b with sync := { b.sync with
          eRef := p.refEdge, pending := none, lastRef := max (b.edgeTime p.refEdge) 1, lastAct := max (b.edgeTime p.actEdge) 1,
          dones := b.sync.dones ++ (if b.isWorker && p.fn.isNone then [] else [(p.actTime + 1000000, p.fn, nodes)]) } })
      ∧ (∀ t fn nodes rest, s.sync.dones = (t, fn, nodes) :: rest → t ≤ s.now → exec (.syncDone mask) s =
        .next ({ s with sync := { s.sync with dones := rest } }.raise 0x0403 (fn.elim 0 hearthOfFn) s.ring.nodeNo
          (((mask ||| 2 ^ s.ring.nodeNo) &&& nodes) % 2 ^ 64)))
      ∧ (s.node.inReset = false → s.node.everLocked = false →
        exec (.syncPinEdge sub) s = .next { s with sync := { s.sync with miss := s.sync.miss.bump 16 } })
      ∧ (s.node.inReset = false → s.node.everLocked →
        let at64 := s.node.clock + sub % 3125
        let e := s.edgeAtOrAfter (at64 + 1920)
        s.edgeAtOrAfter (at64 + 1888) = e → s.edgeAtOrAfter (at64 + 1952) = e →
        let u := s.sendTriggers 1 (s.edgeClock e - 1920) (fun _ _ => true)
        (s.sync.pending.isSome → exec (.syncPinEdge sub) s = .next u.syncMissed)
        ∧ (s.isWorker → s.sync.pending = none → exec (.syncPinEdge sub) s = .next u)
        ∧ (s.isWorker = false → s.sync.pending = none → s.sync.armed = false → exec (.syncPinEdge sub) s = .next u)
        ∧ (s.isWorker = false → s.sync.pending = none → s.sync.armed →
          let ring := s.sync.scope && s.isManager
          let lead := if ring then s.sync.lead * 1000 else 0
          exec (.syncPinEdge sub) s =
            .next ({ u with sync := { u.sync with armed := !s.sync.oneShot } }.schedule e (u.edgeAtOrAfter (u.edgeClock e + lead * 64))
              (u.edgeTime e + lead) ring none)))
      ∧ (s.node.inReset = false → s.isAlone = false → s.firstCopy 0 1 fseq →
        let u := s.noteCopy 0 1 fseq
        (act < u.now ∨ u.sync.pending.isSome → exec (.rxSync fseq ref act) s = .next u.syncMissed)
        ∧ (u.now ≤ act → u.sync.pending = none → exec (.rxSync fseq ref act) s =
          .next (u.schedule (u.edgeAtOrAfter (ref * 64)) (u.edgeAtOrAfter (act * 64)) act false none))))

/-- Limit, fold-back, Hi-Z, retry and latch of a force output (R133 to R137, R140): an episode counts and freezes the generator; after 20
us, or at a contention, the limit folds back; 200 us later the switches open; 10 ms later they close for the next retry; after retry 8
the output latches and reports. 20 us without fold-back is a good retry, 100 ms resets the count. A fold-back aborts a loopback test of
the tile. The slew generator (R124, R126, R128, R131): at a draught edge in FORCE and at every second one in FORCE_SENSE the last target
received 8 ns before is taken, and the output takes one step toward it (0 V in a ramp-down), not while it is frozen; HOLD brings the rate
to zero, SLEW off takes the target at once, a generator in limit stands with rate zero. In FORCE with SLEW off a target acts as it comes
(R117). A ramp-down that has come to rest at 0 V ends in the mode it was for (R123). The queue of a die (R562): every 25 us at most, with
VA5 there, its lowest tile enters at the next draught edge the mode its TILE_MODE asks for, or resumes. The loopback test (R146): a level
that has dwelt keeps the error of the 256 conversions of the other tile and the next level is set, the last one ends the test with its
record. -/
def Obligations.ForceEvents : Prop :=
   (∀ (s : State) (n : Nat) (i : Int),
      let f := (s.tile n).force
      n < s.nTiles →
      (f.mode.forcing → f.phase = .normal →
        let a := s.modForce n (fun f => { f with
          phase := .limit, limitStart := s.now, v := 0, limitCnt := f.limitCnt.bump 16, lastLimit := s.stamp })
        let g := (a.tile n).force
        exec (.limitEpisodeStart n) s = .next (if g.limitEv then a.raiseLim n 0x0601 (a.tileOwner n) n g.limitCnt.n else a))
      ∧ (f.phase = .limit → exec (.limitEpisodeEnd n) s = .next (s.modForce n (fun f => { f with phase := .normal, v := 0 })))
      ∧ (f.phase = .limit → f.limitStart + 20000 ≤ s.now → exec (.foldBack n) s = .next ((s.foldBack n false).loopbackAbort n))
      ∧ (f.mode.forcing → f.phase = .normal → f.atRest → exec (.contention n i) s =
        .next (((s.forceEvent n 0x0606 (toU 32 i) f.contEv).foldBack n true).loopbackAbort n))
      ∧ (f.phase = .foldback → f.foldAt + 200000 ≤ s.now →
        let a := s.modForce n (fun f => { f with phase := .hiz, hizAt := s.now, lastHiz := s.stamp })
        let g := (a.tile n).force
        let b := a.forceEvent n 0x0603 g.retry g.foldEv
        let c := b.modForce n (fun f => { f with phase := .latched, latchCnt := f.latchCnt.bump 16 })
        let k := (c.tile n).force.latchCnt.n
        let d := c.forceEvent n 0x0605 k g.foldEv
        (g.retry < 8 → exec (.hizStep n) s = .next (b.rampCut n))
        ∧ (8 ≤ g.retry → exec (.hizStep n) s = .next (((d.logEv 0x0605 (d.tileOwner n) n k).report 0x07 n 0).rampCut n)))
      ∧ (f.phase = .hiz → f.hizAt + 10000000 ≤ s.now → exec (.forceRetry n) s =
        .next (s.modForce n (fun f => { f with phase := f.reclose, v := 0, retry := f.retry + 1, closedAt := some s.now })))
      ∧ (∀ t, f.closedAt = some t → t + 20000 ≤ s.now → f.driving →
        let a := s.modForce n (fun f => { f with cleanSince := f.closedAt, closedAt := none })
        exec (.retryOk n) s = .next (a.forceEvent n 0x0604 (a.tile n).force.retry (a.tile n).force.foldEv))
      ∧ (∀ t, f.cleanSince = some t → t + 100000000 ≤ s.now → f.driving → exec (.retryCountReset n) s =
        .next (s.modForce n (fun f => { f with retry := 0, cleanSince := none }))))
   ∧(∀ (s : State) (n : Nat) (w : Word),
      let f := (s.tile n).force
      let k : Int := if f.mode = .forceSense then 2 else 1
      let got := f.inbox.filter (fun e => e.1 + 512 ≤ s.node.clock)
      let a := { f with
        inbox := f.inbox.filter (fun e => s.node.clock < e.1 + 512), target := (got.getLast?.map (·.2)).getD f.target, updEdge := s.edge + 1 }
      let goal := if f.ramp then 0 else if f.hold && f.held = 1 then f.pos else forcePos f.range a.target
      let steps := fun (g : Force) => exec (.forceUpdate n) s = .next (s.modForce n (fun _ => g))
      n < s.nTiles →
      (f.mode = .force ∨ f.mode = .forceSense ∧ s.edge % 2 = 0 → f.phase ≠ .measuring → f.updEdge ≠ s.edge + 1 →
        (f.closedAt.isSome ∨ f.phase ≠ .normal ∧ f.phase ≠ .limit → steps a)
        ∧ (f.closedAt = none → f.phase = .limit → steps { a with v := 0 })
        ∧ (f.closedAt = none → f.phase = .normal → (f.hold = false ∨ f.held ≠ 1 ∨ f.ramp) → f.slew →
          let r := slewUpdate f.vmax f.acc k goal f.pos f.v
          steps { a with pos := r.1, v := r.2 })
        ∧ (f.closedAt = none → f.phase = .normal → (f.hold = false ∨ f.held ≠ 1 ∨ f.ramp) → f.slew = false →
          steps { a with pos := goal, v := 0 })
        ∧ (f.closedAt = none → f.phase = .normal → f.hold → f.held = 1 → f.ramp = false → f.slew →
          let v := towardZero f.v ((f.acc : Int) * 3125 * k)
          steps { a with v := v, pos := f.pos + v * 25000 * k })
        ∧ (f.closedAt = none → f.phase = .normal → f.hold → f.held = 1 → f.ramp = false → f.slew = false → steps a))
      ∧ (f.mode = .force → f.slew = false → f.phase = .normal → f.closedAt = none →
        f.receive s.node.clock w = { f with target := w, inbox := [], pos := forcePos f.range w, v := 0 })
      ∧ (f.mode ≠ .force ∨ f.slew ∨ f.phase ≠ .normal ∨ f.closedAt.isSome →
        f.receive s.node.clock w = { f with inbox := f.inbox ++ [(s.node.clock, w)] })
      ∧ (f.ramp → f.pos = 0 → f.v = 0 → exec (.rampDownDone n) s = .next ((s.enterMode n f.rampTo (s.edge + 1)).endOp 0x0207 n .ok 0)))
   ∧(∀ (s : State) (die n forced : Nat) (rest : List Nat) (sum : Int),
      let k := tget {} s.node.kindle die
      let u := s.modKindle die (fun k => { k with queue := rest, lastSlot := some s.now })
      (die < s.node.dies → k.queue = n :: rest → (∀ t, k.lastSlot = some t → t + 25000 ≤ s.now) → s.node.va5Off = false →
        (∀ o, u.findOp 0x0207 n = some o → exec (.kindleQueueSlot die) s =
          .next { u with due := u.due ++ [EdgeAct.mode n (modeOf (o.req.u 18 0 2)) false] })
        ∧ (u.findOp 0x0207 n = none → exec (.kindleQueueSlot die) s = .next (u.resumeTile n)))
      ∧ (∀ b o, s.loopbacks.find? (fun e => e.1 = n) = some (n, b) → s.findOp 0x0605 n = some o →
        let r := o.req
        b.levelAt + r.u 20 0 16 * 1000 + 12500 ≤ s.now →
        let v := s.converted (n ^^^ 1) 256 forced
        let errs := b.errs ++ [clampI (-32767) 32767 (divHalfUp (sum - 256 * loopbackLevel b.errs.length (r.u 18 0 8)) 256)]
        let next := v.loopbackStep n errs.length (r.u 18 0 8)
        (errs.length = r.u 18 0 8 → exec (.loopbackLevelDone n ⟨sum, forced⟩) s = .next (v.loopbackEnd n errs false))
        ∧ (errs.length ≠ r.u 18 0 8 → exec (.loopbackLevelDone n ⟨sum, forced⟩) s =
          .next { next with loopbacks := tset next.loopbacks n { b with errs := errs, levelAt := next.now } }))
      ∧ (∀ b o errs aborted, s.loopbacks.find? (fun e => e.1 = n) = some (n, b) → s.findOp 0x0605 n = some o →
        let v := { s with loopbacks := terase s.loopbacks n }.modForce n (fun f => { f with
          mode := .off, phase := .none, v := 0, range := b.range, slew := b.slew, inbox := [], hold := false, ramp := false,
          retry := 0, closedAt := none, cleanSince := none })
        s.loopbackEnd n errs aborted =
          (v.writeResult o.req (o.req.u 24 0 64) 64 (loopbackRecord o.req b.start errs aborted)).endOp 0x0605 n .ok 0))

/-- Triggers of a stove (R32, R104, R287, R289): the word that waited longest in the die's fabric is next, those of one instant in turn
by source tile (log 20); a word that arrives is held by its port with its number and time, with GAP when an earlier one was lost, and is
offered to the eight laws; a word that fails PAR is not delivered and reports SLICE_PAR, and one for a fenced stove or for a port bound
to another stream is lost (R14); ALIGN_WAIT after the first arrival an ALIGNED law is triggered with ALIGN_TIMEOUT. Runs of a stove
(R288, R292, R295, R323): an idle stove lets what waited act and starts its pending enabled law of lowest index at ENTRY, with TRIG
taken; CYCLE at MAX_CYCLES traps with cause 4; a line fill ends a stall after its cycles; what waits for the end of a run acts when no
run is in progress. -/
def Obligations.StoveRuns : Prop :=
   (∀ (s : State) (sv p i : Nat) (w : FabricWord),
      let x := tget {} (s.stove sv).ports p
      let u := { s with fabric := s.fabric.erase w, fabricTurn := tset s.fabricTurn (sv / 4) (keyTile w.src + 1) }
      let l := (s.stove sv).law i
      sv < s.nStoves →
      (s.fabricNext (sv / 4) = some w → w.stove = sv → w.port = p → s.stoveFenced sv ∨ x.bound ≠ some w.src → ∀ bad,
        exec (.portWordArrival sv p bad) s = .next (u.portMiss w))
      ∧ (s.fabricNext (sv / 4) = some w → w.stove = sv → w.port = p → s.stoveFenced sv = false → x.bound = some w.src →
        exec (.portWordArrival sv p true) s = .next ((u.portMiss w).report 0x05 (keyTile (x.bound.getD 0)) 0)
        ∧ exec (.portWordArrival sv p false) s = .next ((List.range 8).foldl (fun s i => s.portLaw sv p i w.time w.seq)
          (u.modStove sv (fun v => { v with ports := tset v.ports p { x with
            word := if x.gapDue then setFlag w.word fGAP else w.word, seq := w.seq, time := w.time, gapDue := false, got := true } }))))
      ∧ (∀ t, l.alignFirst = some t → t + l.alignWait ≤ s.now → exec (.alignWaitTimeout sv i) s =
        .next ((s.modStove sv (fun v => v.modLaw i (fun l => { l with alignFirst := none }))).lawTrigger sv i l.alignTime l.alignSeq
          (fun l => { l with alignTimeout := true }))))
   ∧(∀ (s : State) (sv i n : Nat) (x : Run),
      let v := s.stove sv
      let u := s.settle sv
      let w := u.stove sv
      sv < s.nStoves →
      (v.state = .idle → s.stoveFenced sv = false → v.run = none →
        (List.range 8).find? (fun i => (w.law i).pending && (w.law i).enable) = some i →
        let l := w.law i
        exec (.lawRunStart sv) s = .next (((u.endGap sv).modStove sv (fun v =>
          { (v.modLaw i (fun l => { l with
              pending := false, arrived := 0, alignTimeout := false, compInfo := 0, runCnt := l.runCnt.bump 32 })) with
            state := .running,
            run := some { law := i, pc := l.entry, trigTime := l.trigTime, trigSeq := l.trigSeq,
                          trigInfo := l.arrived % 65536 + 65536 * b2n l.alignTimeout + l.compInfo } })).beginFetch sv))
      ∧ (v.run = some x → (v.law x.law).maxCycles ≤ x.cycle + (if x.stalled then n else 0) →
        exec (.trapCycles sv n) s = .next (s.trapRun sv 4))
      ∧ (∀ k off, v.run = some x → x.stalled → psWindow sv x.pc = some (k, off) → (s.bank k).running = false →
        exec (.cacheFillDone sv n) s =
          .next ((s.modBank k (fun b => { b with lastFill := some s.now })).modStove sv (fun v => { v with
            run := some { x with stalled := false, cycle := x.cycle + n },
            cache := tset v.cache (setOf x.pc) ((lineOf x.pc :: tget [] (s.stove sv).cache (setOf x.pc)).take 4) })))
      ∧ (v.run = none → exec (.loopCommandAct sv) s = .next (s.settle sv)))

/-- The operations of a bank of the program store (R298 to R301): a read ends at once with its bytes; a program finds its page blank or
ends with NOT_BLANK; a held one ends with BANK_XIP after 100 ms; a program or erase that ends well changes the cells, one that times out
leaves its pages undefined; the caches that hold lines of the bank are emptied. Metering (R333 to R337, R346 to R351, R355): a started
pair runs from its next boundary; each instant of a pair is expected, and accumulated, excluded, missing or a mismatch, and both of these
while a tile of the pair is OFF; a window closes at its last instant; a record is captured every 600 s and is in the pages of the ring
when it is read back in its turn at bank 1; the best record is restored after a reset; a region that is erased is armed. -/
def Obligations.StoreAndMeterEvents : Prop :=
   (∀ (s : State) (k : Nat) (o : PsOp) (rest : List PsOp),
      let b := s.bank k
      let blank := ∀ i < 256, b.byte (o.off + i) = 0xFF
      let clear := fun (u : State) => (List.range 4).foldl (fun (s : State) j =>
        if ((s.stove (4 * (k / 2) + j)).cache.flatMap (fun e => e.2)).any (fun a => match psWindow (4 * (k / 2) + j) a with
          | some (b, _) => b = k
          | none => false)
        then s.modStove (4 * (k / 2) + j) (fun v => { v with cache := [] }) else s) u
      k < 2 * s.node.dies → b.queue = o :: rest →
      (∀ r, b.running = false → o.kind = 0 → o.req = some r →
        let l := (List.range (r.u 20 0 16)).map (fun i => b.byte (o.off + i))
        exec (.psOpStart k) s =
          .next (((s.modBank k (fun b => { b with lastOp := s.stamp })).writeResult r (r.u 24 0 64) l.length (leNat l)).psDone k o .ok))
      ∧ (b.running = false → o.kind ≠ 0 → s.xipHeld k → exec (.psOpStart k) s = .next (s.bankHead k))
      ∧ (b.running = false → o.kind = 1 → s.xipHeld k = false → ¬ blank → exec (.psOpStart k) s = .next (s.psDone k o .notBlank))
      ∧ (b.running = false → o.kind ≠ 0 → s.xipHeld k = false → o.kind ≠ 1 ∨ blank →
        exec (.psOpStart k) s = .next (s.modBank k (fun b => { b with running := true, heldSince := none })))
      ∧ (∀ t, b.heldSince = some t → b.running = false → t + 100000000 ≤ s.now →
        exec (.xipHoldTimeout k) s = .next (s.psDone k o .bankXip))
      ∧ (b.running →
        exec (.psOpDone k true) s = .next ((clear (s.modBank k (fun b => { b.apply o with lastOp := s.stamp }))).psDone k o .ok)
        ∧ exec (.psOpDone k false) s =
          let u := s.modBank k (fun b => { b.spoil o s.fresh with lastOp := s.stamp })
          .next ((clear { u with fresh := u.fresh + 65536 }).psDone k o .timeout)))
   ∧(∀ (s : State) (n : Nat),
      let p := s.pair n
      let e := s.pairNext p
      let up := n < s.nPairs ∧ s.node.inReset = false ∧ s.dieFenced (n / 8) = false ∧ e ≤ s.edge
      let u := (s.pairBegin n e).modPair n (fun x => { x with lastInstant := some e })
      let q := u.pair n
      let a := if q.win.open_ then u else u.openWindow n e (!u.pairBoundary q e)
      let b := a.modPair n (fun x =>
        let y : Pair := { x with win := { x.win with expected := x.win.expected + 1 } }
        if a.pairMatched y then { y.instantAt e with state := .running }
        else if a.tileOff y.vTile || a.tileOff y.iTile then
          { y with state := .mismatch, mismatches := y.mismatches.bump 32, missing := y.missing.bump 32, win := (y.win.skip wMISMATCH).flag wGAP }
        else { y with state := .mismatch, mismatches := y.mismatches.bump 32, win := y.win.skip wMISMATCH })
      (up → s.meterUp n → exec (.pairStart n) s = .next (s.pairBegin n e))
      ∧ (up → p.state ≠ .unconfigured → q.state ≠ .stopped → q.frozen → exec (.pairInstant n) s =
        .next (u.modPair n (fun x => { x with missing := x.missing.bump 32 })))
      ∧ (up → p.state ≠ .unconfigured → q.state ≠ .stopped → q.frozen = false → exec (.pairInstant n) s =
        .next (if b.pairBoundary q (e + 500) then b.closeWindow n false else b))
      ∧ (let k := s.now / 600000000000
        s.node.inReset = false → s.node.pfStage = .none → s.node.meterRestored → k ≠ s.meter.lastPeriod →
          exec .periodicRecord s = .next ({ s with meter := { s.meter with lastPeriod := k } }.captureRecord .periodic))
      ∧ (∀ m rest, s.meter.writing = m :: rest → s.node.inReset = false → s.node.pfStage = .none →
        s.logs.turn 2 →
        let t := { s with
          meter := { (s.meter.write m) with writing := rest, lastSeq := m.seq, lastSnap := s.stamp }
          logs := s.logs.took 2 }
        exec (.meterRecordDone true) s = .next (if m.kind = .command then t.eraseUsed.endOp 0x0802 0 .ok 0 else t)
        ∧ exec (.meterRecordDone false) s = .next ({ s with meter := s.meter.abandon }.report 0x21 0 0))
      ∧ (s.node.inReset = false → s.node.meterRestored = false → s.node.pfStage = .none → (tget {} s.node.kindle 0).kindled →
        let m := s.meter
        let best := m.best (meterPages s.node.dies)
        let t := fun (top last : Nat) => { s with
          node := { s.node with meterRestored := true }
          meter := { m with snapSeq := top, lastSeq := last } }
        (best = none → exec .meterRestoreDone s = .next (((t m.snapSeq m.lastSeq).report 0x20 0 0).captureRecord .command).checkReady)
        ∧ (∀ x, best = some x → exec .meterRestoreDone s =
          .next ((((List.range s.nPairs).foldl (fun (s : State) n => s.modPair n (fun p => { p with
            regs := x.regs.getD n [0, 0, 0, 0, 0, 0],
            unsavedLoss := p.unsavedLoss || decide (x.kind ≠ RecordKind.powerFail) || x.lost.contains n })) (t (max m.snapSeq x.seq) x.seq)).raise
              0x0801 0 s.ring.nodeNo (x.kind.code + x.seq * 2 ^ 32)).captureRecord .command).checkReady))
      ∧ (let arm := fun (r : PfRegion) => if r = .erasing then .armed else r
        s.node.inReset = false → s.logs.turn 3 → exec .powerFailRegionErased s = .next { s with
          meter := { s.meter with regionA := arm s.meter.regionA, regionB := arm s.meter.regionB }
          logs := s.logs.took 3 }))

/-- The link (R49, R360, R371, R372, R409, R560, R613): it trains to a width and a rate, holds no TLP while it retrains, and tells a
figure that falls to the functions with admitted streams; when it falls, or at PCIE_PERST_N, every function is reset. An FLR of a VF
resets it alone, of the PF all; every step done, FLR_BUSY falls. The functions (R361, R366 to R369, R403, R459): VF Enable brings VFs and
hearths into being and tells the workers, or resets all functions; EN of a root block, its invalidation; EN of an admin block, written
where the BARs answer (Memory Space set, in D0), with the checks of R367 and its ADMQ_ERR code, and the pair that then runs empty; the
end of an invalidation. -/
def Obligations.HostLinkEvents : Prop :=
   (∀ (s : State) (width rate fn : Nat),
      let here := s.node.inReset = false ∧ s.isWorker = false
      (here → s.host.linkUp = false → s.host.perst = false → s.node.pcieLanes = 8 → s.trains width rate →
        s.faults.fatal = false ∨ s.faults.fatalDet ≠ 0x1B →
        exec (.pcieLinkUp width rate) s = .next { s with host := { s.host with linkUp := true, width := width, rate := rate } })
      ∧ (here → s.host.linkUp → exec .dlDown s = .next s.linkLost ∧ exec .hotReset s = .next s.linkLost)
      ∧ (here → exec .pciePerstNAssert s = .next { s.linkLost with host := { s.linkLost.host with perst := true } })
      ∧ (here →
        let u := { s with host := { s.host with perst := false } }
        let due := (List.range 8).filter (fun k => 2000000 * s.node.dies + 250000 * k ≤ s.sinceRef)
        exec .pciePerstNRelease s = .next { u with node := { u.node with pcieLanes := max s.node.pcieLanes due.length } }.checkReady)
      ∧ (s.hostUp → exec .linkRetrainStart s = .next { s with host := { s.host with retraining := true } })
      ∧ (s.node.inReset = false → s.host.retraining → s.trains width rate →
        let u := { s with host := { s.host with
          retraining := false, width := width, rate := rate, retrain := s.host.retrain.bump 16 } }
        exec (.linkRetrainDone width rate) s = .next (if u.pcieAdmit < s.pcieAdmit
          then u.admittedFns.foldl (fun (s : State) f => s.raise 0x0906 (hearthOfFn f) (hearthOfFn f) s.beyond) u else u))
      ∧ (s.hostUp → s.fnThere fn → fn ≠ 0 → exec (.flr fn) s = .next (s.resetFn fn))
      ∧ (s.hostUp → exec (.flr 0) s = .next s.resetAllFns)
      ∧ (s.node.inReset = false → (s.fn fn).root.flrBusy →
        exec (.flrDone fn) s = .next (s.modFn fn (fun x => { x with root := { x.root with flrBusy := false } }))))
   ∧(∀ (s : State) (num fn v : Nat) (bad : List Nat) (x : Inval) (rest : List Inval),
      let on := { s with host := { s.host with vfEnable := true, numVfs := num } }
      let lived := (List.range num).foldl (fun s h => s.makeLive bad h) on
      (s.hostUp → num ≤ 8 →
        (s.host.vfEnable → exec (.vfEnable num false bad) s = .next s.resetAllFns)
        ∧ (s.host.vfEnable = false → exec (.vfEnable num false bad) s = .next { s with host := { s.host with numVfs := num } })
        ∧ (lived.trust.live = s.trust.live ∨ lived.isManager = false → exec (.vfEnable num true bad) s = .next lived)
        ∧ (lived.trust.live ≠ s.trust.live → lived.isManager → exec (.vfEnable num true bad) s =
          .next ((lived.ring.table.filter (fun e => e.2.present)).foldl (fun (s : State) e =>
            s.sendAcked .cmd e.1 (mkRec [⟨2, 0, 8, maskOf 8 lived.trust.live.contains⟩, ⟨3, 0, 8, 1⟩])) lived)))
      ∧ (∀ en, s.barUp 0 → s.fnThere fn → en = false ∨ (s.fn fn).root.flrBusy = false →
        exec (.fnCtrlEn fn en) s = .next (s.modFn fn (fun x => { x with root := { x.root with en := en, active := en } })))
      ∧ (s.barUp 0 → fn < 9 →
        exec (.tlbInv fn) s = .next (s.startInval { fn := fn, lo := 0, hi := 2 ^ 52, viaRoot := true }))
      ∧ (s.host.invals = x :: rest →
        let u := { s with host := { s.host with invals := rest } }
        (x.viaRoot → exec .invalidationEnd s = .next ((u.flushContexts x.fn).modFn x.fn
          (fun y => { y with root := { y.root with invCnt := (y.root.invCnt + 1) % 256 } })))
        ∧ (x.viaRoot = false → exec .invalidationEnd s = .next (u.endOp 0x0905 x.fn .ok 0)))
      ∧ (s.barUp fn →
        let a := (s.fn fn).admin
        let err := if a.cmdBase % 4096 ≠ 0 ∨ a.cplBase % 4096 ≠ 0 then 1
          else if a.cmdLog2 < 6 ∨ 12 < a.cmdLog2 ∨ a.cplLog2 < 6 ∨ 12 < a.cplLog2 ∨ a.cplLog2 < a.cmdLog2 then 2
          else if fn ≠ 0 ∧ (s.fn fn).root.en = false then 3 else 0
        let b := fun (on : Bool) => { a with en := on, run := on, err := err, vec := v % 2048 }
        let u := s.modFn fn (fun x => { x with admin := b true })
        (a.stopping = false → a.run = false → err ≠ 0 →
          exec (.admqEnSet fn v) s = .next (s.modFn fn (fun x => { x with admin := b false })))
        ∧ (a.stopping = false → a.run = false → err = 0 → exec (.admqEnSet fn v) s = .next { u with host := { u.host with
          queues := tset (tset u.host.queues (2 * fn) (adminQueue (b true) false (2 * fn))) (2 * fn + 1) (adminQueue (b true) true (2 * fn + 1)) } }))
      ∧ (s.barUp fn → (s.fn fn).admin.run → (s.fn fn).admin.stopping = false →
        exec (.admqEnClear fn) s = .next (s.stopAdmin fn (s.fn fn).admin.err)))

/-- Vectors (R373) and the reads with an effect (R359, R365, R541). With the link in L0, a vector that has gathered causes for its
MOD_TIME, and one that is unmasked with its pending bit set, sends one message, or keeps its pending bit while it is held: masked, with
MSI-X not enabled or the function masked, with Bus Master clear or in D3hot. Where the BAR answers, a read of a time's low half latches
the high half, and a malformed read counts. RWL registers (R12, R565, R566, R612 to R614, R626), written where the PF's BAR0 answers: a
write that clears counts, or RETRAIN, acts and is staged for the change log in an installer session opened with the password on the PF
while the log has room, else it is denied and logged; RESET_ARM arms for 1 ms with its key, RESET_GO while armed stages REG_RESET. A
write to BAR0 or BAR4 of a function whose BARs answer (R12, R359, R363, R371, R609): a poisoned one is discarded and logged in AER, one
beyond the BAR is an Unsupported Request, a length other than 4 or 8, or a misaligned one, is discarded and counts; else each field is
written by its access code, an 8 B write as its two halves. A byte of another BAR, or of a function whose BARs do not answer, changes
nothing. Number 6 stands for configuration space (R374; the number is the model's choice, log 80): a 4 B write changes it, and what a
vector has pending may go. -/
def Obligations.HostRegisters : Prop :=
   (∀ (s : State) (fn v : Nat),
      let x := s.vec fn v
      let sent := fun (u : State) =>
        (u.modVec fn v (fun x => { x with causes := 0, pendingBit := false, sent := (x.sent + 1) % 65536 })).emit (.message fn v)
      let kept := fun (u : State) => u.modVec fn v (fun x => { x with pendingBit := true })
      let held := fun (masked : Bool) =>
        let c := (s.fn fn).cfg
        masked ∨ c.msixEn = false ∨ c.msixMask ∨ c.master = false ∨ c.d3hot
      (s.hostUp → x.causes ≠ 0 → x.modTime ≠ 0 → x.first + 100 * x.modTime ≤ s.now → x.pendingBit = false →
        (¬ held x.masked → exec (.msixModTimer fn v) s = .next (sent s))
        ∧ (held x.masked → exec (.msixModTimer fn v) s = .next (kept s)))
      ∧ (s.barUp fn → v < vecCount fn →
        let u := s.modVec fn v (fun x => { x with masked := false })
        (x.pendingBit = false → exec (.msixUnmask fn v) s = .next u)
        ∧ (x.pendingBit → ¬ held false → exec (.msixUnmask fn v) s = .next (sent u))
        ∧ (x.pendingBit → held false → exec (.msixUnmask fn v) s = .next (kept u)))
      ∧ (s.barUp fn →
        exec (.devTimeLoRead fn) s = .next (s.modFn fn (fun x => { x with timeLatch := s.now / 2 ^ 32 % 2 ^ 32 }))
        ∧ exec (.malformedBarRead fn) s = .next (s.modFn fn (fun x => { x with barErr := x.barErr.bump 16 })))
      ∧ (s.barUp 0 →
        exec .faultTimeLoRead s = .next (s.modFn 0 (fun x => { x with faultLatch := s.faults.lastTime / 2 ^ 32 % 2 ^ 32 }))))
   ∧(∀ (s : State) (v k : Nat),
      let may := s.barUp 0 ∧ s.rwlOpen ∧ s.clogUsed < 4080
      let may_not := s.barUp 0 ∧ (s.rwlOpen = false ∨ 4080 ≤ s.clogUsed)
      let staged := fun (u : State) (action detail : Nat) (why : ClogFor) => u.stage {
        action := action, status := .ok, role := 1, time := s.now, node := s.ring.nodeNo, func := 15, serial := s.rwlSerial, detail := detail,
        why := why }
      let clears := fun (c : Nat) (o : Host.Outcome State Fault Refusal) =>
        (may → o = .next (staged (s.clearCounts c) (0x1100 + 0x110 % 256 / 4) (c % 2 ^ 32 + s.bar0Read 0 0x110 % 2 ^ 32 * 2 ^ 32) .device))
        ∧ (may_not → o = .next (s.logEv 0x0D20 15 0x110 0))
      clears 1 (exec .clrBarErr s) ∧ clears 2 (exec .clrRetrain s) ∧ clears 256 (exec .clrDbPf s)
      ∧ (k < 8 → clears (512 * 2 ^ k) (exec (.clrDbVf k) s))
      ∧ (may → s.host.retraining = false → exec .retrain s =
        .next (staged { s with host := { s.host with retraining := true } } (0x1200 + 0x208 % 256 / 4)
          (8 + s.bar0Read 0 0x208 % 2 ^ 32 * 2 ^ 32) .device))
      ∧ (may_not → s.host.retraining = false → exec .retrain s = .next (s.logEv 0x0D20 15 0x208 0))
      ∧ (s.barUp 0 → s.rwlOpen → exec (.resetArm v) s =
        .next { s with node := { s.node with resetArm := if v = 0xA5C3 then some (s.now + 1000000) else none } })
      ∧ (∀ t, s.node.resetArm = some t → t ≤ s.now → exec .resetArmExpiry s = .next { s with node := { s.node with resetArm := none } })
      ∧ (let u := { s with node := { s.node with resetArm := none } }
        (may → s.node.resetArm.isSome → exec .resetGo s = .next (staged u 0xFF03 1 .resetGo))
        ∧ (s.barUp 0 → s.rwlOpen → 4080 ≤ s.clogUsed → s.node.resetArm.isSome → exec .resetGo s = .next (u.logEv 0x0D20 15 0x1814 0))
        ∧ (s.barUp 0 → s.rwlOpen → s.node.resetArm = none → exec .resetGo s = .next s))
      ∧ (s.barUp 0 → s.rwlOpen = false →
        exec (.resetArm v) s = .next (s.logEv 0x0D20 15 0x1810 0) ∧ exec .resetGo s = .next (s.logEv 0x0D20 15 0x1814 0)))
   ∧(∀ (s : State) (fn off n value : Nat),
      let plain : WriteLen := { bytes := n }
      let bad : WriteLen := { bytes := n, poisoned := true }
      (∀ bar, s.barUp fn → bar = 0 ∨ bar = 4 →
        exec (.registerWrite fn bar off bad value) s = .next (s.aerLog fn 12)
        ∧ (barSize fn bar ≤ off → exec (.registerWrite fn bar off plain value) s = .next (s.aerLog fn 20))
        ∧ (off < barSize fn bar → (n ≠ 4 ∧ n ≠ 8) ∨ off % n ≠ 0 →
          exec (.registerWrite fn bar off plain value) s = .next (s.modFn fn (fun x => { x with barErr := x.barErr.bump 16 })))
        ∧ (off < barSize fn bar → off % n = 0 →
          let put := fun (s : State) (off v : Nat) => if bar = 0 then s.writeBar0 fn off v else s.writeBar4 fn off v
          (n = 4 → exec (.registerWrite fn bar off plain value) s = .next (put s off (value % 2 ^ 32)))
          ∧ (n = 8 → exec (.registerWrite fn bar off plain value) s =
            .next (put (put s off (value % 2 ^ 32)) (off + 4) (value / 2 ^ 32 % 2 ^ 32)))))
      ∧ (s.hostUp → s.fnThere fn → (s.fn fn).root.flrBusy = false →
        exec (.registerWrite fn 6 off bad value) s = .next (s.aerLog fn 12)
        ∧ (n = 4 → off % 4 = 0 → exec (.registerWrite fn 6 off plain value) s =
          .next ((s.modFn fn (fun x => { x with cfg := x.cfg.write fn off value })).sendPending fn)))
      ∧ (∀ bar len, bar ≠ 6 → s.barUp fn = false ∨ (bar ≠ 0 ∧ bar ≠ 4) → exec (.registerWrite fn bar off len value) s = .next s))

/-- Doorbells, fetches and entries (R370, R383 to R385, R388 to R392, R401): a doorbell that the checks pass moves the host's index, any
other is discarded and counts; a fetch advances the ring, reserves a completion and takes one of the tags, and reads the entry, which
waits to start or, with an unknown opcode, completes with BAD_PARAM; a fetch that times out stops the queue with ERR BUS, DEV_IDX going
back to the entry that failed, and the later fetches of the queue with it (the model's reading, log 73); a device-written queue writes
its next entry with PHASE the inverse of DEV_PHASE and is a cause for the vector that the entry has. -/
def Obligations.QueueEvents : Prop :=
  ∀ (s : State) (qid index : Nat) (phase : Bool) (host : List Host.Cell),
    let x := s.queue qid
    let reject := fun (s : State) (fn : Nat) => s.modFn fn (fun x => { x with dbRej := x.dbRej.bump 16 })
    let u := (s.loadCtx host qid).1
    let loaded := (s.loadCtx host qid).2
    let mapped := fun (t : Option TlbEntry) => t.elim u u.tlbInsert
    (∀ (fn : Nat) (full : Bool), s.barUp fn → qid < 2 ^ 18 →
      let passes := s.qidOwner qid = some fn ∧ (s.fn fn).root.en ∧ full ∧ x.live ∧ x.err = 0 ∧ (qid < 18 → (s.fn fn).admin.run)
      (passes → loaded → (u.queue qid).bellOk index phase → exec (.doorbell fn qid index phase full host) s =
        .next (u.modQueue qid (fun x => { x with hostIdx := index, hostPhase := phase, dirty := true })))
      ∧ (passes → loaded = false ∨ (u.queue qid).bellOk index phase = false →
        exec (.doorbell fn qid index phase full host) s = .next (reject u fn))
      ∧ (¬ passes → exec (.doorbell fn qid index phase full host) s = .next (reject s fn)))
    ∧ (∀ t a, s.ringLive qid → x.kind = 0 → x.stopping = false → (qid < 18 → (s.fn (qid / 2)).admin.en) → x.held ≠ 0 → x.inHand < 64 →
      s.inHandAll < 1024 → s.host.reads.length < s.tagLimit → (s.queue x.cplQid).live → s.turnOf ((s.qidOwner qid).getD 0) →
      (s.queue x.cplQid).held + (s.queue x.cplQid).reserved < 2 ^ (s.queue x.cplQid).log2 → loaded →
      u.entryAddr host qid 64 false = .ok (t, a) →
      let v := (mapped t).modQueue qid (fun x => { x.advance with inHand := x.inHand + 1 })
      let w := (v.modQueue x.cplQid (fun c => { c with reserved := c.reserved + 1 })).spend ((s.qidOwner qid).getD 0) 64
      exec (.commandFetch qid host) s =
        .next { w with host := { w.host with reads := w.host.reads ++ [{ qid := qid, idx := ((mapped t).queue qid).devIdx }] } })
    ∧ (∀ y entry, s.host.reads.find? (fun x => x.qid = qid) = some y →
      let v := { s with host := { s.host with reads := s.host.reads.erase y } }
      let r : Req := { fn := (s.qidOwner qid).getD 0, qid := qid, entry := entry }
      (s.hostUp → opcodeKnown r.opcode → exec (.hostReadCompletion qid entry) s =
        .next { v with host := { v.host with
          fetched := v.host.fetched ++ [(qid, entry)], rights := v.host.rights ++ [((qid, entry), v.roleNow r)] } })
      ∧ (s.hostUp → opcodeKnown r.opcode = false → exec (.hostReadCompletion qid entry) s = .next (v.finish r .badParam 0))
      ∧ (let n := (s.host.reads.filter (fun x => x.qid = qid)).length
        let c := { s with host := { s.host with reads := s.host.reads.filter (fun x => x.qid ≠ qid) } }
        let a := c.modQueue (c.queue qid).cplQid (fun c => { c with reserved := c.reserved - n })
        let b := a.modQueue qid (fun x => { x.retreat n with inHand := x.inHand - n })
        exec (.completionTimeout qid) s = .next ((b.aerLog ((s.qidOwner qid).getD 0) 14).stopFor qid 0 0)))
    ∧ (∀ t a e w, s.ringLive qid → x.kind ≠ 0 → x.held < 2 ^ x.log2 → (s.takeEntry qid).isSome →
      (x.kind = 2 ∨ s.turnOf ((s.qidOwner qid).getD 0)) → loaded →
      let size := if x.kind = 1 then 32 else 64
      u.entryAddr host qid size true = .ok (t, a) → (mapped t).takeEntry qid = some (e, w) →
      let y := w.queue qid
      let by_ := (mapped t).entryVec qid
      let z := (w.emit (.entry qid y.devIdx a size (e + b2n (!y.devPhase) * 2 ^ 127) (w.entryRelaxed qid))).modQueue qid (·.advance)
      let z := if y.kind = 2 then z else z.spend ((s.qidOwner qid).getD 0) size
      let z := if y.int then z.cause by_.1 by_.2 else z
      exec (.entryWrite qid host) s = .next (if qid < 18 then z.adminRest (qid / 2) else z))
    ∧ (s.node.inReset = false → s.host.lastDamp + 1000000 ≤ s.now → exec .damperTick s =
      .next (((List.range s.node.dies).filter (· ≠ 0) ++ (if s.isWorker then [9, 10] else [8])).foldl (fun s p => s.dampPath p)
        { s with host := { s.host with lastDamp := s.now } }))

/-- Its links, plans and moves (R421, R448 to R451): a port's link trains, with its 16 delays and 1 ms without a CRC error; its loss is
counted, announced, raised to the PF and reported, and the manager re-plans; a worker takes a plan, at once where its time has come; at
T_s every source sends on the new route, and 20 us later what was held goes and the next move starts. -/
def Obligations.RingLinks : Prop :=
  ∀ (s : State) (a b cause fseq seq at_ src : Nat) (east : Bool) (d : List Int) (order : List Nat) (avoid : List (Nat × Nat)) (p : RingPlan),
    (s.ringOn → s.isWorker → s.ring.bypassClosed = false → (s.ring.port east).link ≠ 2 → s.faults.fatal = false → s.node.ringLanes = 8 →
      d.length = 16 → (∀ t ∈ (s.ring.port east).crcTimes, t + 1000000 ≤ s.now) →
      let t := s.modPort east (fun q => { q with
        link := 2, lanes := List.replicate 4 { locked := true }, crcTimes := [], samples := d, delay := delayMean d, clockLost := false })
      exec (.linkUp (if east then 0 else 1) a b d) s = .next (t.modRing (fun r => { r with
        insertedAt := if t.ring.east.link = 2 && t.ring.west.link = 2 then none else r.insertedAt })))
    ∧ (s.ringOn → s.isManager → exec (.linkUp 2 a b d) s = .next (s.linkBack a b))
    ∧ (s.ringOn → (s.ring.port east).link = 2 → s.ring.join = none →
      let t := s.modPort east (fun q => { q with link := 0, samples := [], lastTime := none, lanes := [], crcTimes := [] })
      let t := t.modRing (fun r => { r with
        downCnt := r.downCnt.bump 16, lastDown := t.stamp,
        activeEast := if t.isWorker && r.activeEast = east && (r.port (!east)).link = 2 then !east else r.activeEast })
      let t := (t.sendFrame { type := .linkFault, dst := none, aux := 0, body := a + 256 * b }).linkFault a b
      let t := t.raise 0x0A01 15 (t.ring.nodeNo + if east then 0 else 256) cause
      exec (.linkDown east a b cause) s = .next (t.report 0x29 (if east then 0 else 1) 0))
    ∧ (s.ringOn →
      (s.firstCopy src 0 fseq → exec (.rxLinkFault src fseq a b) s = .next ((s.noteCopy src 0 fseq).linkFault a b))
      ∧ (s.firstCopy src 0 fseq = false → exec (.rxLinkFault src fseq a b) s = .next s))
    ∧ (s.ringOn → s.isWorker → s.firstCopy 0 1 fseq →
      let t := s.noteCopy 0 1 fseq
      (at_ ≤ s.now → exec (.rxPlan fseq seq at_ order avoid) s = .next (t.releaseAll.modRing (fun r => { r with
        planSeq := seq, order := order, avoid := avoid, downLinks := r.downLinks.filter (fun l => avoid.contains l),
        plan := none })))
      ∧ (s.now < at_ → exec (.rxPlan fseq seq at_ order avoid) s = .next (t.modRing (fun r => { r with
        plan := some { seq := seq, switchAt := at_, order := order, avoid := avoid, link := (0, 0), why := .reroute } }))))
    ∧ (s.ringOn → s.ring.plan = some p → p.holdEnd = none → p.switchAt ≤ s.now →
      let t := s.modRing (fun r => { r with
        planSeq := p.seq, order := p.order, avoid := p.avoid, plan := some { p with holdEnd := some (p.switchAt + 20000) },
        downLinks := r.downLinks.filter (fun l => p.avoid.contains l) })
      let u := t.modRing (fun r => { r with view := if r.avoid.isEmpty then 1 else 2 })
      (s.isWorker → exec .planSwitch s = .next t)
      ∧ (s.isManager → p.why = .heal → exec .planSwitch s = .next (u.raise 0x0A03 15 p.seq (p.link.1 + 256 * p.link.2)))
      ∧ (s.isManager → p.why ≠ .heal → exec .planSwitch s = .next t))
    ∧ (∀ e, s.ring.plan = some p → p.holdEnd = some e → e ≤ s.now →
      let t := s.releaseAll.modRing (fun r => { r with plan := none })
      let t := if t.isManager then t.afterMove p else t
      (t.ring.movesDue = [] → exec .routeHoldEnd s = .next t)
      ∧ (∀ m rest, t.ring.movesDue = m :: rest →
        exec .routeHoldEnd s = .next ((t.modRing (fun r => { r with movesDue := rest })).startMove m.1 m.2)))

/-- Its time (R437 to R441): the manager sends TIME on both ports every 10 us, every node DELAY_REQ every 100 us; a DELAY_REQ is answered
with its two times, a DELAY_RESP gives one value of the link delay, of which 16 are averaged; a worker hands TIME on with its own delay
and residence added and follows it on its active port; 100 us without one on both ports, a locked worker is UNLOCKED. -/
def Obligations.RingTime : Prop :=
  ∀ (s : State) (east : Bool) (sub res t1 t2 t3 : Nat) (f : TimeFrame), s.ringOn →
    let p := s.ring.port east
    let old := fun (q : RingPort) => match q.lastTime with
      | some t => decide (t + 100000 ≤ s.now)
      | none => true
    (s.isManager → (∀ t, s.ring.timeSent = some t → t + 10000 ≤ s.now) →
      let j := s.ring.join.getD { a := 0, b := 0, joinAt := 0, begun := false }
      let g := timeBody {
        origin := s.now, frac := s.node.clock % 64, corr := 0, hopsDone := 0, last := 0, form := s.ring.view = 0, planSeq := s.ring.planSeq,
        joinTime := j.joinAt, joinA := j.a, joinB := j.b }
      exec .timeSend s = .next (((s.modRing (fun r => { r with timeSent := some s.now })).sendPort .time true g).sendPort .time false g))
    ∧ (p.link = 2 → (∀ t, p.reqSent = some t → t + 6400000 ≤ s.node.clock) →
      exec (.delayReqSend east) s = .next ((s.modPort east (fun q => { q with reqSent := some s.node.clock })).sendPort .delayReq east 0))
    ∧ (let t := s.node.clock + sub % 3125
      exec (.rxDelayReq east sub res) s = .next (s.sendPort .delayResp east (mkRec (time64 0 t ++ time64 16 (t + res)))))
    ∧ (p.reqSent = some t1 →
      let t4 : Int := (s.node.clock + sub % 3125 : Nat)
      let d : Int := (1000 * ((t4 - t1) - ((t3 : Int) - t2)) + 64 * p.asym) / 2000
      exec (.rxDelayResp east t2 t3 sub) s =
        .next (s.modPort east (fun q => { q with samples := (d :: q.samples).take 16, delay := delayMean ((d :: q.samples).take 16) })))
    ∧ (s.isWorker → f.joinTime = 0 →
      let tM : Int := ((64 * f.origin + f.frac : Nat) : Int) + f.corr + p.delay
      let e := ((s.node.clock + sub % 3125 : Nat) : Int) - tM
      let t := (s.modPort east (fun q => { q with lastTime := some s.now, hopsDone := f.hopsDone })).modRing
        (fun r => if east then { r with lastB := some f.last } else { r with lastA := some f.last })
      let t := t.modRing (fun r => { r with join := none })
      (t.ring.state = .listening → f.form → t.faults.fatal = false → t.node.ringLanes = 8 →
        exec (.rxTime east sub res f) s = .next t.openBypass)
      ∧ (t.ring.state ≠ .listening → (t.ring.port (!east)).lastTime = none → p.clockLost = false →
        let g : TimeFrame := { f with corr := f.corr + p.delay + res, hopsDone := f.hopsDone + 1, last := t.ring.nodeNo }
        exec (.rxTime east sub res f) s =
          .next (((t.sendPort .time (!east) (timeBody g) true).modRing (fun r => { r with activeEast := east })).timeError e)))
    ∧ (s.isWorker → s.ring.state = .locked → old s.ring.east → old s.ring.west → exec .timeLossTimeout s = .next (s.unlockTime 2))

/-- What it carries (R422, R424, R429, R430, R434, R435, R502): sample segments, held behind those of the old route in a planned move;
blocks and records of captures; PDUs; triggers and messages, of which the second copy is dropped; log copies, those lost before them
counted; a frame of an unknown type counts as a CRC error, and one whose CRC fails is also reported, goes on with its CRC inverted unless
its way ends here (R426), and as the sixteenth within 1 ms takes the link down (R421). -/
def Obligations.RingTraffic : Prop :=
  ∀ (s : State) (src fseq channel n body c q : Nat) (new east : Bool) (segs : List Segment) (pdu : List Byte) (g : Segment), s.ringOn →
    exec (.rxPrompt new segs) s = .next (s.segmentsIn true new segs)
    ∧ (s.isManager → exec (.rxPacked new segs) s = .next (s.segmentsIn false new segs))
    ∧ (∀ t, s.ring.packingSince = some t → t + 2000 ≤ s.now → exec .packedSendTimeout s = .next s.sendPacked)
    ∧ (s.isManager → exec (.rxCapture src q (.block g n)) s = .next (s.takeSegment { g with src := src } (.capture n)))
    ∧ (∀ f v, s.isManager → s.qidOwner q = some (f + 1) → exec (.rxCapture src q (.record v)) s = .next (s.postRecord q v f))
    ∧ (s.connFor src pdu = some c → exec (.rxTirwin src pdu none) s = .next (s.receivePdu c pdu).1)
    ∧ (s.isManager → exec (.rxTirwin src pdu (some (c, q))) s = .next (s.pduToHost src c q pdu))
    ∧ (s.firstCopy src 1 fseq → exec (.rxTrigger src fseq channel n) s =
      .next ((s.noteCopy src 1 fseq).sendTriggers 5 (64 * n) (fun _ q => q.trigArg % 16 = channel % 16)))
    ∧ (s.firstCopy src 1 fseq = false → exec (.rxTrigger src fseq channel n) s = .next s)
    ∧ (s.firstCopy src 2 fseq → exec (.rxMessage src fseq channel n) s = .next (s.noteCopy src 2 fseq))
    ∧ (s.firstCopy src 2 fseq = false → exec (.rxMessage src fseq channel n) s = .next s)
    ∧ (s.isManager → (tget {} s.ring.table src).present →
      exec (.rxLog src true body) s = .next ((s.logCopiesLost src true (bits body 0 32)).copyEntry (BitVec.ofNat 512 body))
      ∧ exec (.rxLog src false body) s = .next ((s.logCopiesLost src false (bits body 64 32)).copyRec (bits body 152 4)
        { time := bits body 0 64, lseq := bits body 64 32, source := 0, part := 0, body := bits body 128 384 }))
    ∧ (let u := s.modPort east (fun p => { p with crc := p.crc.bump 32 })
      exec (.unknownFrameType ⟨east, none⟩) s = .next u
      ∧ (∀ x : FailedFrame,
        let ends := x.dst = some s.ring.nodeNo ∨ x.hops = 0 ∨ s.ring.bypassClosed
        let o : FrameOut := {
          type := (FrameType.ofCode x.cls x.type).getD .damaged, dst := x.dst, aux := x.aux, body := x.body, ring := b2n east, hops := x.hops - 1,
          fseq := x.fseq, at_ := u.node.clock, passing := true, inverted := true, from_ := some x.src }
        let v := (if ends then u else u.modRing (fun r => { r with out := o.queue r.out })).report 0x28 (if east then 0 else 1) 0
        let l := v.now :: (v.ring.port east).crcTimes.filter (fun t => decide (v.now < t + 1000000))
        let w := v.modPort east (fun p => { p with crcTimes := l })
        let k := w.ring.linkAt w.ring.nodeNo east
        (l.length < 16 → exec (.unknownFrameType ⟨east, some x⟩) s = .next w)
        ∧ (16 ≤ l.length → exec (.unknownFrameType ⟨east, some x⟩) s = .next (w.dropLink east k.1 k.2 3))))

/-- Its COMMAND class (R432 to R434, R567): every frame with a TAG is acknowledged and a repeated one acts no more; a CMD runs on the
worker with the role the manager resolved; CMD frames of the kinds 1 to 8 carry what the nodes tell each other beside commands (the
model's choice, log 31); a CPL ends the forwarded command, an EVENT goes to its queue, an ACK ends the repetition every 200 us, and
COMMAND_WAIT ends a command without its completion with TIMEOUT. -/
def Obligations.RingCommandFrames : Prop :=
  ∀ (s : State) (src tag cmd status result addr len val time code hearth subject held detail : Nat) (c : CmdFrame), s.ringOn →
    let t := (s.takeTag src tag).1
    (s.isWorker → s.ring.bypassClosed = false → src = 0 → (s.takeTag src tag).2 →
      (c.kind = 0 ∨ c.kind = 3 →
        (∀ p, specOf (frameRequest c tag) = some p → exec (.rxCmd src tag c) s =
          .next (p.run (frameRequest c tag) (t.noteFrame c (frameRequest c tag))))
        ∧ (specOf (frameRequest c tag) = none → exec (.rxCmd src tag c) s =
          .next ((t.noteFrame c (frameRequest c tag)).finish (frameRequest c tag) .badParam 0)))
      ∧ (c.kind = 1 → exec (.rxCmd src tag c) s =
        .next (((List.range 8).filter (fun h => bitAt c.arg h)).foldl (fun s h => s.makeLive [] h) t))
      ∧ (c.kind = 4 → exec (.rxCmd src tag c) s = .next (t.setRate (c.arg % 2 = 0) (some (c.arg < 2))))
      ∧ (c.kind = 5 → exec (.rxCmd src tag c) s =
        .next ((t.modShare (c.entry.toNat % 2 ^ 64) true (fun x => { x with nextStep := c.arg % 4 })).postBlock (c.entry.toNat % 2 ^ 64) true))
      ∧ (c.kind = 6 → exec (.rxCmd src tag c) s =
        .next { t with ring := { t.ring with spacings := tset t.ring.spacings (c.entry.toNat % 2 ^ 64) c.queue } })
      ∧ (c.kind = 8 → exec (.rxCmd src tag c) s = .next (t.modQueue (c.entry.toNat % 2 ^ 18) (fun x => x.unship c.queue))))
    ∧ (s.isManager → s.ring.bypassClosed = false → (s.takeTag src tag).2 → c.kind = 7 →
      let q := c.entry.toNat % 2 ^ 18
      exec (.rxCmd src tag c) s = .next ((t.queueLost q c.queue).raiseQueueLoss q))
    ∧ (s.ring.bypassClosed = false → (s.takeTag src tag).2 → c.kind = 2 →
      let k := c.entry.toNat % 2 ^ 64
      exec (.rxCmd src tag c) s = .next (t.setPrompt k src (c.arg = 1 && c.fn = fnOfHearth (t.streamHolder k))))
    ∧ (s.isWorker → s.ring.bypassClosed = false → src = 0 → c.kind ≠ 7 → (s.takeTag src tag).2 = false →
      (∀ a, t.ring.answered.find? (fun a => a.1 = src && a.2.1 = tag) = some a → exec (.rxCmd src tag c) s = .next (t.sendFrame a.2.2))
      ∧ (t.ring.answered.find? (fun a => a.1 = src && a.2.1 = tag) = none → exec (.rxCmd src tag c) s = .next t))
    ∧ (s.isManager → (s.takeTag src tag).2 = false →
      exec (.rxCpl src tag cmd status result addr len val) s = .next t
      ∧ exec (.rxEvent src tag time code hearth subject held detail) s = .next t)
    ∧ (∀ f, s.isManager → (s.takeTag src tag).2 → t.ring.forwarded.find? (fun f => f.tag = cmd && f.node = src) = some f →
      (∀ st, Status.ofCode status = some st →
        exec (.rxCpl src tag cmd status result addr len val) s = .next (t.forwardDone f st result))
      ∧ exec (.rxCpl src tag cmd 0xFF result addr len val) s = .next (t.emit (.data f.req.fn addr len val)))
    ∧ (s.isManager → (s.takeTag src tag).2 →
      (code ≠ 0 → exec (.rxEvent src tag time code hearth subject held detail) s = .next ((t.heedEvent src code subject detail).deliverEvent {
        time := time, code := code, node := src, hearth := hearth, subject := subject, held := held, detail := detail }))
      ∧ exec (.rxEvent src tag time 0 hearth subject held detail) s = .next (t.workerFallback src subject))
    ∧ (s.findOp 0x0E01 0 = none → exec (.rxAck src tag) s = .next (s.modRing (fun r => { r with
      unacked := r.unacked.filter (fun u => !(u.frame.dst = some src && u.frame.aux = tag)) })))
    ∧ (∀ u, s.ring.unacked.find? (fun u => decide (u.sentAt + 200000 ≤ s.now) && s.onRing u.frame.dst) = some u →
      exec .resendTimeout s = .next ((s.modRing (fun r => { r with
        unacked := r.unacked.erase u ++ [{ u with sentAt := s.now }], resendCnt := r.resendCnt.bump 16 })).sendFrame u.frame))
    ∧ (∀ f, s.ring.forwarded.find? (fun f => decide (f.deadline ≤ s.now)) = some f →
      exec .commandWaitTimeout s = .next (s.forwardLost f))

/-- How it forms and nodes join (R441, R445 to R447): a worker takes its number, or with 0 leaves; the manager refuses the 64th;
formation ends when ring A has closed with every link up, or after 2 s, and its first plan leaves out the links that have not come up
(R419); an insertion ends after 100 ms without both links; the manager offers a join where one is asked for; its time come, it has begun
and a LISTENING worker on the link opens its bypass; 100 ms without a node, the traffic returns. -/
def Obligations.RingJoining : Prop :=
  ∀ (s : State) (tag num : Nat) (w : RingWorker) (j : JoinOffer), s.ringOn →
    (s.isWorker → s.ring.bypassClosed = false → (s.takeTag 0 tag).2 →
      exec (.rxNumber tag 0 w) s = .next (s.takeTag 0 tag).1.leaveRing
      ∧ (num ≠ 0 → exec (.rxNumber tag num w) s = .next ((s.takeTag 0 tag).1.modRing (fun r => { r with
        nodeNo := num, state := if r.state = .inserted then .numbered else r.state }))))
    ∧ (s.isManager → 63 ≤ s.ring.present.length → (s.ring.table.find? (fun e => e.2.present && e.2.serial = w.serial)) = none →
      exec (.rxNumber tag num w) s = .next ((s.sendFrame {
        type := .number, dst := some 0, aux := 0, body := mkRec [⟨0, 0, 8, 0⟩, ⟨8, 0, 64, w.serial⟩] }).raise 0x0A06 15 0 w.serial))
    ∧ (∀ closed, s.isManager → s.ring.view = 0 → s.ring.reported = [] →
      let up := closed && s.ring.east.link = 2 && s.ring.west.link = 2 && !s.ring.bypassClosed
      up ∨ 2000000000 ≤ s.sinceRef →
      let dead := s.ring.deadLinks s.ring.nodesInOrder
      let t := s.modRing (fun r => { r with
        view := if up then 1 else 2, reported := [], planSeq := r.nextSeq, order := r.nodesInOrder, lastOffer := s.now, lastScan := s.now,
        avoid := r.avoid ++ dead.filter (fun l => !r.avoid.contains l),
        downLinks := r.downLinks ++ dead.filter (fun l => !r.downLinks.contains l) })
      exec (.formationEnd closed) s = .next (t.sendPlan {
        seq := t.ring.planSeq, switchAt := t.now, order := t.ring.order, avoid := t.ring.avoid, link := (0, 0), why := .reroute }))
    ∧ (∀ t, s.isWorker → s.ring.insertedAt = some t → t + 100000000 ≤ s.now → exec .insertionTimeout s = .next s.leaveRing)
    ∧ (s.isManager → s.ring.view ≠ 0 → s.ring.plan = none → s.ring.join = none → ∀ a rest, s.ring.offersDue = a :: rest →
      exec .joinOffer s =
        .next ((s.modRing (fun r => { r with offersDue := rest, lastOffer := s.now })).offerJoin (s.ring.linkFrom a)))
    ∧ (s.ring.join = some j → j.joinAt ≠ 0 → j.joinAt ≤ s.now → j.begun = false →
      let t := s.modRing (fun r => { r with join := some { j with begun := true } })
      (s.isWorker → s.ring.state = .listening → s.ring.lastA = some j.a → s.ring.lastB = some j.b → s.faults.fatal = false →
        s.node.ringLanes = 8 → exec .joinTime s = .next t.openBypass)
      ∧ (s.isManager → exec .joinTime s = .next t))
    ∧ (s.isManager → s.ring.join = some j → j.begun → s.ring.plan = none → j.joinAt + 100000000 ≤ s.now →
      exec .joinTimeout s = .next (s.startMove (j.a, j.b) .back))

/-- Sessions and the change log (R467, R471, R472, R479): after 900 s without a command a session closes; a lockout that has run out is
gone; its record keeps the time left; the entry programmed first, when it is its turn at bank 1 (R299), is in the log and what waits for
it goes on, one that fails reports and ends TIMEOUT. -/
def Obligations.SessionEvents : Prop :=
  ∀ (s : State) (x : ClogStaged) (rest : List ClogStaged),
    let keep := fun (y : Option Session) => y.filter (fun z => decide (s.now < z.lastUse + 900000000000))
    let over_ := fun (l : Lockout) => match l.until_ with
      | some t => if t ≤ s.now then ({} : Lockout) else l
      | none => l
    exec .sessionTimeout s = .next (s.modRoles (fun r => { r with installer := keep r.installer, maker := keep r.maker }))
    ∧ (s.node.inReset = false →
      exec .lockoutEnd s = .next (s.modRoles (fun r => { r with instLock := over_ r.instLock, makerLock := over_ r.makerLock }))
      ∧ exec .lockoutRecordWrite s = .next (s.modRoles (fun r => { r with
        instLock := { r.instLock with leftAtWrite := r.instLock.left s.now },
        makerLock := { r.makerLock with leftAtWrite := r.makerLock.left s.now } })))
    ∧ (s.clog.staging = x :: rest → s.node.inReset = false → s.node.pfStage = PfStage.none → s.logs.turn 1 →
      let t := { s with clog := { s.clog with staging := rest }, logs := s.logs.took 1 }
      ((∀ r, x.why ≠ .archive r) → exec (.changeLogEntryDone true) s = .next ((t.clogAppend x).afterEntry x.why))
      ∧ (∀ r, x.why = .archive r → exec (.changeLogEntryDone true) s = .next ((t.archived x).finish r .ok 0))
      ∧ (∀ r, x.why.req = some r → exec (.changeLogEntryDone false) s = .next ((t.report 0x24 0 x.action).finish r .timeout 0))
      ∧ (x.why.req = none → exec (.changeLogEntryDone false) s = .next (t.report 0x24 0 x.action)))

/-- Protection (R496, R497, R501, R504, R505): a PERIOD without a PDU forms a HEARTBEAT, and a TRIP with TRIP_FWD while the latch is set;
the PDU held goes in the next microsecond; past its DEADLINE a connection is EXPIRED, counted, raised and reported; the loop starts its
20 ms where its range says otherwise than its last judgement, and is judged at their end; MIN_PULSE ends. -/
def Obligations.ProtectionEvents : Prop :=
  ∀ (s : State) (c range t : Nat) (b : PduBody) (closed : Bool),
    let x := s.conn c
    (x.enable → x.dir → x.period ≠ 0 → s.node.inReset = false →
      (s.prot.latch → x.tripFwd → (∀ u, x.tripUs = some u → u + x.period ≤ s.us) →
        exec (.heartbeatTimer c) s = .next (s.formPdu c s.tripBody))
      ∧ (s.prot.latch = false ∨ x.tripFwd = false → (∀ u, x.lastUs = some u → u + x.period ≤ s.us) →
        exec (.heartbeatTimer c) s = .next (s.formPdu c { kind := 1, payload := [] })))
    ∧ (x.holding = some b → x.enable → s.ringMute = false → x.lastUs ≠ some s.us →
      exec (.pduHoldRelease c) s = .next (s.emitPdu c b))
    ∧ (x.enable → x.dir = false → 2 ≤ x.state → (x.deadline : Int) < wrapDiff 32 s.nowUs x.lastTs →
      let u := s.modConn c (fun y => { y with state := 1, expires := y.expires.bump 16 })
      let y := u.conn c
      let u := if y.destEn then u.stoveWrite y.stove y.addr (leBytes (connWord0 y) 4) else u
      exec (.tirwinExpiry c) s =
        .next (((u.raise 0x0C02 u.protCode c y.lastSeq).report 0x27 ((u.raise 0x0C02 u.protCode c y.lastSeq).protCode + 256 * c) 0).tripCheck))
    ∧ (exec (.tripLoopChange range) s = .next (s.modProt (fun p => { p with
        debounce := if range = 0 then (if s.prot.loop = some false then none else some (false, s.now))
          else if range = 1 then (if s.prot.loop = some true then none else some (true, s.now)) else none })))
    ∧ (s.prot.debounce = some (closed, t) → t + 20000000 ≤ s.now → (tget {} s.node.kindle 0).kindled → s.node.inReset = false →
      exec .tripLoopDebounce s = .next (s.loopJudged closed))
    ∧ (s.prot.pulse → s.prot.pulseAt + s.prot.minPulse * 1000000 ≤ s.now →
      exec .minPulseEnd s = .next (s.modProt (fun p => { p with pulse := false })))

/-- Faults and logs (R516, R517, R527 to R540): a detector of a source that is there is detected or, its condition gone, no longer held;
the reaction of the first record in hand takes effect, and after a fence a shadow of 100 us; a failed self-test reports; the injection
ends TIMEOUT after 1 s; the first record waiting takes its LSEQ, enters the RAM log and is offered to the flash log; a token a second up
to 64; the record programmed, in its turn at bank 1, enters the window of 16,384, or reports. -/
def Obligations.FaultEvents : Prop :=
  ∀ (s : State) (x : Detection) (k : Detector) (rid die det inst detail : Nat) (more : List (Nat × Nat × Nat)) (j : Injection)
    (r : LogRec) (rest : List LogRec),
    s.node.inReset = false →
    (s.faults.reports = (det, inst, detail) :: more →
      exec (.faultDetection none) s = .next ({ s with faults := { s.faults with reports := more } }.detect det inst detail))
    ∧ (detector x.det = some k → s.instThere k.dom x.inst →
      (x.holds → exec (.faultDetection (some x)) s = .next (s.detect x.det x.inst x.detail))
      ∧ (x.holds = false → exec (.faultDetection (some x)) s =
        .next { s with faults := { s.faults with levels := s.faults.levels.filter (· ≠ (x.det, x.inst)) } }))
    ∧ (rid ∈ s.faults.order → s.faults.order.head? = some rid ∨ (s.faultRec rid).cls = 2 →
      let t := { s with faults := { s.faults with order := s.faults.order.erase rid } }
      let y := t.faultRec rid
      let u := t.react y rid
      exec (.reactionDone rid) s = .next (u.modRec rid (fun z => { z with
        handling := false, reactTime := u.stamp,
        shadowEnd := if 1 ≤ y.reaction ∧ y.reaction ≤ 6 then some (u.now + 100000) else none })).checkReady)
    ∧ (∀ t, (s.faultRec rid).shadowEnd = some t → t ≤ s.now →
      let y := s.faultRec rid
      let own := s.levelHolds y.det y.inst && (match detector y.det with
        | some d => d.level && y.isOpen
        | none => false)
      exec (.shadowEnd rid) s = .next ((if own then y.merged.filter (· ≠ (y.det, y.inst)) else y.merged).foldl
        (fun s z => match detector z.1 with
          | some d =>
            let latched := match instDie d.dom z.2 with
              | some k => s.faults.fatalDies.contains k
              | none => false
            if s.levelHolds z.1 z.2 && !latched then s.openRec d z.1 z.2 0 (s.reactionOf z.1 z.2 d) false false else s
          | none => s)
        (s.modRec rid (fun z => { z with shadowEnd := none, merged := [] }))))
    ∧ (die < s.node.dies →
      exec (.tripLineSelfTest die true) s = .next s ∧ exec (.tripLineSelfTest die false) s = .next (s.report 0x19 die 0))
    ∧ (exec (.faultManagerSelfTest true) s = .next { s with faults := { s.faults with selfTest := true } }.checkReady
      ∧ exec (.faultManagerSelfTest false) s = .next (s.report 0x1C 0 0))
    ∧ (s.faults.injection = some j → j.deadline ≤ s.now →
      exec .injectTimeout s = .next ({ s with faults := { s.faults with injection := none } }.endOp 0x0D04 0 .timeout 0))
    ∧ (s.logs.queue = r :: rest → s.node.trustLoaded → r.rid = none →
      let q := { r with lseq := s.logs.lseq }
      let ram := s.logs.ram ++ [q]
      let l := { s.logs with queue := rest, lseq := (s.logs.lseq + 1) % 2 ^ 32, ram := if 65536 < ram.length then ram.drop 1 else ram }
      let t := { s with logs := l.offer q }
      (s.isWorker → exec .ramLogWrite s = .next (t.sendFrame { type := .log, dst := some 0, aux := 0, body := q.bytes }))
      ∧ (s.isWorker = false → exec .ramLogWrite s =
        .next (t.copyRec q.hearth { time := q.time, lseq := q.lseq, source := 0, part := 0, body := q.body })))
    ∧ (let period := if 9000 ≤ s.logs.maxErase then 60000000000 else 1000000000
      s.logs.lastRefill + period ≤ s.now →
      exec .tokenRefill s = .next { s with logs := { s.logs with
        lastRefill := s.logs.lastRefill + period, tokens := min 64 (s.logs.tokens + 1) } })
    ∧ (s.logs.flashPending = r :: rest → s.node.pfStage = .none → s.logs.turn 0 →
      let flash := s.logs.flash ++ [r]
      (exec (.flashLogRecordDone false) s = .next ({ s with logs := { s.logs.took 0 with flashPending := rest } }.report 0x25 0 0))
      ∧ exec (.flashLogRecordDone true) s = .next { s with logs := { s.logs.took 0 with
        flashPending := rest
        flash := if 16384 < flash.length then flash.drop 1 else flash
        overwrites := if 16384 < flash.length then s.logs.overwrites.bump 32 else s.logs.overwrites
        flashNext := (r.lseq + 1) % 2 ^ 32
        flashWritten := s.logs.flashWritten + 1
        erases := if s.logs.flashWritten % 1024 = 0 then tmod 0 s.logs.erases (s.logs.flashWritten / 1024 % 20) (satInc 32) else s.logs.erases } })

/-- Ageing (R570, R573, R574, R579, R582, R584): a gauge that is up and due takes its reading; at an operating hour every gauge of an
unfenced die keeps its mean; 3,600,000 s after the last start a re-plan begins; done, the plan is in force, and with FATAL latched none
comes of it; a lane fallback not moved within 1 s is pending. -/
def Obligations.AgeingEvents : Prop :=
  ∀ (s : State) (die i p : Nat) (v : Int) (x : Replan), s.node.inReset = false →
    (die < s.node.dies → gaugePeriod i = some p → s.gaugeUp die i → (∀ t, ((s.dieAge die).gauge i).lastRead = some t → t + p ≤ s.now) →
      exec (.gaugeRead die i v) s = .next (s.gaugeUpdate die i v))
    ∧ (s.age.lastHour < s.opSeconds / 3600 → exec .hourlyMean s = .next { s with age := { s.age with
        dies := s.age.dies.map (fun e =>
          if s.dieFenced e.1 then e else (e.1, { e.2 with gauges := e.2.gauges.map (fun g => (g.1, g.2.hourly)) })),
        lastHour := s.opSeconds / 3600, saved := s.opSeconds } })
    ∧ (s.node.ready → s.faults.fatal = false → s.age.replan = none → s.age.since + 3600000 ≤ s.opSeconds →
      exec .scheduledReplan s = .next { s with age := { s.age with
        replan := some { start := s.now, trigger := 0, req := none, snapshot := s.age.dies } } })
    ∧ (s.age.replan = some x →
      (s.faults.fatal = false → exec .replanDone s = .next (s.replanned x))
      ∧ (s.faults.fatal → x.req = none → exec .replanDone s = .next { s with age := { s.age with replan := none } })
      ∧ (∀ r, s.faults.fatal → x.req = some r →
        exec .replanDone s = .next ({ s with age := { s.age with replan := none } }.finish r .fenced 0)))
    ∧ (s.age.moves.any (fun m => decide (m.2 ≤ s.now)) → s.ring.plan = none →
      exec .fallbackMoveTimeout s = .next { s.dropFallback with ring := { s.ring with
        movesDue := s.ring.movesDue.filter (fun m => match m.2 with
          | .rate _ _ _ true => false
          | _ => true) } })

/-- With no command waiting (log 1, the model's choice): in the reset state nothing happens; else a host command that nothing holds back
any more starts, and without one a draught edge passes: device time grows by 48 + 53/64 ns, and so does the time since reset; what waited
for the edge takes effect, a worker's ponds drain, and the manager tells its workers of streams whose spacing has changed (log 19). -/
def Obligations.EmptyQueue : Prop :=
  ∀ (s : State), s.pending = [] →
    let busy := s.host.ops.flatMap (·.names) ++ s.clog.staging.flatMap (·.names) ++ s.ring.forwarded.flatMap (·.names)
    (s.node.inReset → step s = .next s)
    ∧ (∀ e, s.node.inReset = false → s.pickWaiting busy [] s.host.waiting = some e → step s = .next (s.startWaiting e))
    ∧ (s.node.inReset = false → s.pickWaiting busy [] s.host.waiting = none →
      let t := { s with node := { s.node with clock := s.node.clock + (48 * 64 + 53), up := s.node.up + 3125 } }
      let u := (t.due.foldl (fun (s : State) a => s.edgeAct a) { t with due := [] }).drainRings
      step s = .next (if u.isManager then u.tellRates u.allReads else u))

/-- A host command that fails (R15, R401, R605): with BAD_PARAM where a check of its header, format or ranges fails or a page of its data
does not translate; else with the failed check's status that stands first in R605's order. -/
def Obligations.CommandsRefused : Prop :=
  ∀ (i : Instr) (r : Req) (p : CmdSpec) (s : State), commandOf i = some (r, p) → p.starts r s →
    let t := s.taken r
    let checks := p.checks r s
    ((∃ c ∈ checks, c.1 ∧ c.2 = .badParam) → exec i s = .next (t.finish r .badParam 0))
    ∧ ((∀ c ∈ checks, c.1 → c.2 ≠ .badParam) →
      (∀ u, t.mapData r (p.data r t) = (u, false) → exec i s = .next (u.finish r .badParam 0))
      ∧ (∀ u x, t.mapData r (p.data r t) = (u, true) → (∃ c ∈ checks, c.1 ∧ c.2 = x) → (∀ c ∈ checks, c.1 → x.rank ≤ c.2.rank) →
        exec i s = .next ((p.refused r x u).finish r x 0)))

/-- A host command that a check refuses changes no unit of the device (R15); SESSION_OPEN alone counts its failures (R471). -/
def Obligations.RefusalsChangeNothing : Prop :=
  ∀ (i : Instr) (r : Req) (p : CmdSpec) (s : State), commandOf i = some (r, p) → r.opcode ≠ 0x0B01 → p.starts r s →
    (∃ c ∈ p.checks r s, c.1 ∧ c.2 = .badParam)
      ∨ ((∃ c ∈ p.checks r s, c.1) ∧ ((s.taken r).mapData r (p.data r (s.taken r))).2) →
    ∃ t, exec i s = .next t ∧ t.units = s.units

/-- A host command that has to wait (R388, R390, R479), and one for a worker (R432): the first waits with the rights it holds (R467) and
changes nothing else; the second is checked as far as the manager can, its data translated, and sent in a CMD frame with the role it was
resolved to and the operands it reads, after what the worker must know of the streams it then reads (logs 19 and 31). One fetched behind
another of its queue waits for it, and one that a reset has parted from its queue has no command ring: neither is meant here. -/
def Obligations.CommandsWaitOrTravel : Prop :=
  ∀ (i : Instr) (r : Req) (p : CmdSpec) (s : State), commandOf i = some (r, p) → s.node.inReset = false → r.opcode = p.opcode →
    s.outOfTurn r = false → s.claim r = r →
    let names := if r.u 4 0 6 = 0 ∨ r.origin ≠ .ring then p.names r else queueNames p r
    let behind := r.origin = .ring ∧ ∃ e ∈ s.host.waiting, e.1.origin = .ring ∧ e.1.qid = r.qid
    let fenced := r.b 6 0 = true ∧ s.queueInHand r.qid = true
    (s.isWorker = false ∨ r.origin ≠ .ring →
      behind ∨ (∃ n ∈ names, n ∈ s.namesInHand) ∨ fenced ∨ 16 ≤ s.clog.staging.length →
      exec i s = .next { s with host := { s.host with
        fetched := s.host.fetched.erase (r.qid, r.entry), waiting := s.host.waiting ++ [(r, names)],
        rights := s.host.rights ++
          (if r.origin ≠ .ring ∨ (r.qid, r.entry) ∈ s.host.fetched then [] else [((r.qid, r.entry), s.roleNow r)]) } })
    ∧ (s.isManager → r.origin = .ring → r.u 4 0 6 ≠ 0 → p.node = .forward → ¬ behind → (∀ n ∈ names, n ∉ s.namesInHand) → ¬ fenced →
      s.clog.staging.length < 16 →
      let t := s.taken r
      let new := (p.act r (t.asNode (r.u 4 0 6))).st
      (∀ c ∈ t.headerRefusals p r ++ p.away r t, c.1 = false) → p.budget = false ∨ t.awayOver (r.u 4 0 6) new = false →
      (∀ u, t.mapData r (p.data r t) = (u, false) → exec i s = .next (u.finish r .badParam 0))
      ∧ (∀ u w, t.who r = some w → t.mapData r (p.data r t) = (u, true) →
        let x := if p.budget then u.tellRates new.reads else u
        let v := x.sendAcked .cmd (r.u 4 0 6)
          (mkRec ([⟨0, 0, 8, r.fn⟩, ⟨1, 0, 8, w.right⟩, ⟨16, 0, 512, r.entry.toNat⟩] ++ x.operands r (p.data r t) 80))
        exec i s = .next { v with ring := { v.ring with forwarded := v.ring.forwarded ++
          [{ tag := v.ring.tag, node := r.u 4 0 6, req := r, names := queueNames p r, deadline := v.now + v.ring.commandWait * 1000000000 }] } }))

/-- The frame of the commands that read a record: whatever they answer, no unit of the device changes. -/
def Obligations.StatusReadsChangeNothing : Prop :=
  ∀ (i : Instr) (r : Req) (p : CmdSpec) (s : State), commandOf i = some (r, p) → isStatusRead i →
    ∀ t, p.actsNow r s = some t → ∃ u, exec i s = .next u ∧ u.units = s.units

/-- The frame of the commands that set one tile: every other tile, and every unit but the tiles, is as it was; FE_CONFIG has its effect
at the next draught edge. -/
def Obligations.TileCommandsChangeOneTile : Prop :=
  ∀ (i : Instr) (r : Req) (p : CmdSpec) (s : State), commandOf i = some (r, p) → isTileCommand i →
    p.Frames i r s (fun t u =>
      { u.units with tiles := [], due := [] } = { t.units with tiles := [], due := [] }
      ∧ (u.due = t.due ∨ ∃ a b c d, i = .feConfig r ∧ u.due = t.due ++ [.fe (r.u 16 0 16) a b c d])
      ∧ ∀ n, n ≠ r.u 16 0 16 → u.tile n = t.tile n)

/-- The frame of the stove instructions that write one register, and of SW (R276, R279, R281): with no trap selected, and the next word
in the instruction SRAM, each goes on with every other register, the accumulators, both SRAMs, every other stove and the rest of the
device as they were; s0 reads as zero whatever is written; SW changes the four bytes at its address and no other. -/
def Obligations.StoveFrames : Prop :=
  ∀ (i : Instr) (s : State) (sv a b imm : Nat) (x : Run),
    let v := s.stove sv
    let ad := toU 32 ((v.reg b : Int) + toI 16 imm)
    v.trapMask = 0 → x.pc % 4 = 0 → x.pc + 4 < 65536 → s.issues sv i x →
    (registerOp i = some (sv, a) →
      ∃ t, exec i s = .next t ∧ s.sameButStoves t ∧ (∀ k, k ≠ sv → t.stove k = s.stove k)
        ∧ (t.stove sv).reg 0 = 0 ∧ (∀ k, k ≠ a → (t.stove sv).reg k = v.reg k)
        ∧ (t.stove sv).accs = v.accs ∧ (t.stove sv).isram = v.isram ∧ (t.stove sv).dsram = v.dsram)
    ∧ (i = .svSw sv a b imm → ad < dLoopBase → ad % 4 = 0 →
      ∃ t, exec i s = .next t ∧ s.sameButStoves t ∧ (∀ k, k ≠ sv → t.stove k = s.stove k)
        ∧ (t.stove sv).regs = v.regs ∧ (t.stove sv).accs = v.accs ∧ (t.stove sv).isram = v.isram
        ∧ memGetLE 0 (t.stove sv).dsram ad 4 = v.reg a
        ∧ (∀ k, k < ad ∨ ad + 4 ≤ k → memGet 0 (t.stove sv).dsram k = memGet 0 v.dsram k))

/-- The stove's words (R280, R281): the word of every well-formed instruction decodes to it; an illegal one is 0x3E, and the loop steps,
which share SRW's word, decode as SRW. -/
def Obligations.StoveWordsRoundTrip : Prop :=
  ∀ (i : Instr) (w : Nat), i.wf → stoveWord i = some w →
    (∀ sv a imm, i ≠ .svLoopStep sv a imm ∧ i ≠ .svLctlHold sv a imm ∧ i ≠ .svLctlResume sv a imm) →
    (∀ sv op, i = .svIllegal sv op → op = 0x3E) →
    w < 2 ^ 32 ∧ ∃ sv, stoveDecode sv w = i

/-- Words written out from the formats of R280 and the opcodes of R281, and what they are. -/
def Obligations.StoveWordSamples : Prop :=
  stoveDecode 3 0b000001_00101_00110_00111_00000000000 = .svAdd 3 5 6 7
  ∧ stoveDecode 0 0b010000_00001_00010_1111111111111111 = .svAddi 0 1 2 0xFFFF
  ∧ stoveDecode 31 0b011001_11111_00100_0000000000001000 = .svSw 31 31 4 8
  ∧ stoveDecode 7 0b011010_00011_00010_1111111111111110 = .svBeq 7 3 2 0xFFFE
  ∧ stoveDecode 1 0b100100_00010_01000_01001_00000000000 = .svMacc 1 2 8 9
  ∧ stoveDecode 2 0b111000_00001_00010_00011_01000000000 = .svFcmp 2 1 2 3 1
  ∧ stoveDecode 0 0b111110_00000_00000_0000000000000000 = .svIllegal 0 0x3E
  ∧ stoveDecode 0 0b111111_00000_00000_0000000000000000 = .svEnd 0

/-- Every step keeps the byte memories in canonical form: of every stove, of every seal image, of the program store. -/
def Obligations.StepKeepsMemories : Prop :=
  ∀ (s t : State), s.memOk → step s = .next t → t.memOk

/-- Reset (R278, R442, R495, R532, R555): the memories are in canonical form, every stove is STOPPED with its registers, accumulators and
SRAM at zero, the bypass is closed, TRIP_N and FLT_N are low, no force path drives, the PCIe link is down and no command waits. -/
def Obligations.ResetState : Prop :=
  let s := State.reset
  s.memOk ∧ s.node.inReset ∧ s.ring.bypassClosed ∧ s.tripLow ∧ s.fltLow ∧ s.host.linkUp = false ∧ s.pending = []
  ∧ (∀ n, (s.tile n).force.driving = false)
  ∧ (∀ sv k, (s.stove sv).state = .stopped ∧ (s.stove sv).reg k = 0 ∧ (s.stove sv).acc k = 0
    ∧ memGet 0 (s.stove sv).isram k = 0 ∧ memGet 0 (s.stove sv).dsram k = 0)

/-- A consumer compares two wrapping counts by their signed difference, which is right while the true distance is in its range. -/
def Obligations.WrappingCounts : Prop :=
  ∀ (w a b : Nat), 0 < w →
    -(2 ^ (w - 1) : Int) ≤ wrapDiff w a b ∧ wrapDiff w a b ≤ 2 ^ (w - 1) - 1
    ∧ (wrapDiff w a b - ((a : Int) - b)) % 2 ^ w = 0
    ∧ (∀ d : Int, -(2 ^ (w - 1) : Int) ≤ d → d ≤ 2 ^ (w - 1) - 1 → (((a : Int) - b - d) % 2 ^ w = 0) → wrapDiff w a b = d)

/-- A force word's DAC code: bits [7:0] are ignored; T[31:8] / 64 is rounded with halves toward plus infinity, and 131,072 saturates to
131,071. The code q stands for q / 2^17 of the range's full scale as T stands for T / 2^31 of it: within half a code unless saturated. -/
def Obligations.ForceTargetCode : Prop :=
  ∀ (range : Nat) (t u : Word), range < 4 →
    let k := toI 24 (t.toNat / 256)
    let q := dacCode range (forcePos range t)
    (u.toNat / 256 = t.toNat / 256 → dacCode range (forcePos range u) = q)
    ∧ (k < 64 * 131071 + 32 → 2 * k - 64 < 128 * q ∧ 128 * q ≤ 2 * k + 64
      ∧ 2 ^ 14 * q - 2 ^ 13 ≤ t.toInt ∧ t.toInt < 2 ^ 14 * q + 2 ^ 13)
    ∧ (64 * 131071 + 32 ≤ k → q = 131071)
    ∧ -131072 ≤ q

/-- FORCE_RESTART takes the tile at offset 16: the latch is released, the retry count is zero, and the switches close at the frozen
position as a retry of the same output at the same moment closes them; while something else holds the output off they stay open. -/
def Obligations.ForceRestart : Prop :=
  ∀ (r : Req) (s : State), forceRestartSpec.Frames (.forceRestart r) r s (fun t u =>
    let n := r.u 16 0 16
    let f := (t.tile n).force
    let g := (u.tile n).force
    g.phase ≠ .latched ∧ g.retry = 0 ∧ g.pos = f.pos
    ∧ (t.forceOff n → g.phase = .fenceLost ∧ g.driving = false)
    ∧ (t.forceOff n = false → ∀ v : State, (v.tile n).force = { f with phase := .hiz } → v.now = t.now → f.hizAt + 10000000 ≤ v.now → n < v.nTiles →
      v.node.inReset = false → v.faults.fatal = false →
      ∃ w, exec (.forceRetry n) v = .next w ∧ { (w.tile n).force with retry := 0 } = g))

/-- The bounds of the slew generator (R129): its rate never exceeds v_max, and changes by at most a x dt in an update, but for the
landing, which takes a rate of at most 2 x a x dt after its own step to zero, and for a freeze in current limit (R131). Units of log 9. -/
def Obligations.GeneratorBounds : Prop :=
  ∀ (n : Nat) (s t : State),
    let f := (s.tile n).force
    let g := (t.tile n).force
    let k : Nat := if f.mode = .forceSense then 2 else 1
    let tgt := if f.ramp then 0 else forcePos f.range g.target
    f.slew → f.v.natAbs ≤ f.vmax * 6400 → exec (.forceUpdate n) s = .next t →
    g.v.natAbs ≤ f.vmax * 6400
    ∧ ((g.v - f.v).natAbs ≤ f.acc * 3125 * k
      ∨ (g.v = 0 ∧ f.phase = .limit ∧ g.pos = f.pos)
      ∨ (g.v = 0 ∧ g.pos = tgt ∧ f.v.natAbs ≤ 3 * (f.acc * 3125 * k)))

/-- The DETAIL of the GENESIS entry that CLOG_ARCHIVE forms, read from the entry's 64 B: at 24 the LSEQ archived last, at 28 ARCHIVE_CNT,
at 32 UNLOGGED as it stood, at 36 LEGAL_CNT; once the entry is programmed, UNLOGGED is zero. -/
def Obligations.GenesisEntry : Prop :=
  ∀ (r : Req) (s t : State), clogArchiveSpec.actsNow r s = some t → t.clog.worn = false → t.node.pfStage = .none →
    t.logs.bank1 = [] →
    t.trust.unlogged < 2 ^ 32 →
    ∃ e u, exec (.clogArchive r) s = .next (t.stage e) ∧ e.why = .archive r
      ∧ (∀ boot lseq prev, let d := (e.entry boot lseq prev).toNat
        bits d (8 * 24) 32 + 1 = t.clog.nextLseq ∧ bits d (8 * 28) 32 = satInc 32 t.trust.archiveCnt
        ∧ bits d (8 * 32) 32 = t.trust.unlogged ∧ bits d (8 * 36) 32 = t.trust.legalCnt % 2 ^ 32)
      ∧ exec (.changeLogEntryDone true) (t.stage e) = .next u ∧ u.trust.unlogged = 0
end

