-- ==== Sys2Proof/Laws/Table.lean ====
section
/-! SUPPORT. The opcode of every command (R621), and the command of a request by its opcode. -/

set_option Elab.async false

namespace Sys2Proof.Machine

@[simp] theorem devIdentifySpec_opcode : devIdentifySpec.opcode = 0x0101 := rfl
@[simp] theorem feConfigSpec_opcode : feConfigSpec.opcode = 0x0201 := rfl
@[simp] theorem feGroupConfigSpec_opcode : feGroupConfigSpec.opcode = 0x0202 := rfl
@[simp] theorem feStatusSpec_opcode : feStatusSpec.opcode = 0x0203 := rfl
@[simp] theorem feClearCountsSpec_opcode : feClearCountsSpec.opcode = 0x0204 := rfl
@[simp] theorem coreStatusSpec_opcode : coreStatusSpec.opcode = 0x0205 := rfl
@[simp] theorem coreClearCountsSpec_opcode : coreClearCountsSpec.opcode = 0x0206 := rfl
@[simp] theorem tileModeSpec_opcode : tileModeSpec.opcode = 0x0207 := rfl
@[simp] theorem seqSlotsSpec_opcode : seqSlotsSpec.opcode = 0x0301 := rfl
@[simp] theorem seqCommitSpec_opcode : seqCommitSpec.opcode = 0x0302 := rfl
@[simp] theorem seqArmSpec_opcode : seqArmSpec.opcode = 0x0303 := rfl
@[simp] theorem seqTriggerSpec_opcode : seqTriggerSpec.opcode = 0x0304 := rfl
@[simp] theorem seqStatusSpec_opcode : seqStatusSpec.opcode = 0x0305 := rfl
@[simp] theorem tcConfigSpec_opcode : tcConfigSpec.opcode = 0x0306 := rfl
@[simp] theorem tcResetSpec_opcode : tcResetSpec.opcode = 0x0307 := rfl
@[simp] theorem tcStatusSpec_opcode : tcStatusSpec.opcode = 0x0308 := rfl
@[simp] theorem filtConfigSpec_opcode : filtConfigSpec.opcode = 0x0401 := rfl
@[simp] theorem filtCoefSpec_opcode : filtCoefSpec.opcode = 0x0402 := rfl
@[simp] theorem filtAdmitSpec_opcode : filtAdmitSpec.opcode = 0x0403 := rfl
@[simp] theorem filtStatusSpec_opcode : filtStatusSpec.opcode = 0x0404 := rfl
@[simp] theorem filtSwapSpec_opcode : filtSwapSpec.opcode = 0x0405 := rfl
@[simp] theorem filtPresetSpec_opcode : filtPresetSpec.opcode = 0x0406 := rfl
@[simp] theorem filtDcbSpec_opcode : filtDcbSpec.opcode = 0x0407 := rfl
@[simp] theorem filtDcbReadSpec_opcode : filtDcbReadSpec.opcode = 0x0408 := rfl
@[simp] theorem filtSyncSpec_opcode (r : Req) : (filtSyncSpec r).opcode = 0x0409 := rfl
@[simp] theorem calConfigSpec_opcode : calConfigSpec.opcode = 0x0501 := rfl
@[simp] theorem calRunSpec_opcode : calRunSpec.opcode = 0x0502 := rfl
@[simp] theorem calStatusSpec_opcode : calStatusSpec.opcode = 0x0503 := rfl
@[simp] theorem calRowBurnSpec_opcode : calRowBurnSpec.opcode = 0x0504 := rfl
@[simp] theorem calRowReadSpec_opcode : calRowReadSpec.opcode = 0x0505 := rfl
@[simp] theorem calSubstSpec_opcode : calSubstSpec.opcode = 0x0506 := rfl
@[simp] theorem forceConfigSpec_opcode : forceConfigSpec.opcode = 0x0601 := rfl
@[simp] theorem forceTargetSpec_opcode : forceTargetSpec.opcode = 0x0602 := rfl
@[simp] theorem forceRestartSpec_opcode : forceRestartSpec.opcode = 0x0603 := rfl
@[simp] theorem forceStatusSpec_opcode : forceStatusSpec.opcode = 0x0604 := rfl
@[simp] theorem forceLoopbackSpec_opcode : forceLoopbackSpec.opcode = 0x0605 := rfl
@[simp] theorem stoveLoadSpec_opcode : stoveLoadSpec.opcode = 0x0701 := rfl
@[simp] theorem lawConfigSpec_opcode : lawConfigSpec.opcode = 0x0702 := rfl
@[simp] theorem stoveBindSpec_opcode : stoveBindSpec.opcode = 0x0703 := rfl
@[simp] theorem stoveConfigSpec_opcode : stoveConfigSpec.opcode = 0x0704 := rfl
@[simp] theorem stoveCtrlSpec_opcode : stoveCtrlSpec.opcode = 0x0705 := rfl
@[simp] theorem stoveStatusSpec_opcode : stoveStatusSpec.opcode = 0x0706 := rfl
@[simp] theorem loopConfigSpec_opcode : loopConfigSpec.opcode = 0x0707 := rfl
@[simp] theorem loopModeSpec_opcode : loopModeSpec.opcode = 0x0708 := rfl
@[simp] theorem loopSetSpec_opcode : loopSetSpec.opcode = 0x0709 := rfl
@[simp] theorem loopStatusSpec_opcode : loopStatusSpec.opcode = 0x070A := rfl
@[simp] theorem meterPairSpec_opcode : meterPairSpec.opcode = 0x0801 := rfl
@[simp] theorem meterCtrlSpec_opcode : meterCtrlSpec.opcode = 0x0802 := rfl
@[simp] theorem meterReadSpec_opcode : meterReadSpec.opcode = 0x0803 := rfl
@[simp] theorem queueCreateSpec_opcode : queueCreateSpec.opcode = 0x0901 := rfl
@[simp] theorem queueDestroySpec_opcode : queueDestroySpec.opcode = 0x0902 := rfl
@[simp] theorem queueBindSpec_opcode : queueBindSpec.opcode = 0x0903 := rfl
@[simp] theorem queueStatusSpec_opcode : queueStatusSpec.opcode = 0x0904 := rfl
@[simp] theorem lmapInvalSpec_opcode : lmapInvalSpec.opcode = 0x0905 := rfl
@[simp] theorem ringConfigSpec_opcode : ringConfigSpec.opcode = 0x0A01 := rfl
@[simp] theorem ringStatusSpec_opcode : ringStatusSpec.opcode = 0x0A02 := rfl
@[simp] theorem ringBypassSpec_opcode : ringBypassSpec.opcode = 0x0A03 := rfl
@[simp] theorem ringTriggerSpec_opcode : ringTriggerSpec.opcode = 0x0A04 := rfl
@[simp] theorem sessionOpenSpec_opcode : sessionOpenSpec.opcode = 0x0B01 := rfl
@[simp] theorem sessionCloseSpec_opcode : sessionCloseSpec.opcode = 0x0B02 := rfl
@[simp] theorem rolePasswordSpec_opcode : rolePasswordSpec.opcode = 0x0B03 := rfl
@[simp] theorem makerChallengeSpec_opcode : makerChallengeSpec.opcode = 0x0B04 := rfl
@[simp] theorem hearthAssignSpec_opcode : hearthAssignSpec.opcode = 0x0B05 := rfl
@[simp] theorem hearthSharesSpec_opcode : hearthSharesSpec.opcode = 0x0B06 := rfl
@[simp] theorem chainGrantSpec_opcode : chainGrantSpec.opcode = 0x0B07 := rfl
@[simp] theorem hearthSealSpec_opcode : hearthSealSpec.opcode = 0x0B08 := rfl
@[simp] theorem hearthStatusSpec_opcode : hearthStatusSpec.opcode = 0x0B09 := rfl
@[simp] theorem clogReadSpec_opcode : clogReadSpec.opcode = 0x0B0A := rfl
@[simp] theorem clogArchiveSpec_opcode : clogArchiveSpec.opcode = 0x0B0B := rfl
@[simp] theorem safeConfigSpec_opcode : safeConfigSpec.opcode = 0x0C01 := rfl
@[simp] theorem safeConnSpec_opcode : safeConnSpec.opcode = 0x0C02 := rfl
@[simp] theorem safeArmSpec_opcode : safeArmSpec.opcode = 0x0C03 := rfl
@[simp] theorem safeStatusSpec_opcode : safeStatusSpec.opcode = 0x0C04 := rfl
@[simp] theorem tirwinPutSpec_opcode : tirwinPutSpec.opcode = 0x0C05 := rfl
@[simp] theorem faultConfigSpec_opcode : faultConfigSpec.opcode = 0x0D01 := rfl
@[simp] theorem faultReadSpec_opcode : faultReadSpec.opcode = 0x0D02 := rfl
@[simp] theorem faultClearSpec_opcode : faultClearSpec.opcode = 0x0D03 := rfl
@[simp] theorem faultInjectSpec_opcode : faultInjectSpec.opcode = 0x0D04 := rfl
@[simp] theorem evlogReadSpec_opcode : evlogReadSpec.opcode = 0x0D05 := rfl
@[simp] theorem devResetSpec_opcode : devResetSpec.opcode = 0x0E01 := rfl
@[simp] theorem ageReplanSpec_opcode : ageReplanSpec.opcode = 0x0E02 := rfl
@[simp] theorem ageStatusSpec_opcode : ageStatusSpec.opcode = 0x0E03 := rfl
@[simp] theorem agePlanReadSpec_opcode : agePlanReadSpec.opcode = 0x0E04 := rfl
@[simp] theorem ageApplySpec_opcode : ageApplySpec.opcode = 0x0E05 := rfl
@[simp] theorem psReadSpec_opcode : psReadSpec.opcode = 0x0F01 := rfl
@[simp] theorem psProgramSpec_opcode : psProgramSpec.opcode = 0x0F02 := rfl
@[simp] theorem psEraseSpec_opcode : psEraseSpec.opcode = 0x0F03 := rfl
@[simp] theorem psStatusSpec_opcode : psStatusSpec.opcode = 0x0F04 := rfl

/-- The opcodes of the command table in its order. -/
def tableOps : List Nat :=
  [0x0101, 0x0201, 0x0202, 0x0203, 0x0204, 0x0205, 0x0206, 0x0207, 0x0301, 0x0302, 0x0303, 0x0304] ++
  [0x0305, 0x0306, 0x0307, 0x0308, 0x0401, 0x0402, 0x0403, 0x0404, 0x0405, 0x0406, 0x0407, 0x0408] ++
  [0x0409, 0x0501, 0x0502, 0x0503, 0x0504, 0x0505, 0x0506, 0x0601, 0x0602, 0x0603, 0x0604, 0x0605] ++
  [0x0701, 0x0702, 0x0703, 0x0704, 0x0705, 0x0706, 0x0707, 0x0708, 0x0709, 0x070A, 0x0801, 0x0802] ++
  [0x0803, 0x0901, 0x0902, 0x0903, 0x0904, 0x0905, 0x0A01, 0x0A02, 0x0A03, 0x0A04, 0x0B01, 0x0B02] ++
  [0x0B03, 0x0B04, 0x0B05, 0x0B06, 0x0B07, 0x0B08, 0x0B09, 0x0B0A, 0x0B0B, 0x0C01, 0x0C02, 0x0C03] ++
  [0x0C04, 0x0C05, 0x0D01, 0x0D02, 0x0D03, 0x0D04, 0x0D05, 0x0E01, 0x0E02, 0x0E03, 0x0E04, 0x0E05] ++
  [0x0F01, 0x0F02, 0x0F03, 0x0F04]

theorem table_ops (r : Req) : (commandTable r).map (fun p => p.opcode) = tableOps := rfl

/-- The search for an opcode ends where the opcodes have it first. -/
theorem find_at : ∀ (l : List CmdSpec) (o k : Nat) (p : CmdSpec), (l.map (fun q => q.opcode)).findIdx? (fun x => x == o) = some k →
    l[k]? = some p → l.find? (fun q => decide (q.opcode = o)) = some p
  | [], _, _, _, h, _ => by simp at h
  | q :: l, o, k, p, h, hp => by
    simp only [List.map_cons, List.findIdx?_cons] at h
    by_cases hq : q.opcode = o
    · simp only [hq, beq_self_eq_true, if_true, Option.some.injEq] at h
      subst h
      simp only [List.getElem?_cons_zero, Option.some.injEq] at hp
      subst hp
      exact List.find?_cons_of_pos (by simpa using hq)
    · rw [if_neg (by simpa using hq)] at h
      obtain ⟨j, hj, rfl⟩ := Option.map_eq_some_iff.1 h
      rw [List.find?_cons_of_neg (by simpa using hq)]
      exact find_at l o j p hj (by simpa using hp)

/-- The command of an opcode, by its place in the table. -/
theorem specOf_at {r : Req} {o k : Nat} {p : CmdSpec} (h : r.opcode = o) (hk : tableOps.findIdx? (fun x => x == o) = some k)
    (hp : (commandTable r)[k]? = some p) : specOf r = some p := by
  unfold specOf
  rw [h]
  exact find_at _ _ k p (by rw [table_ops]; exact hk) hp

/-- The command table as one list. -/
theorem commandTable_flat (r : Req) : commandTable r =
    [devIdentifySpec, feConfigSpec, feGroupConfigSpec, feStatusSpec, feClearCountsSpec, coreStatusSpec,
    coreClearCountsSpec, tileModeSpec, seqSlotsSpec, seqCommitSpec, seqArmSpec, seqTriggerSpec,
    seqStatusSpec, tcConfigSpec, tcResetSpec, tcStatusSpec, filtConfigSpec, filtCoefSpec,
    filtAdmitSpec, filtStatusSpec, filtSwapSpec, filtPresetSpec, filtDcbSpec, filtDcbReadSpec,
    filtSyncSpec r, calConfigSpec, calRunSpec, calStatusSpec, calRowBurnSpec, calRowReadSpec,
    calSubstSpec, forceConfigSpec, forceTargetSpec, forceRestartSpec, forceStatusSpec, forceLoopbackSpec,
    stoveLoadSpec, lawConfigSpec, stoveBindSpec, stoveConfigSpec, stoveCtrlSpec, stoveStatusSpec,
    loopConfigSpec, loopModeSpec, loopSetSpec, loopStatusSpec, meterPairSpec, meterCtrlSpec,
    meterReadSpec, queueCreateSpec, queueDestroySpec, queueBindSpec, queueStatusSpec, lmapInvalSpec,
    ringConfigSpec, ringStatusSpec, ringBypassSpec, ringTriggerSpec, sessionOpenSpec, sessionCloseSpec,
    rolePasswordSpec, makerChallengeSpec, hearthAssignSpec, hearthSharesSpec, chainGrantSpec, hearthSealSpec,
    hearthStatusSpec, clogReadSpec, clogArchiveSpec, safeConfigSpec, safeConnSpec, safeArmSpec,
    safeStatusSpec, tirwinPutSpec, faultConfigSpec, faultReadSpec, faultClearSpec, faultInjectSpec,
    evlogReadSpec, devResetSpec, ageReplanSpec, ageStatusSpec, agePlanReadSpec, ageApplySpec,
    psReadSpec, psProgramSpec, psEraseSpec, psStatusSpec] := rfl

theorem specOf_devIdentifySpec {r : Req} (h : r.opcode = 0x0101) : specOf r = some devIdentifySpec :=
  specOf_at (k := 0) h (by decide) (by rw [commandTable_flat]; rfl)
theorem specOf_feConfigSpec {r : Req} (h : r.opcode = 0x0201) : specOf r = some feConfigSpec :=
  specOf_at (k := 1) h (by decide) (by rw [commandTable_flat]; rfl)
theorem specOf_feGroupConfigSpec {r : Req} (h : r.opcode = 0x0202) : specOf r = some feGroupConfigSpec :=
  specOf_at (k := 2) h (by decide) (by rw [commandTable_flat]; rfl)
theorem specOf_feStatusSpec {r : Req} (h : r.opcode = 0x0203) : specOf r = some feStatusSpec :=
  specOf_at (k := 3) h (by decide) (by rw [commandTable_flat]; rfl)
theorem specOf_feClearCountsSpec {r : Req} (h : r.opcode = 0x0204) : specOf r = some feClearCountsSpec :=
  specOf_at (k := 4) h (by decide) (by rw [commandTable_flat]; rfl)
theorem specOf_coreStatusSpec {r : Req} (h : r.opcode = 0x0205) : specOf r = some coreStatusSpec :=
  specOf_at (k := 5) h (by decide) (by rw [commandTable_flat]; rfl)
theorem specOf_coreClearCountsSpec {r : Req} (h : r.opcode = 0x0206) : specOf r = some coreClearCountsSpec :=
  specOf_at (k := 6) h (by decide) (by rw [commandTable_flat]; rfl)
theorem specOf_tileModeSpec {r : Req} (h : r.opcode = 0x0207) : specOf r = some tileModeSpec :=
  specOf_at (k := 7) h (by decide) (by rw [commandTable_flat]; rfl)
theorem specOf_seqSlotsSpec {r : Req} (h : r.opcode = 0x0301) : specOf r = some seqSlotsSpec :=
  specOf_at (k := 8) h (by decide) (by rw [commandTable_flat]; rfl)
theorem specOf_seqCommitSpec {r : Req} (h : r.opcode = 0x0302) : specOf r = some seqCommitSpec :=
  specOf_at (k := 9) h (by decide) (by rw [commandTable_flat]; rfl)
theorem specOf_seqArmSpec {r : Req} (h : r.opcode = 0x0303) : specOf r = some seqArmSpec :=
  specOf_at (k := 10) h (by decide) (by rw [commandTable_flat]; rfl)
theorem specOf_seqTriggerSpec {r : Req} (h : r.opcode = 0x0304) : specOf r = some seqTriggerSpec :=
  specOf_at (k := 11) h (by decide) (by rw [commandTable_flat]; rfl)
theorem specOf_seqStatusSpec {r : Req} (h : r.opcode = 0x0305) : specOf r = some seqStatusSpec :=
  specOf_at (k := 12) h (by decide) (by rw [commandTable_flat]; rfl)
theorem specOf_tcConfigSpec {r : Req} (h : r.opcode = 0x0306) : specOf r = some tcConfigSpec :=
  specOf_at (k := 13) h (by decide) (by rw [commandTable_flat]; rfl)
theorem specOf_tcResetSpec {r : Req} (h : r.opcode = 0x0307) : specOf r = some tcResetSpec :=
  specOf_at (k := 14) h (by decide) (by rw [commandTable_flat]; rfl)
theorem specOf_tcStatusSpec {r : Req} (h : r.opcode = 0x0308) : specOf r = some tcStatusSpec :=
  specOf_at (k := 15) h (by decide) (by rw [commandTable_flat]; rfl)
theorem specOf_filtConfigSpec {r : Req} (h : r.opcode = 0x0401) : specOf r = some filtConfigSpec :=
  specOf_at (k := 16) h (by decide) (by rw [commandTable_flat]; rfl)
theorem specOf_filtCoefSpec {r : Req} (h : r.opcode = 0x0402) : specOf r = some filtCoefSpec :=
  specOf_at (k := 17) h (by decide) (by rw [commandTable_flat]; rfl)
theorem specOf_filtAdmitSpec {r : Req} (h : r.opcode = 0x0403) : specOf r = some filtAdmitSpec :=
  specOf_at (k := 18) h (by decide) (by rw [commandTable_flat]; rfl)
theorem specOf_filtStatusSpec {r : Req} (h : r.opcode = 0x0404) : specOf r = some filtStatusSpec :=
  specOf_at (k := 19) h (by decide) (by rw [commandTable_flat]; rfl)
theorem specOf_filtSwapSpec {r : Req} (h : r.opcode = 0x0405) : specOf r = some filtSwapSpec :=
  specOf_at (k := 20) h (by decide) (by rw [commandTable_flat]; rfl)
theorem specOf_filtPresetSpec {r : Req} (h : r.opcode = 0x0406) : specOf r = some filtPresetSpec :=
  specOf_at (k := 21) h (by decide) (by rw [commandTable_flat]; rfl)
theorem specOf_filtDcbSpec {r : Req} (h : r.opcode = 0x0407) : specOf r = some filtDcbSpec :=
  specOf_at (k := 22) h (by decide) (by rw [commandTable_flat]; rfl)
theorem specOf_filtDcbReadSpec {r : Req} (h : r.opcode = 0x0408) : specOf r = some filtDcbReadSpec :=
  specOf_at (k := 23) h (by decide) (by rw [commandTable_flat]; rfl)
theorem specOf_filtSyncSpec {r : Req} (h : r.opcode = 0x0409) : specOf r = some (filtSyncSpec r) :=
  specOf_at (k := 24) h (by decide) (by rw [commandTable_flat]; rfl)
theorem specOf_calConfigSpec {r : Req} (h : r.opcode = 0x0501) : specOf r = some calConfigSpec :=
  specOf_at (k := 25) h (by decide) (by rw [commandTable_flat]; rfl)
theorem specOf_calRunSpec {r : Req} (h : r.opcode = 0x0502) : specOf r = some calRunSpec :=
  specOf_at (k := 26) h (by decide) (by rw [commandTable_flat]; rfl)
theorem specOf_calStatusSpec {r : Req} (h : r.opcode = 0x0503) : specOf r = some calStatusSpec :=
  specOf_at (k := 27) h (by decide) (by rw [commandTable_flat]; rfl)
theorem specOf_calRowBurnSpec {r : Req} (h : r.opcode = 0x0504) : specOf r = some calRowBurnSpec :=
  specOf_at (k := 28) h (by decide) (by rw [commandTable_flat]; rfl)
theorem specOf_calRowReadSpec {r : Req} (h : r.opcode = 0x0505) : specOf r = some calRowReadSpec :=
  specOf_at (k := 29) h (by decide) (by rw [commandTable_flat]; rfl)
theorem specOf_calSubstSpec {r : Req} (h : r.opcode = 0x0506) : specOf r = some calSubstSpec :=
  specOf_at (k := 30) h (by decide) (by rw [commandTable_flat]; rfl)
theorem specOf_forceConfigSpec {r : Req} (h : r.opcode = 0x0601) : specOf r = some forceConfigSpec :=
  specOf_at (k := 31) h (by decide) (by rw [commandTable_flat]; rfl)
theorem specOf_forceTargetSpec {r : Req} (h : r.opcode = 0x0602) : specOf r = some forceTargetSpec :=
  specOf_at (k := 32) h (by decide) (by rw [commandTable_flat]; rfl)
theorem specOf_forceRestartSpec {r : Req} (h : r.opcode = 0x0603) : specOf r = some forceRestartSpec :=
  specOf_at (k := 33) h (by decide) (by rw [commandTable_flat]; rfl)
theorem specOf_forceStatusSpec {r : Req} (h : r.opcode = 0x0604) : specOf r = some forceStatusSpec :=
  specOf_at (k := 34) h (by decide) (by rw [commandTable_flat]; rfl)
theorem specOf_forceLoopbackSpec {r : Req} (h : r.opcode = 0x0605) : specOf r = some forceLoopbackSpec :=
  specOf_at (k := 35) h (by decide) (by rw [commandTable_flat]; rfl)
theorem specOf_stoveLoadSpec {r : Req} (h : r.opcode = 0x0701) : specOf r = some stoveLoadSpec :=
  specOf_at (k := 36) h (by decide) (by rw [commandTable_flat]; rfl)
theorem specOf_lawConfigSpec {r : Req} (h : r.opcode = 0x0702) : specOf r = some lawConfigSpec :=
  specOf_at (k := 37) h (by decide) (by rw [commandTable_flat]; rfl)
theorem specOf_stoveBindSpec {r : Req} (h : r.opcode = 0x0703) : specOf r = some stoveBindSpec :=
  specOf_at (k := 38) h (by decide) (by rw [commandTable_flat]; rfl)
theorem specOf_stoveConfigSpec {r : Req} (h : r.opcode = 0x0704) : specOf r = some stoveConfigSpec :=
  specOf_at (k := 39) h (by decide) (by rw [commandTable_flat]; rfl)
theorem specOf_stoveCtrlSpec {r : Req} (h : r.opcode = 0x0705) : specOf r = some stoveCtrlSpec :=
  specOf_at (k := 40) h (by decide) (by rw [commandTable_flat]; rfl)
theorem specOf_stoveStatusSpec {r : Req} (h : r.opcode = 0x0706) : specOf r = some stoveStatusSpec :=
  specOf_at (k := 41) h (by decide) (by rw [commandTable_flat]; rfl)
theorem specOf_loopConfigSpec {r : Req} (h : r.opcode = 0x0707) : specOf r = some loopConfigSpec :=
  specOf_at (k := 42) h (by decide) (by rw [commandTable_flat]; rfl)
theorem specOf_loopModeSpec {r : Req} (h : r.opcode = 0x0708) : specOf r = some loopModeSpec :=
  specOf_at (k := 43) h (by decide) (by rw [commandTable_flat]; rfl)
theorem specOf_loopSetSpec {r : Req} (h : r.opcode = 0x0709) : specOf r = some loopSetSpec :=
  specOf_at (k := 44) h (by decide) (by rw [commandTable_flat]; rfl)
theorem specOf_loopStatusSpec {r : Req} (h : r.opcode = 0x070A) : specOf r = some loopStatusSpec :=
  specOf_at (k := 45) h (by decide) (by rw [commandTable_flat]; rfl)
theorem specOf_meterPairSpec {r : Req} (h : r.opcode = 0x0801) : specOf r = some meterPairSpec :=
  specOf_at (k := 46) h (by decide) (by rw [commandTable_flat]; rfl)
theorem specOf_meterCtrlSpec {r : Req} (h : r.opcode = 0x0802) : specOf r = some meterCtrlSpec :=
  specOf_at (k := 47) h (by decide) (by rw [commandTable_flat]; rfl)
theorem specOf_meterReadSpec {r : Req} (h : r.opcode = 0x0803) : specOf r = some meterReadSpec :=
  specOf_at (k := 48) h (by decide) (by rw [commandTable_flat]; rfl)
theorem specOf_queueCreateSpec {r : Req} (h : r.opcode = 0x0901) : specOf r = some queueCreateSpec :=
  specOf_at (k := 49) h (by decide) (by rw [commandTable_flat]; rfl)
theorem specOf_queueDestroySpec {r : Req} (h : r.opcode = 0x0902) : specOf r = some queueDestroySpec :=
  specOf_at (k := 50) h (by decide) (by rw [commandTable_flat]; rfl)
theorem specOf_queueBindSpec {r : Req} (h : r.opcode = 0x0903) : specOf r = some queueBindSpec :=
  specOf_at (k := 51) h (by decide) (by rw [commandTable_flat]; rfl)
theorem specOf_queueStatusSpec {r : Req} (h : r.opcode = 0x0904) : specOf r = some queueStatusSpec :=
  specOf_at (k := 52) h (by decide) (by rw [commandTable_flat]; rfl)
theorem specOf_lmapInvalSpec {r : Req} (h : r.opcode = 0x0905) : specOf r = some lmapInvalSpec :=
  specOf_at (k := 53) h (by decide) (by rw [commandTable_flat]; rfl)
theorem specOf_ringConfigSpec {r : Req} (h : r.opcode = 0x0A01) : specOf r = some ringConfigSpec :=
  specOf_at (k := 54) h (by decide) (by rw [commandTable_flat]; rfl)
theorem specOf_ringStatusSpec {r : Req} (h : r.opcode = 0x0A02) : specOf r = some ringStatusSpec :=
  specOf_at (k := 55) h (by decide) (by rw [commandTable_flat]; rfl)
theorem specOf_ringBypassSpec {r : Req} (h : r.opcode = 0x0A03) : specOf r = some ringBypassSpec :=
  specOf_at (k := 56) h (by decide) (by rw [commandTable_flat]; rfl)
theorem specOf_ringTriggerSpec {r : Req} (h : r.opcode = 0x0A04) : specOf r = some ringTriggerSpec :=
  specOf_at (k := 57) h (by decide) (by rw [commandTable_flat]; rfl)
theorem specOf_sessionOpenSpec {r : Req} (h : r.opcode = 0x0B01) : specOf r = some sessionOpenSpec :=
  specOf_at (k := 58) h (by decide) (by rw [commandTable_flat]; rfl)
theorem specOf_sessionCloseSpec {r : Req} (h : r.opcode = 0x0B02) : specOf r = some sessionCloseSpec :=
  specOf_at (k := 59) h (by decide) (by rw [commandTable_flat]; rfl)
theorem specOf_rolePasswordSpec {r : Req} (h : r.opcode = 0x0B03) : specOf r = some rolePasswordSpec :=
  specOf_at (k := 60) h (by decide) (by rw [commandTable_flat]; rfl)
theorem specOf_makerChallengeSpec {r : Req} (h : r.opcode = 0x0B04) : specOf r = some makerChallengeSpec :=
  specOf_at (k := 61) h (by decide) (by rw [commandTable_flat]; rfl)
theorem specOf_hearthAssignSpec {r : Req} (h : r.opcode = 0x0B05) : specOf r = some hearthAssignSpec :=
  specOf_at (k := 62) h (by decide) (by rw [commandTable_flat]; rfl)
theorem specOf_hearthSharesSpec {r : Req} (h : r.opcode = 0x0B06) : specOf r = some hearthSharesSpec :=
  specOf_at (k := 63) h (by decide) (by rw [commandTable_flat]; rfl)
theorem specOf_chainGrantSpec {r : Req} (h : r.opcode = 0x0B07) : specOf r = some chainGrantSpec :=
  specOf_at (k := 64) h (by decide) (by rw [commandTable_flat]; rfl)
theorem specOf_hearthSealSpec {r : Req} (h : r.opcode = 0x0B08) : specOf r = some hearthSealSpec :=
  specOf_at (k := 65) h (by decide) (by rw [commandTable_flat]; rfl)
theorem specOf_hearthStatusSpec {r : Req} (h : r.opcode = 0x0B09) : specOf r = some hearthStatusSpec :=
  specOf_at (k := 66) h (by decide) (by rw [commandTable_flat]; rfl)
theorem specOf_clogReadSpec {r : Req} (h : r.opcode = 0x0B0A) : specOf r = some clogReadSpec :=
  specOf_at (k := 67) h (by decide) (by rw [commandTable_flat]; rfl)
theorem specOf_clogArchiveSpec {r : Req} (h : r.opcode = 0x0B0B) : specOf r = some clogArchiveSpec :=
  specOf_at (k := 68) h (by decide) (by rw [commandTable_flat]; rfl)
theorem specOf_safeConfigSpec {r : Req} (h : r.opcode = 0x0C01) : specOf r = some safeConfigSpec :=
  specOf_at (k := 69) h (by decide) (by rw [commandTable_flat]; rfl)
theorem specOf_safeConnSpec {r : Req} (h : r.opcode = 0x0C02) : specOf r = some safeConnSpec :=
  specOf_at (k := 70) h (by decide) (by rw [commandTable_flat]; rfl)
theorem specOf_safeArmSpec {r : Req} (h : r.opcode = 0x0C03) : specOf r = some safeArmSpec :=
  specOf_at (k := 71) h (by decide) (by rw [commandTable_flat]; rfl)
theorem specOf_safeStatusSpec {r : Req} (h : r.opcode = 0x0C04) : specOf r = some safeStatusSpec :=
  specOf_at (k := 72) h (by decide) (by rw [commandTable_flat]; rfl)
theorem specOf_tirwinPutSpec {r : Req} (h : r.opcode = 0x0C05) : specOf r = some tirwinPutSpec :=
  specOf_at (k := 73) h (by decide) (by rw [commandTable_flat]; rfl)
theorem specOf_faultConfigSpec {r : Req} (h : r.opcode = 0x0D01) : specOf r = some faultConfigSpec :=
  specOf_at (k := 74) h (by decide) (by rw [commandTable_flat]; rfl)
theorem specOf_faultReadSpec {r : Req} (h : r.opcode = 0x0D02) : specOf r = some faultReadSpec :=
  specOf_at (k := 75) h (by decide) (by rw [commandTable_flat]; rfl)
theorem specOf_faultClearSpec {r : Req} (h : r.opcode = 0x0D03) : specOf r = some faultClearSpec :=
  specOf_at (k := 76) h (by decide) (by rw [commandTable_flat]; rfl)
theorem specOf_faultInjectSpec {r : Req} (h : r.opcode = 0x0D04) : specOf r = some faultInjectSpec :=
  specOf_at (k := 77) h (by decide) (by rw [commandTable_flat]; rfl)
theorem specOf_evlogReadSpec {r : Req} (h : r.opcode = 0x0D05) : specOf r = some evlogReadSpec :=
  specOf_at (k := 78) h (by decide) (by rw [commandTable_flat]; rfl)
theorem specOf_devResetSpec {r : Req} (h : r.opcode = 0x0E01) : specOf r = some devResetSpec :=
  specOf_at (k := 79) h (by decide) (by rw [commandTable_flat]; rfl)
theorem specOf_ageReplanSpec {r : Req} (h : r.opcode = 0x0E02) : specOf r = some ageReplanSpec :=
  specOf_at (k := 80) h (by decide) (by rw [commandTable_flat]; rfl)
theorem specOf_ageStatusSpec {r : Req} (h : r.opcode = 0x0E03) : specOf r = some ageStatusSpec :=
  specOf_at (k := 81) h (by decide) (by rw [commandTable_flat]; rfl)
theorem specOf_agePlanReadSpec {r : Req} (h : r.opcode = 0x0E04) : specOf r = some agePlanReadSpec :=
  specOf_at (k := 82) h (by decide) (by rw [commandTable_flat]; rfl)
theorem specOf_ageApplySpec {r : Req} (h : r.opcode = 0x0E05) : specOf r = some ageApplySpec :=
  specOf_at (k := 83) h (by decide) (by rw [commandTable_flat]; rfl)
theorem specOf_psReadSpec {r : Req} (h : r.opcode = 0x0F01) : specOf r = some psReadSpec :=
  specOf_at (k := 84) h (by decide) (by rw [commandTable_flat]; rfl)
theorem specOf_psProgramSpec {r : Req} (h : r.opcode = 0x0F02) : specOf r = some psProgramSpec :=
  specOf_at (k := 85) h (by decide) (by rw [commandTable_flat]; rfl)
theorem specOf_psEraseSpec {r : Req} (h : r.opcode = 0x0F03) : specOf r = some psEraseSpec :=
  specOf_at (k := 86) h (by decide) (by rw [commandTable_flat]; rfl)
theorem specOf_psStatusSpec {r : Req} (h : r.opcode = 0x0F04) : specOf r = some psStatusSpec :=
  specOf_at (k := 87) h (by decide) (by rw [commandTable_flat]; rfl)

end Sys2Proof.Machine
end

