-- ==== Sys2Proof/Laws/Commands.lean ====
section
/-! SUPPORT. What running a host command can do, said once: an admitted command is accepted, at once or behind its entry. -/

set_option Elab.async false

namespace Sys2Proof.Machine

/-- No condition that could refuse holds: then none of a part of them does. -/
theorem pickStatus_none {l : List (Bool × Status)} : pickStatus l = none ↔ ∀ c ∈ l, c.1 = false := by
  induction l with
  | nil => simp [pickStatus]
  | cons c t ih =>
    obtain ⟨b, x⟩ := c
    cases b with
    | false => simp [pickStatus, ih]
    | true =>
      simp only [pickStatus, List.mem_cons, forall_eq_or_imp]
      cases h : pickStatus t with
      | none => simp
      | some y => simp only [Bool.true_eq_false, false_and, iff_false]; split <;> simp

theorem pickStatus_filter_none {l : List (Bool × Status)} (p : Bool × Status → Bool) (h : pickStatus l = none) :
    pickStatus (l.filter p) = none :=
  pickStatus_none.2 (fun c hc => pickStatus_none.1 h c (List.mem_filter.1 hc).1)

/-- The request of a command is held back by one in hand (R390). -/
def CmdSpec.held (p : CmdSpec) (r : Req) (s : State) : Bool :=
  decide (p.opcode = r.opcode) &&
    (((r.origin = .ring && s.host.waiting.any (fun e => e.1.origin = .ring && e.1.qid = r.qid))
      || (if r.u 4 0 6 = 0 || r.origin ≠ .ring then p.names r else queueNames p r).any (fun n => s.namesInHand.contains n))
      || (r.b 6 0 && s.queueInHand r.qid) || decide (16 ≤ s.clog.staging.length))

/-- What running does with a request that is checked: `u` is the state of its checks. -/
def CmdSpec.checked (p : CmdSpec) (r : Req) (u : State) : State :=
  let w := (u.who r).getD { right := 0, sess := 0, serial := 0 }
  if u.isManager && r.origin = .ring && r.u 4 0 6 ≠ 0 && p.node = .forward then u.forward p r w
  else
    let checks := u.headerRefusals p r ++ p.refuse r w.right u
    match pickStatus (checks.filter (fun c => c.2 = .badParam)) with
    | some x => u.finish r x 0
    | none =>
      match u.mapData r (p.data r u) with
      | (s, false) => s.finish r .badParam 0
      | (s, true) =>
        match pickStatus checks with
        | some x => (p.refused r x s).finish r x 0
        | none => p.accept r w s

/-- The three ways of running a command. -/
theorem run_eq (p : CmdSpec) (r : Req) (s : State) (hc : s.claim r = r) :
    p.run r s = if s.node.inReset || (s.isWorker && r.origin = .ring) || s.outOfTurn r then s
      else if p.held r s then
        let t : State := { s with host := { s.host with fetched := s.host.fetched.erase (r.qid, r.entry) } }
        let t := if s.host.fetched.contains (r.qid, r.entry) || r.origin ≠ .ring then t else t.holdRights r
        { t with host := { t.host with
          waiting := t.host.waiting ++ [(r, if r.u 4 0 6 = 0 || r.origin ≠ .ring then p.names r else queueNames p r)] } }
      else p.checked r (s.taken r) := by
  unfold CmdSpec.run
  rw [hc]
  rfl

/-- A request that starts is checked. -/
theorem run_of_starts {p : CmdSpec} {r : Req} {s : State} (h : p.starts r s = true) : p.run r s = p.checked r (s.taken r) := by
  simp only [CmdSpec.starts, Bool.and_eq_true, Bool.not_eq_true', decide_eq_true_eq] at h
  obtain ⟨⟨⟨⟨⟨⟨⟨⟨⟨h1, h2⟩, h8⟩, hc⟩, -⟩, h4⟩, h5⟩, h6⟩, h7⟩, -⟩ := h
  have hh : p.held r s = false := by
    unfold CmdSpec.held
    rw [h4, h5, h6]
    simp only [Bool.or_self, Bool.false_or, Bool.and_eq_false_iff, decide_eq_false_iff_not]
    omega
  rw [run_eq p r s hc, if_neg (by rw [h1, h2, h8]; decide), if_neg (by rw [hh]; decide)]

/-- Running an admitted command is accepting it. -/
theorem run_of_admits {p : CmdSpec} {r : Req} {s t : State} {w : Who} (h : p.admits r s = some (w, t)) : p.run r s = p.accept r w t := by
  unfold CmdSpec.admits at h
  split at h
  · cases h
  · rename_i hs
    have hst : p.starts r s = true := by simpa using hs
    rw [run_of_starts hst]
    generalize hu : s.taken r = u at h
    have hm8 : (u.isManager && decide (r.origin = .ring) && decide (r.u 4 0 6 ≠ 0) && decide (p.node = .forward)) = false := by
      subst hu
      simp only [CmdSpec.starts, Bool.and_eq_true, Bool.not_eq_true'] at hst
      exact hst.2
    split at h
    · rename_i w' v hw hp hm
      obtain ⟨rfl, rfl⟩ : w' = w ∧ v = t := by simpa using h
      simp only [CmdSpec.checks, hu, hw, Option.getD_some] at hp
      unfold CmdSpec.checked
      rw [if_neg (by rw [hm8]; decide)]
      simp only [hw, Option.getD_some, pickStatus_filter_none _ hp, hm, hp]
    · cases h

/-- A command that acts at once is performed on the state it is admitted with. -/
theorem run_of_actsNow {p : CmdSpec} {r : Req} {s t : State} (h : p.actsNow r s = some t) : p.run r s = p.perform r t := by
  unfold CmdSpec.actsNow at h
  split at h
  · rename_i w u ha
    rw [run_of_admits ha]
    split at h
    · rename_i hc
      cases h
      simp only [CmdSpec.logs, CmdSpec.room, Bool.or_eq_true, Bool.and_eq_true, Bool.not_eq_true', decide_eq_true_eq, Bool.or_eq_false_iff,
        decide_eq_false_iff_not, not_not] at hc
      unfold CmdSpec.accept
      obtain ⟨h1, h2⟩ | ⟨h1, h2⟩ := hc
      · rw [if_pos (by simp_all)]
      · split
        · rfl
        · split
          · rename_i hf
            exfalso
            simp only [Bool.or_eq_true, Bool.and_eq_true, decide_eq_true_eq] at hf
            split at h2
            · simp only [decide_eq_true_eq] at h2; omega
            · split at h2
              · simp only [Bool.or_eq_true, decide_eq_true_eq] at h2
                rcases hf with hf | hf
                · omega
                · rcases h2 with h2 | h2
                  · omega
                  · exact absurd h2 (by simpa using hf.2)
              · rcases hf with hf | hf <;> omega
          · rw [if_pos (by simpa using h1)]
    · cases h
  · cases h

/-- A command that must be entered first is staged. -/
theorem run_of_actsLogged {p : CmdSpec} {r : Req} {s t : State} {e : ClogStaged} (h : p.actsLogged r s = some (e, t)) :
    p.run r s = t.stage e ∧ e.why = .command r ∧ t.clog.staging = [] ∧ t.logs.bank1 = [] ∧ t.node.pfStage = .none := by
  unfold CmdSpec.actsLogged at h
  split at h
  · rename_i w u ha
    rw [run_of_admits ha]
    split at h
    · rename_i hc
      obtain ⟨rfl, rfl⟩ : u.clogEntry r w .ok p (.command r) = e ∧ u = t := by simpa using h
      simp only [CmdSpec.logs, CmdSpec.room, Bool.or_eq_true, Bool.and_eq_true, Bool.not_eq_true', decide_eq_true_eq, List.isEmpty_iff,
        decide_not] at hc
      obtain ⟨⟨⟨⟨⟨⟨h1, h2⟩, h3⟩, h4⟩, h5⟩, h7⟩, h6⟩ := hc
      refine ⟨?_, rfl, h5, h7, h6⟩
      have h4' : p.opcode ≠ 0x0B0B := by simpa using h4
      unfold CmdSpec.accept
      rw [if_neg (by rcases h1 with h1 | h1 <;> simp_all)]
      rw [if_neg]
      · rw [if_neg (by simp [h3, h4'])]
        rw [if_neg]
        intro hf
        simp only [Bool.and_eq_true, decide_eq_true_eq] at hf
        obtain ⟨hf, h0⟩ := hf
        rw [if_neg (by omega), if_neg (by omega)] at h2
        simp only [decide_eq_true_eq] at h2
        omega
      · intro hf
        simp only [Bool.or_eq_true, Bool.and_eq_true, decide_eq_true_eq] at hf
        rcases hf with hf | hf
        · rw [if_pos hf.1] at h2; simp only [decide_eq_true_eq] at h2; omega
        · rw [if_neg (by omega), if_pos hf.1.1] at h2
          simp only [Bool.or_eq_true, decide_eq_true_eq] at h2
          rcases h2 with h2 | h2
          · omega
          · exact h4' h2
    · cases h
  · cases h

/-- A command that starts carries its own opcode. -/
theorem opcode_of_actsLogged {p : CmdSpec} {r : Req} {s t : State} {e : ClogStaged} (h : p.actsLogged r s = some (e, t)) :
    r.opcode = p.opcode := by
  unfold CmdSpec.actsLogged at h
  cases ha : p.admits r s with
  | none => rw [ha] at h; cases h
  | some x =>
    by_cases hs : p.starts r s = true
    · simp only [CmdSpec.starts, Bool.and_eq_true, decide_eq_true_eq] at hs
      exact hs.1.1.1.1.1.2
    · unfold CmdSpec.admits at ha
      rw [if_pos (by simpa using hs)] at ha
      cases ha

theorem inReset_of_starts {p : CmdSpec} {r : Req} {s : State} (h : p.starts r s = true) : s.node.inReset = false := by
  simp only [CmdSpec.starts, Bool.and_eq_true, Bool.not_eq_true'] at h
  exact h.1.1.1.1.1.1.1.1.1

/-- Translating command data changes nothing of the node. -/
theorem tlbInsert_node (s : State) (t : TlbEntry) : (s.tlbInsert t).node = s.node := by simp only [State.tlbInsert]
theorem translateAll_node {s t : State} {cells : List Host.Cell} {fn : Nat} {wr : Bool} {l : List Nat} {x : Option (Nat × Nat)}
    (h : s.translateAll cells fn wr l = (t, x)) : t.node = s.node := by
  induction l generalizing s with
  | nil => cases h; rfl
  | cons a l ih =>
    unfold State.translateAll at h
    split at h
    · cases h; rfl
    · exact (ih h).trans (tlbInsert_node s _)
theorem mapData_node {s t : State} {r : Req} {l : List DataRange} (h : s.mapData r l = (t, true)) : t.node = s.node := by
  induction l generalizing s with
  | nil => cases h; rfl
  | cons d l ih =>
    unfold State.mapData at h
    split at h
    · cases h
    · split at h
      · exact ih h
      · split at h
        · cases h
        · rename_i u hu
          split at h
          · cases h
          · have := ih h
            have hn := translateAll_node hu
            split at this <;> exact this.trans (show u.node = s.node from hn)

theorem admits_reset {p : CmdSpec} {r : Req} {s t : State} {w : Who} (h : p.admits r s = some (w, t)) : t.node.inReset = false := by
  unfold CmdSpec.admits at h
  split at h
  · cases h
  · rename_i hs
    split at h
    · rename_i hm
      obtain ⟨-, rfl⟩ : _ ∧ _ := by simpa using h
      rw [mapData_node hm]
      show s.node.inReset = false
      exact inReset_of_starts (p := p) (r := r) (by simpa using hs)
    · cases h

/-- The entry of a staged command is programmed: the command is performed with its entry in the log. -/
theorem entryDone_of_actsLogged {p : CmdSpec} {r : Req} {s t : State} {e : ClogStaged} (hs : specOf r = some p)
    (h : p.actsLogged r s = some (e, t)) :
    exec (.changeLogEntryDone true) (t.stage e) = .next (p.perform r (t.clogAppend e)) := by
  obtain ⟨-, hw, hst, hb, hpf⟩ := run_of_actsLogged h
  have hr : t.node.inReset = false := by
    unfold CmdSpec.actsLogged at h
    split at h
    · rename_i ha
      split at h
      · obtain ⟨-, rfl⟩ : _ ∧ _ := by simpa using h
        exact admits_reset ha
      · cases h
    · cases h
  have hc : (t.stage e).clog.staging = [e] := by simp [State.stage, hst]
  have hback : { t.stage e with
      clog := { (t.stage e).clog with staging := [] }, logs := (t.stage e).logs.took 1 } = t := by
    have h1 : t.clog = { t.clog with staging := [] } := by rw [← hst]
    have h2 : ({ t.logs with bank1 := t.logs.bank1 ++ [1] } : Logs).took 1 = t.logs := by
      simp only [Logs.took, hb]
      rw [show ([] ++ [1] : List Nat).erase 1 = [] by decide, ← hb]
    simp only [State.stage, h2]
    rw [← h1]
  show execChangeLogEntryDone true (t.stage e) = _
  unfold execChangeLogEntryDone
  simp only [hc]
  rw [if_neg (by simp [State.stage, Logs.turn, hr, hb, hpf])]
  simp only [if_true, hback, hw, State.afterEntry, hs]

/-- What a command's action leaves is what the block answers, at once or behind its entry. -/
theorem does_of_perform {p : CmdSpec} {i : Instr} {r : Req} {s : State} {eff : State → State} (hi : exec i s = .next (p.run r s))
    (hs : r.opcode = p.opcode → specOf r = some p) (he : ∀ u, p.perform r u = eff u) : p.Does i r s eff := by
  constructor
  · intro t ht
    rw [hi, run_of_actsNow ht, he]
  · intro e t ht
    refine ⟨by rw [hi, (run_of_actsLogged ht).1], ?_⟩
    rw [entryDone_of_actsLogged (hs (opcode_of_actsLogged ht)) ht, he]

end Sys2Proof.Machine
end

