-- ==== Sys2Proof/Laws/State.lean ====
section
/-! SUPPORT. What the named updates of the state leave: one lemma per field per update, true by rfl; the entries of a table after a write;
the byte memories after a write, and that every memory operation keeps their canonical form. -/

set_option Elab.async false

namespace Sys2Proof.Machine

/-! ### Tables -/

@[simp] theorem tget_tset_same {α : Type} (d : α) (t : Tab α) (k : Nat) (v : α) : tget d (tset t k v) k = v := by
  induction t with
  | nil => simp [tset, tget]
  | cons e t ih =>
    obtain ⟨j, w⟩ := e
    simp only [tset]
    split
    · simp [tget]
    · split
      · simp [tget]
      · rename_i h _; simp [tget, h, ih]

theorem tget_tset_ne {α : Type} (d : α) (t : Tab α) {k i : Nat} (v : α) (h : i ≠ k) : tget d (tset t k v) i = tget d t i := by
  induction t with
  | nil => simp [tset, tget, h]
  | cons e t ih =>
    obtain ⟨j, w⟩ := e
    simp only [tset]
    split
    · rename_i hk; subst hk; simp [tget, h]
    · split
      · simp [tget, h]
      · simp only [tget, ih]

@[simp] theorem tget_tmod_same {α : Type} (d : α) (t : Tab α) (k : Nat) (f : α → α) : tget d (tmod d t k f) k = f (tget d t k) :=
  tget_tset_same d t k _

theorem tget_tmod_ne {α : Type} (d : α) (t : Tab α) {k i : Nat} (f : α → α) (h : i ≠ k) : tget d (tmod d t k f) i = tget d t i :=
  tget_tset_ne d t _ h

/-- A write leaves every entry that satisfied p, if what it writes does. -/
theorem all_tset {α : Type} (p : Nat × α → Bool) (t : Tab α) (k : Nat) (v : α) (ht : t.all p) (hv : p (k, v)) : (tset t k v).all p := by
  induction t with
  | nil => simpa [tset] using hv
  | cons e t ih =>
    obtain ⟨j, w⟩ := e
    simp only [List.all_cons, Bool.and_eq_true] at ht
    simp only [tset]
    split
    · simp only [List.all_cons, hv, ht.2, Bool.and_self]
    · split
      · simp only [List.all_cons, hv, ht.1, ht.2, Bool.and_self]
      · simp only [List.all_cons, ht.1, ih ht.2, Bool.and_self]

/-- What is read of a table satisfies p, if its entries and the default do. -/
theorem of_tget {α : Type} (p : α → Bool) (d : α) (t : Tab α) (k : Nat) (ht : t.all (fun e => p e.2)) (hd : p d) : p (tget d t k) := by
  induction t with
  | nil => exact hd
  | cons e t ih =>
    obtain ⟨j, w⟩ := e
    simp only [List.all_cons, Bool.and_eq_true] at ht
    simp only [tget]
    split
    · exact ht.1
    · exact ih ht.2

/-! ### Byte memories -/

theorem memWf_terase (u : Byte) (m : List Host.Cell) (a : Nat) (h : memWf u m) : memWf u (terase m a) := by
  induction m with
  | nil => rfl
  | cons e t ih =>
    obtain ⟨j, w⟩ := e
    simp only [memWf, Bool.and_eq_true, List.all_eq_true] at h
    by_cases hj : j ≠ a
    · simp only [terase, ne_eq, hj, not_false_eq_true, decide_true, List.filter_cons_of_pos, memWf, Bool.and_eq_true, List.all_eq_true]
      exact ⟨⟨h.1.1, fun x hx => h.1.2 x (List.mem_filter.1 hx).1⟩, ih h.2⟩
    · simp only [terase, hj, decide_false, Bool.false_eq_true, not_false_eq_true, List.filter_cons_of_neg]
      exact ih h.2

theorem memWf_tset (u : Byte) (m : List Host.Cell) (a : Nat) (v : Byte) (hv : v ≠ u) (h : memWf u m) : memWf u (tset m a v) := by
  induction m with
  | nil => simp [tset, memWf, hv]
  | cons e t ih =>
    obtain ⟨j, w⟩ := e
    have h' := h
    simp only [memWf, Bool.and_eq_true, List.all_eq_true, decide_eq_true_eq] at h
    simp only [tset]
    split
    · rename_i hk; subst hk
      simp only [memWf, Bool.and_eq_true, bne_iff_ne, List.all_eq_true, decide_eq_true_eq]
      exact ⟨⟨hv, h.1.2⟩, h.2⟩
    · split
      · rename_i hk
        simp only [memWf, Bool.and_eq_true, bne_iff_ne, List.all_eq_true, List.mem_cons, decide_eq_true_eq] at h ⊢
        refine ⟨⟨hv, ?_⟩, h⟩
        rintro x (rfl | hx)
        · exact hk
        · exact Nat.lt_trans hk (h.1.2 x hx)
      · rename_i hne hge
        simp only [memWf, Bool.and_eq_true, List.all_eq_true, decide_eq_true_eq]
        refine ⟨⟨h.1.1, ?_⟩, ih h.2⟩
        have := all_tset (fun e => decide (j < e.1)) t a v (by simpa [List.all_eq_true] using h.1.2) (by simp; omega)
        simpa [List.all_eq_true] using this

/-- A write of a byte keeps the canonical form. -/
theorem memWf_memSet (u : Byte) (m : List Host.Cell) (a : Nat) (v : Byte) (h : memWf u m) : memWf u (memSet u m a v) := by
  unfold memSet
  split
  · exact memWf_terase u m a h
  · rename_i hv; exact memWf_tset u m a v hv h

theorem memWf_memSetLE (u : Byte) (m : List Host.Cell) (a n v : Nat) (h : memWf u m) : memWf u (memSetLE u m a n v) := by
  induction n generalizing m a v with
  | zero => exact h
  | succ n ih => exact ih _ _ _ (memWf_memSet u m a _ h)

theorem memWf_memSetBytes (u : Byte) (m : List Host.Cell) (a : Nat) (l : List Byte) (h : memWf u m) : memWf u (memSetBytes u m a l) := by
  induction l generalizing m a with
  | nil => exact h
  | cons b t ih => exact ih _ _ (memWf_memSet u m a b h)

/-- A part of a memory is in canonical form. -/
theorem memWf_filter (u : Byte) (p : Host.Cell → Bool) (m : List Host.Cell) (h : memWf u m) : memWf u (m.filter p) := by
  induction m with
  | nil => rfl
  | cons e t ih =>
    obtain ⟨j, w⟩ := e
    simp only [memWf, Bool.and_eq_true, List.all_eq_true] at h
    by_cases hp : p (j, w)
    · simp only [List.filter_cons_of_pos hp, memWf, Bool.and_eq_true, List.all_eq_true]
      exact ⟨⟨h.1.1, fun x hx => h.1.2 x (List.mem_filter.1 hx).1⟩, ih h.2⟩
    · simpa only [List.filter_cons_of_neg hp] using ih h.2

theorem tget_terase_ne {α : Type} (d : α) (t : Tab α) {k i : Nat} (h : i ≠ k) : tget d (terase t k) i = tget d t i := by
  induction t with
  | nil => rfl
  | cons e t ih =>
    obtain ⟨j, w⟩ := e
    by_cases hj : j ≠ k
    · simp only [terase, ne_eq, hj, not_false_eq_true, decide_true, List.filter_cons_of_pos, tget]
      split
      · rfl
      · exact ih
    · simp only [ne_eq, not_not] at hj
      subst hj
      simp only [terase, ne_eq, not_true, decide_false, Bool.false_eq_true, not_false_eq_true, List.filter_cons_of_neg, tget, h, if_false]
      exact ih

@[simp] theorem tget_terase_same {α : Type} (d : α) (t : Tab α) (k : Nat) : tget d (terase t k) k = d := by
  induction t with
  | nil => rfl
  | cons e t ih =>
    obtain ⟨j, w⟩ := e
    by_cases hj : j ≠ k
    · simp only [terase, ne_eq, hj, not_false_eq_true, decide_true, List.filter_cons_of_pos, tget, Ne.symm hj, if_false]
      exact ih
    · simp only [ne_eq, not_not] at hj
      subst hj
      simp only [terase, ne_eq, not_true, decide_false, Bool.false_eq_true, not_false_eq_true, List.filter_cons_of_neg]
      exact ih

/-- A read after a write gives the byte written. -/
@[simp] theorem memGet_memSet_same (u : Byte) (m : List Host.Cell) (a : Nat) (v : Byte) : memGet u (memSet u m a v) a = v := by
  unfold memGet memSet
  split
  · rename_i h; subst h; simp
  · simp

/-- A write leaves every other byte. -/
theorem memGet_memSet_ne (u : Byte) (m : List Host.Cell) {a i : Nat} (v : Byte) (h : i ≠ a) : memGet u (memSet u m a v) i = memGet u m i := by
  unfold memGet memSet
  split
  · exact tget_terase_ne u m h
  · exact tget_tset_ne u m v h

theorem memGet_memSetLE_out (u : Byte) (m : List Host.Cell) (a n v i : Nat) (h : i < a ∨ a + n ≤ i) :
    memGet u (memSetLE u m a n v) i = memGet u m i := by
  induction n generalizing m a v with
  | zero => rfl
  | succ n ih =>
    rw [memSetLE, ih _ _ _ (by omega)]
    exact memGet_memSet_ne u m _ (by omega)

theorem memGet_memSetBytes_out (u : Byte) (m : List Host.Cell) (a : Nat) (l : List Byte) (i : Nat) (h : i < a ∨ a + l.length ≤ i) :
    memGet u (memSetBytes u m a l) i = memGet u m i := by
  induction l generalizing m a with
  | nil => rfl
  | cons b t ih =>
    simp only [List.length_cons] at h
    rw [memSetBytes, ih _ _ (by omega)]
    exact memGet_memSet_ne u m _ (by omega)

theorem memGetLE_memSetLE (u : Byte) (m : List Host.Cell) (a n v : Nat) : memGetLE u (memSetLE u m a n v) a n = v % 256 ^ n := by
  induction n generalizing m a v with
  | zero => simp [memGetLE, Nat.mod_one]
  | succ n ih =>
    rw [memSetLE, memGetLE, ih, memGet_memSetLE_out _ _ _ _ _ _ (by omega), memGet_memSet_same, BitVec.toNat_ofNat, show 256 ^ (n + 1) = 256 * 256 ^ n from Nat.pow_succ',
      Nat.mod_mul]

/-! ### The fields of the state -/


@[simp] theorem modTile_node (s : State) (n : Nat) (f : Tile → Tile) : (s.modTile n f).node = s.node := rfl
@[simp] theorem modTile_host (s : State) (n : Nat) (f : Tile → Tile) : (s.modTile n f).host = s.host := rfl
@[simp] theorem modTile_ring (s : State) (n : Nat) (f : Tile → Tile) : (s.modTile n f).ring = s.ring := rfl
@[simp] theorem modTile_trust (s : State) (n : Nat) (f : Tile → Tile) : (s.modTile n f).trust = s.trust := rfl
@[simp] theorem modTile_roles (s : State) (n : Nat) (f : Tile → Tile) : (s.modTile n f).roles = s.roles := rfl
@[simp] theorem modTile_clog (s : State) (n : Nat) (f : Tile → Tile) : (s.modTile n f).clog = s.clog := rfl
@[simp] theorem modTile_faults (s : State) (n : Nat) (f : Tile → Tile) : (s.modTile n f).faults = s.faults := rfl
@[simp] theorem modTile_logs (s : State) (n : Nat) (f : Tile → Tile) : (s.modTile n f).logs = s.logs := rfl
@[simp] theorem modTile_tiles (s : State) (n : Nat) (f : Tile → Tile) : (s.modTile n f).tiles = tmod {} s.tiles n f := rfl
@[simp] theorem modTile_groups (s : State) (n : Nat) (f : Tile → Tile) : (s.modTile n f).groups = s.groups := rfl
@[simp] theorem modTile_pins (s : State) (n : Nat) (f : Tile → Tile) : (s.modTile n f).pins = s.pins := rfl
@[simp] theorem modTile_jobs (s : State) (n : Nat) (f : Tile → Tile) : (s.modTile n f).jobs = s.jobs := rfl
@[simp] theorem modTile_fabric (s : State) (n : Nat) (f : Tile → Tile) : (s.modTile n f).fabric = s.fabric := rfl
@[simp] theorem modTile_fabricTurn (s : State) (n : Nat) (f : Tile → Tile) : (s.modTile n f).fabricTurn = s.fabricTurn := rfl
@[simp] theorem modTile_triggers (s : State) (n : Nat) (f : Tile → Tile) : (s.modTile n f).triggers = s.triggers := rfl
@[simp] theorem modTile_sync (s : State) (n : Nat) (f : Tile → Tile) : (s.modTile n f).sync = s.sync := rfl
@[simp] theorem modTile_rows (s : State) (n : Nat) (f : Tile → Tile) : (s.modTile n f).rows = s.rows := rfl
@[simp] theorem modTile_loopbacks (s : State) (n : Nat) (f : Tile → Tile) : (s.modTile n f).loopbacks = s.loopbacks := rfl
@[simp] theorem modTile_due (s : State) (n : Nat) (f : Tile → Tile) : (s.modTile n f).due = s.due := rfl
@[simp] theorem modTile_stoveTab (s : State) (n : Nat) (f : Tile → Tile) : (s.modTile n f).stoveTab = s.stoveTab := rfl
@[simp] theorem modTile_pairTab (s : State) (n : Nat) (f : Tile → Tile) : (s.modTile n f).pairTab = s.pairTab := rfl
@[simp] theorem modTile_meter (s : State) (n : Nat) (f : Tile → Tile) : (s.modTile n f).meter = s.meter := rfl
@[simp] theorem modTile_ps (s : State) (n : Nat) (f : Tile → Tile) : (s.modTile n f).ps = s.ps := rfl
@[simp] theorem modTile_prot (s : State) (n : Nat) (f : Tile → Tile) : (s.modTile n f).prot = s.prot := rfl
@[simp] theorem modTile_age (s : State) (n : Nat) (f : Tile → Tile) : (s.modTile n f).age = s.age := rfl
@[simp] theorem modTile_sealImages (s : State) (n : Nat) (f : Tile → Tile) : (s.modTile n f).sealImages = s.sealImages := rfl
@[simp] theorem modTile_fresh (s : State) (n : Nat) (f : Tile → Tile) : (s.modTile n f).fresh = s.fresh := rfl
@[simp] theorem modTile_pending (s : State) (n : Nat) (f : Tile → Tile) : (s.modTile n f).pending = s.pending := rfl

@[simp] theorem modGroup_node (s : State) (n : Nat) (f : Group → Group) : (s.modGroup n f).node = s.node := rfl
@[simp] theorem modGroup_host (s : State) (n : Nat) (f : Group → Group) : (s.modGroup n f).host = s.host := rfl
@[simp] theorem modGroup_ring (s : State) (n : Nat) (f : Group → Group) : (s.modGroup n f).ring = s.ring := rfl
@[simp] theorem modGroup_trust (s : State) (n : Nat) (f : Group → Group) : (s.modGroup n f).trust = s.trust := rfl
@[simp] theorem modGroup_roles (s : State) (n : Nat) (f : Group → Group) : (s.modGroup n f).roles = s.roles := rfl
@[simp] theorem modGroup_clog (s : State) (n : Nat) (f : Group → Group) : (s.modGroup n f).clog = s.clog := rfl
@[simp] theorem modGroup_faults (s : State) (n : Nat) (f : Group → Group) : (s.modGroup n f).faults = s.faults := rfl
@[simp] theorem modGroup_logs (s : State) (n : Nat) (f : Group → Group) : (s.modGroup n f).logs = s.logs := rfl
@[simp] theorem modGroup_tiles (s : State) (n : Nat) (f : Group → Group) : (s.modGroup n f).tiles = s.tiles := rfl
@[simp] theorem modGroup_groups (s : State) (n : Nat) (f : Group → Group) : (s.modGroup n f).groups = tmod {} s.groups n f := rfl
@[simp] theorem modGroup_pins (s : State) (n : Nat) (f : Group → Group) : (s.modGroup n f).pins = s.pins := rfl
@[simp] theorem modGroup_jobs (s : State) (n : Nat) (f : Group → Group) : (s.modGroup n f).jobs = s.jobs := rfl
@[simp] theorem modGroup_fabric (s : State) (n : Nat) (f : Group → Group) : (s.modGroup n f).fabric = s.fabric := rfl
@[simp] theorem modGroup_fabricTurn (s : State) (n : Nat) (f : Group → Group) : (s.modGroup n f).fabricTurn = s.fabricTurn := rfl
@[simp] theorem modGroup_triggers (s : State) (n : Nat) (f : Group → Group) : (s.modGroup n f).triggers = s.triggers := rfl
@[simp] theorem modGroup_sync (s : State) (n : Nat) (f : Group → Group) : (s.modGroup n f).sync = s.sync := rfl
@[simp] theorem modGroup_rows (s : State) (n : Nat) (f : Group → Group) : (s.modGroup n f).rows = s.rows := rfl
@[simp] theorem modGroup_loopbacks (s : State) (n : Nat) (f : Group → Group) : (s.modGroup n f).loopbacks = s.loopbacks := rfl
@[simp] theorem modGroup_due (s : State) (n : Nat) (f : Group → Group) : (s.modGroup n f).due = s.due := rfl
@[simp] theorem modGroup_stoveTab (s : State) (n : Nat) (f : Group → Group) : (s.modGroup n f).stoveTab = s.stoveTab := rfl
@[simp] theorem modGroup_pairTab (s : State) (n : Nat) (f : Group → Group) : (s.modGroup n f).pairTab = s.pairTab := rfl
@[simp] theorem modGroup_meter (s : State) (n : Nat) (f : Group → Group) : (s.modGroup n f).meter = s.meter := rfl
@[simp] theorem modGroup_ps (s : State) (n : Nat) (f : Group → Group) : (s.modGroup n f).ps = s.ps := rfl
@[simp] theorem modGroup_prot (s : State) (n : Nat) (f : Group → Group) : (s.modGroup n f).prot = s.prot := rfl
@[simp] theorem modGroup_age (s : State) (n : Nat) (f : Group → Group) : (s.modGroup n f).age = s.age := rfl
@[simp] theorem modGroup_sealImages (s : State) (n : Nat) (f : Group → Group) : (s.modGroup n f).sealImages = s.sealImages := rfl
@[simp] theorem modGroup_fresh (s : State) (n : Nat) (f : Group → Group) : (s.modGroup n f).fresh = s.fresh := rfl
@[simp] theorem modGroup_pending (s : State) (n : Nat) (f : Group → Group) : (s.modGroup n f).pending = s.pending := rfl

@[simp] theorem modPin_node (s : State) (n : Nat) (f : Pin → Pin) : (s.modPin n f).node = s.node := rfl
@[simp] theorem modPin_host (s : State) (n : Nat) (f : Pin → Pin) : (s.modPin n f).host = s.host := rfl
@[simp] theorem modPin_ring (s : State) (n : Nat) (f : Pin → Pin) : (s.modPin n f).ring = s.ring := rfl
@[simp] theorem modPin_trust (s : State) (n : Nat) (f : Pin → Pin) : (s.modPin n f).trust = s.trust := rfl
@[simp] theorem modPin_roles (s : State) (n : Nat) (f : Pin → Pin) : (s.modPin n f).roles = s.roles := rfl
@[simp] theorem modPin_clog (s : State) (n : Nat) (f : Pin → Pin) : (s.modPin n f).clog = s.clog := rfl
@[simp] theorem modPin_faults (s : State) (n : Nat) (f : Pin → Pin) : (s.modPin n f).faults = s.faults := rfl
@[simp] theorem modPin_logs (s : State) (n : Nat) (f : Pin → Pin) : (s.modPin n f).logs = s.logs := rfl
@[simp] theorem modPin_tiles (s : State) (n : Nat) (f : Pin → Pin) : (s.modPin n f).tiles = s.tiles := rfl
@[simp] theorem modPin_groups (s : State) (n : Nat) (f : Pin → Pin) : (s.modPin n f).groups = s.groups := rfl
@[simp] theorem modPin_pins (s : State) (n : Nat) (f : Pin → Pin) : (s.modPin n f).pins = tmod {} s.pins n f := rfl
@[simp] theorem modPin_jobs (s : State) (n : Nat) (f : Pin → Pin) : (s.modPin n f).jobs = s.jobs := rfl
@[simp] theorem modPin_fabric (s : State) (n : Nat) (f : Pin → Pin) : (s.modPin n f).fabric = s.fabric := rfl
@[simp] theorem modPin_fabricTurn (s : State) (n : Nat) (f : Pin → Pin) : (s.modPin n f).fabricTurn = s.fabricTurn := rfl
@[simp] theorem modPin_triggers (s : State) (n : Nat) (f : Pin → Pin) : (s.modPin n f).triggers = s.triggers := rfl
@[simp] theorem modPin_sync (s : State) (n : Nat) (f : Pin → Pin) : (s.modPin n f).sync = s.sync := rfl
@[simp] theorem modPin_rows (s : State) (n : Nat) (f : Pin → Pin) : (s.modPin n f).rows = s.rows := rfl
@[simp] theorem modPin_loopbacks (s : State) (n : Nat) (f : Pin → Pin) : (s.modPin n f).loopbacks = s.loopbacks := rfl
@[simp] theorem modPin_due (s : State) (n : Nat) (f : Pin → Pin) : (s.modPin n f).due = s.due := rfl
@[simp] theorem modPin_stoveTab (s : State) (n : Nat) (f : Pin → Pin) : (s.modPin n f).stoveTab = s.stoveTab := rfl
@[simp] theorem modPin_pairTab (s : State) (n : Nat) (f : Pin → Pin) : (s.modPin n f).pairTab = s.pairTab := rfl
@[simp] theorem modPin_meter (s : State) (n : Nat) (f : Pin → Pin) : (s.modPin n f).meter = s.meter := rfl
@[simp] theorem modPin_ps (s : State) (n : Nat) (f : Pin → Pin) : (s.modPin n f).ps = s.ps := rfl
@[simp] theorem modPin_prot (s : State) (n : Nat) (f : Pin → Pin) : (s.modPin n f).prot = s.prot := rfl
@[simp] theorem modPin_age (s : State) (n : Nat) (f : Pin → Pin) : (s.modPin n f).age = s.age := rfl
@[simp] theorem modPin_sealImages (s : State) (n : Nat) (f : Pin → Pin) : (s.modPin n f).sealImages = s.sealImages := rfl
@[simp] theorem modPin_fresh (s : State) (n : Nat) (f : Pin → Pin) : (s.modPin n f).fresh = s.fresh := rfl
@[simp] theorem modPin_pending (s : State) (n : Nat) (f : Pin → Pin) : (s.modPin n f).pending = s.pending := rfl

@[simp] theorem modStove_node (s : State) (n : Nat) (f : Stove → Stove) : (s.modStove n f).node = s.node := rfl
@[simp] theorem modStove_host (s : State) (n : Nat) (f : Stove → Stove) : (s.modStove n f).host = s.host := rfl
@[simp] theorem modStove_ring (s : State) (n : Nat) (f : Stove → Stove) : (s.modStove n f).ring = s.ring := rfl
@[simp] theorem modStove_trust (s : State) (n : Nat) (f : Stove → Stove) : (s.modStove n f).trust = s.trust := rfl
@[simp] theorem modStove_roles (s : State) (n : Nat) (f : Stove → Stove) : (s.modStove n f).roles = s.roles := rfl
@[simp] theorem modStove_clog (s : State) (n : Nat) (f : Stove → Stove) : (s.modStove n f).clog = s.clog := rfl
@[simp] theorem modStove_faults (s : State) (n : Nat) (f : Stove → Stove) : (s.modStove n f).faults = s.faults := rfl
@[simp] theorem modStove_logs (s : State) (n : Nat) (f : Stove → Stove) : (s.modStove n f).logs = s.logs := rfl
@[simp] theorem modStove_tiles (s : State) (n : Nat) (f : Stove → Stove) : (s.modStove n f).tiles = s.tiles := rfl
@[simp] theorem modStove_groups (s : State) (n : Nat) (f : Stove → Stove) : (s.modStove n f).groups = s.groups := rfl
@[simp] theorem modStove_pins (s : State) (n : Nat) (f : Stove → Stove) : (s.modStove n f).pins = s.pins := rfl
@[simp] theorem modStove_jobs (s : State) (n : Nat) (f : Stove → Stove) : (s.modStove n f).jobs = s.jobs := rfl
@[simp] theorem modStove_fabric (s : State) (n : Nat) (f : Stove → Stove) : (s.modStove n f).fabric = s.fabric := rfl
@[simp] theorem modStove_fabricTurn (s : State) (n : Nat) (f : Stove → Stove) : (s.modStove n f).fabricTurn = s.fabricTurn := rfl
@[simp] theorem modStove_triggers (s : State) (n : Nat) (f : Stove → Stove) : (s.modStove n f).triggers = s.triggers := rfl
@[simp] theorem modStove_sync (s : State) (n : Nat) (f : Stove → Stove) : (s.modStove n f).sync = s.sync := rfl
@[simp] theorem modStove_rows (s : State) (n : Nat) (f : Stove → Stove) : (s.modStove n f).rows = s.rows := rfl
@[simp] theorem modStove_loopbacks (s : State) (n : Nat) (f : Stove → Stove) : (s.modStove n f).loopbacks = s.loopbacks := rfl
@[simp] theorem modStove_due (s : State) (n : Nat) (f : Stove → Stove) : (s.modStove n f).due = s.due := rfl
@[simp] theorem modStove_stoveTab (s : State) (n : Nat) (f : Stove → Stove) : (s.modStove n f).stoveTab = tmod {} s.stoveTab n f := rfl
@[simp] theorem modStove_pairTab (s : State) (n : Nat) (f : Stove → Stove) : (s.modStove n f).pairTab = s.pairTab := rfl
@[simp] theorem modStove_meter (s : State) (n : Nat) (f : Stove → Stove) : (s.modStove n f).meter = s.meter := rfl
@[simp] theorem modStove_ps (s : State) (n : Nat) (f : Stove → Stove) : (s.modStove n f).ps = s.ps := rfl
@[simp] theorem modStove_prot (s : State) (n : Nat) (f : Stove → Stove) : (s.modStove n f).prot = s.prot := rfl
@[simp] theorem modStove_age (s : State) (n : Nat) (f : Stove → Stove) : (s.modStove n f).age = s.age := rfl
@[simp] theorem modStove_sealImages (s : State) (n : Nat) (f : Stove → Stove) : (s.modStove n f).sealImages = s.sealImages := rfl
@[simp] theorem modStove_fresh (s : State) (n : Nat) (f : Stove → Stove) : (s.modStove n f).fresh = s.fresh := rfl
@[simp] theorem modStove_pending (s : State) (n : Nat) (f : Stove → Stove) : (s.modStove n f).pending = s.pending := rfl

@[simp] theorem modPair_node (s : State) (n : Nat) (f : Pair → Pair) : (s.modPair n f).node = s.node := rfl
@[simp] theorem modPair_host (s : State) (n : Nat) (f : Pair → Pair) : (s.modPair n f).host = s.host := rfl
@[simp] theorem modPair_ring (s : State) (n : Nat) (f : Pair → Pair) : (s.modPair n f).ring = s.ring := rfl
@[simp] theorem modPair_trust (s : State) (n : Nat) (f : Pair → Pair) : (s.modPair n f).trust = s.trust := rfl
@[simp] theorem modPair_roles (s : State) (n : Nat) (f : Pair → Pair) : (s.modPair n f).roles = s.roles := rfl
@[simp] theorem modPair_clog (s : State) (n : Nat) (f : Pair → Pair) : (s.modPair n f).clog = s.clog := rfl
@[simp] theorem modPair_faults (s : State) (n : Nat) (f : Pair → Pair) : (s.modPair n f).faults = s.faults := rfl
@[simp] theorem modPair_logs (s : State) (n : Nat) (f : Pair → Pair) : (s.modPair n f).logs = s.logs := rfl
@[simp] theorem modPair_tiles (s : State) (n : Nat) (f : Pair → Pair) : (s.modPair n f).tiles = s.tiles := rfl
@[simp] theorem modPair_groups (s : State) (n : Nat) (f : Pair → Pair) : (s.modPair n f).groups = s.groups := rfl
@[simp] theorem modPair_pins (s : State) (n : Nat) (f : Pair → Pair) : (s.modPair n f).pins = s.pins := rfl
@[simp] theorem modPair_jobs (s : State) (n : Nat) (f : Pair → Pair) : (s.modPair n f).jobs = s.jobs := rfl
@[simp] theorem modPair_fabric (s : State) (n : Nat) (f : Pair → Pair) : (s.modPair n f).fabric = s.fabric := rfl
@[simp] theorem modPair_fabricTurn (s : State) (n : Nat) (f : Pair → Pair) : (s.modPair n f).fabricTurn = s.fabricTurn := rfl
@[simp] theorem modPair_triggers (s : State) (n : Nat) (f : Pair → Pair) : (s.modPair n f).triggers = s.triggers := rfl
@[simp] theorem modPair_sync (s : State) (n : Nat) (f : Pair → Pair) : (s.modPair n f).sync = s.sync := rfl
@[simp] theorem modPair_rows (s : State) (n : Nat) (f : Pair → Pair) : (s.modPair n f).rows = s.rows := rfl
@[simp] theorem modPair_loopbacks (s : State) (n : Nat) (f : Pair → Pair) : (s.modPair n f).loopbacks = s.loopbacks := rfl
@[simp] theorem modPair_due (s : State) (n : Nat) (f : Pair → Pair) : (s.modPair n f).due = s.due := rfl
@[simp] theorem modPair_stoveTab (s : State) (n : Nat) (f : Pair → Pair) : (s.modPair n f).stoveTab = s.stoveTab := rfl
@[simp] theorem modPair_pairTab (s : State) (n : Nat) (f : Pair → Pair) : (s.modPair n f).pairTab = tmod {} s.pairTab n f := rfl
@[simp] theorem modPair_meter (s : State) (n : Nat) (f : Pair → Pair) : (s.modPair n f).meter = s.meter := rfl
@[simp] theorem modPair_ps (s : State) (n : Nat) (f : Pair → Pair) : (s.modPair n f).ps = s.ps := rfl
@[simp] theorem modPair_prot (s : State) (n : Nat) (f : Pair → Pair) : (s.modPair n f).prot = s.prot := rfl
@[simp] theorem modPair_age (s : State) (n : Nat) (f : Pair → Pair) : (s.modPair n f).age = s.age := rfl
@[simp] theorem modPair_sealImages (s : State) (n : Nat) (f : Pair → Pair) : (s.modPair n f).sealImages = s.sealImages := rfl
@[simp] theorem modPair_fresh (s : State) (n : Nat) (f : Pair → Pair) : (s.modPair n f).fresh = s.fresh := rfl
@[simp] theorem modPair_pending (s : State) (n : Nat) (f : Pair → Pair) : (s.modPair n f).pending = s.pending := rfl

@[simp] theorem modBank_node (s : State) (n : Nat) (f : PsBank → PsBank) : (s.modBank n f).node = s.node := rfl
@[simp] theorem modBank_host (s : State) (n : Nat) (f : PsBank → PsBank) : (s.modBank n f).host = s.host := rfl
@[simp] theorem modBank_ring (s : State) (n : Nat) (f : PsBank → PsBank) : (s.modBank n f).ring = s.ring := rfl
@[simp] theorem modBank_trust (s : State) (n : Nat) (f : PsBank → PsBank) : (s.modBank n f).trust = s.trust := rfl
@[simp] theorem modBank_roles (s : State) (n : Nat) (f : PsBank → PsBank) : (s.modBank n f).roles = s.roles := rfl
@[simp] theorem modBank_clog (s : State) (n : Nat) (f : PsBank → PsBank) : (s.modBank n f).clog = s.clog := rfl
@[simp] theorem modBank_faults (s : State) (n : Nat) (f : PsBank → PsBank) : (s.modBank n f).faults = s.faults := rfl
@[simp] theorem modBank_logs (s : State) (n : Nat) (f : PsBank → PsBank) : (s.modBank n f).logs = s.logs := rfl
@[simp] theorem modBank_tiles (s : State) (n : Nat) (f : PsBank → PsBank) : (s.modBank n f).tiles = s.tiles := rfl
@[simp] theorem modBank_groups (s : State) (n : Nat) (f : PsBank → PsBank) : (s.modBank n f).groups = s.groups := rfl
@[simp] theorem modBank_pins (s : State) (n : Nat) (f : PsBank → PsBank) : (s.modBank n f).pins = s.pins := rfl
@[simp] theorem modBank_jobs (s : State) (n : Nat) (f : PsBank → PsBank) : (s.modBank n f).jobs = s.jobs := rfl
@[simp] theorem modBank_fabric (s : State) (n : Nat) (f : PsBank → PsBank) : (s.modBank n f).fabric = s.fabric := rfl
@[simp] theorem modBank_fabricTurn (s : State) (n : Nat) (f : PsBank → PsBank) : (s.modBank n f).fabricTurn = s.fabricTurn := rfl
@[simp] theorem modBank_triggers (s : State) (n : Nat) (f : PsBank → PsBank) : (s.modBank n f).triggers = s.triggers := rfl
@[simp] theorem modBank_sync (s : State) (n : Nat) (f : PsBank → PsBank) : (s.modBank n f).sync = s.sync := rfl
@[simp] theorem modBank_rows (s : State) (n : Nat) (f : PsBank → PsBank) : (s.modBank n f).rows = s.rows := rfl
@[simp] theorem modBank_loopbacks (s : State) (n : Nat) (f : PsBank → PsBank) : (s.modBank n f).loopbacks = s.loopbacks := rfl
@[simp] theorem modBank_due (s : State) (n : Nat) (f : PsBank → PsBank) : (s.modBank n f).due = s.due := rfl
@[simp] theorem modBank_stoveTab (s : State) (n : Nat) (f : PsBank → PsBank) : (s.modBank n f).stoveTab = s.stoveTab := rfl
@[simp] theorem modBank_pairTab (s : State) (n : Nat) (f : PsBank → PsBank) : (s.modBank n f).pairTab = s.pairTab := rfl
@[simp] theorem modBank_meter (s : State) (n : Nat) (f : PsBank → PsBank) : (s.modBank n f).meter = s.meter := rfl
@[simp] theorem modBank_ps (s : State) (n : Nat) (f : PsBank → PsBank) : (s.modBank n f).ps = tmod {} s.ps n f := rfl
@[simp] theorem modBank_prot (s : State) (n : Nat) (f : PsBank → PsBank) : (s.modBank n f).prot = s.prot := rfl
@[simp] theorem modBank_age (s : State) (n : Nat) (f : PsBank → PsBank) : (s.modBank n f).age = s.age := rfl
@[simp] theorem modBank_sealImages (s : State) (n : Nat) (f : PsBank → PsBank) : (s.modBank n f).sealImages = s.sealImages := rfl
@[simp] theorem modBank_fresh (s : State) (n : Nat) (f : PsBank → PsBank) : (s.modBank n f).fresh = s.fresh := rfl
@[simp] theorem modBank_pending (s : State) (n : Nat) (f : PsBank → PsBank) : (s.modBank n f).pending = s.pending := rfl

@[simp] theorem modRows_node (s : State) (n : Nat) (f : Rows → Rows) : (s.modRows n f).node = s.node := rfl
@[simp] theorem modRows_host (s : State) (n : Nat) (f : Rows → Rows) : (s.modRows n f).host = s.host := rfl
@[simp] theorem modRows_ring (s : State) (n : Nat) (f : Rows → Rows) : (s.modRows n f).ring = s.ring := rfl
@[simp] theorem modRows_trust (s : State) (n : Nat) (f : Rows → Rows) : (s.modRows n f).trust = s.trust := rfl
@[simp] theorem modRows_roles (s : State) (n : Nat) (f : Rows → Rows) : (s.modRows n f).roles = s.roles := rfl
@[simp] theorem modRows_clog (s : State) (n : Nat) (f : Rows → Rows) : (s.modRows n f).clog = s.clog := rfl
@[simp] theorem modRows_faults (s : State) (n : Nat) (f : Rows → Rows) : (s.modRows n f).faults = s.faults := rfl
@[simp] theorem modRows_logs (s : State) (n : Nat) (f : Rows → Rows) : (s.modRows n f).logs = s.logs := rfl
@[simp] theorem modRows_tiles (s : State) (n : Nat) (f : Rows → Rows) : (s.modRows n f).tiles = s.tiles := rfl
@[simp] theorem modRows_groups (s : State) (n : Nat) (f : Rows → Rows) : (s.modRows n f).groups = s.groups := rfl
@[simp] theorem modRows_pins (s : State) (n : Nat) (f : Rows → Rows) : (s.modRows n f).pins = s.pins := rfl
@[simp] theorem modRows_jobs (s : State) (n : Nat) (f : Rows → Rows) : (s.modRows n f).jobs = s.jobs := rfl
@[simp] theorem modRows_fabric (s : State) (n : Nat) (f : Rows → Rows) : (s.modRows n f).fabric = s.fabric := rfl
@[simp] theorem modRows_fabricTurn (s : State) (n : Nat) (f : Rows → Rows) : (s.modRows n f).fabricTurn = s.fabricTurn := rfl
@[simp] theorem modRows_triggers (s : State) (n : Nat) (f : Rows → Rows) : (s.modRows n f).triggers = s.triggers := rfl
@[simp] theorem modRows_sync (s : State) (n : Nat) (f : Rows → Rows) : (s.modRows n f).sync = s.sync := rfl
@[simp] theorem modRows_rows (s : State) (n : Nat) (f : Rows → Rows) : (s.modRows n f).rows = tmod {} s.rows n f := rfl
@[simp] theorem modRows_loopbacks (s : State) (n : Nat) (f : Rows → Rows) : (s.modRows n f).loopbacks = s.loopbacks := rfl
@[simp] theorem modRows_due (s : State) (n : Nat) (f : Rows → Rows) : (s.modRows n f).due = s.due := rfl
@[simp] theorem modRows_stoveTab (s : State) (n : Nat) (f : Rows → Rows) : (s.modRows n f).stoveTab = s.stoveTab := rfl
@[simp] theorem modRows_pairTab (s : State) (n : Nat) (f : Rows → Rows) : (s.modRows n f).pairTab = s.pairTab := rfl
@[simp] theorem modRows_meter (s : State) (n : Nat) (f : Rows → Rows) : (s.modRows n f).meter = s.meter := rfl
@[simp] theorem modRows_ps (s : State) (n : Nat) (f : Rows → Rows) : (s.modRows n f).ps = s.ps := rfl
@[simp] theorem modRows_prot (s : State) (n : Nat) (f : Rows → Rows) : (s.modRows n f).prot = s.prot := rfl
@[simp] theorem modRows_age (s : State) (n : Nat) (f : Rows → Rows) : (s.modRows n f).age = s.age := rfl
@[simp] theorem modRows_sealImages (s : State) (n : Nat) (f : Rows → Rows) : (s.modRows n f).sealImages = s.sealImages := rfl
@[simp] theorem modRows_fresh (s : State) (n : Nat) (f : Rows → Rows) : (s.modRows n f).fresh = s.fresh := rfl
@[simp] theorem modRows_pending (s : State) (n : Nat) (f : Rows → Rows) : (s.modRows n f).pending = s.pending := rfl

@[simp] theorem modRec_node (s : State) (n : Nat) (f : FaultRec → FaultRec) : (s.modRec n f).node = s.node := rfl
@[simp] theorem modRec_host (s : State) (n : Nat) (f : FaultRec → FaultRec) : (s.modRec n f).host = s.host := rfl
@[simp] theorem modRec_ring (s : State) (n : Nat) (f : FaultRec → FaultRec) : (s.modRec n f).ring = s.ring := rfl
@[simp] theorem modRec_trust (s : State) (n : Nat) (f : FaultRec → FaultRec) : (s.modRec n f).trust = s.trust := rfl
@[simp] theorem modRec_roles (s : State) (n : Nat) (f : FaultRec → FaultRec) : (s.modRec n f).roles = s.roles := rfl
@[simp] theorem modRec_clog (s : State) (n : Nat) (f : FaultRec → FaultRec) : (s.modRec n f).clog = s.clog := rfl
@[simp] theorem modRec_faults (s : State) (n : Nat) (f : FaultRec → FaultRec) : (s.modRec n f).faults = { s.faults with recs := tmod {} s.faults.recs n f } := rfl
@[simp] theorem modRec_logs (s : State) (n : Nat) (f : FaultRec → FaultRec) : (s.modRec n f).logs = s.logs := rfl
@[simp] theorem modRec_tiles (s : State) (n : Nat) (f : FaultRec → FaultRec) : (s.modRec n f).tiles = s.tiles := rfl
@[simp] theorem modRec_groups (s : State) (n : Nat) (f : FaultRec → FaultRec) : (s.modRec n f).groups = s.groups := rfl
@[simp] theorem modRec_pins (s : State) (n : Nat) (f : FaultRec → FaultRec) : (s.modRec n f).pins = s.pins := rfl
@[simp] theorem modRec_jobs (s : State) (n : Nat) (f : FaultRec → FaultRec) : (s.modRec n f).jobs = s.jobs := rfl
@[simp] theorem modRec_fabric (s : State) (n : Nat) (f : FaultRec → FaultRec) : (s.modRec n f).fabric = s.fabric := rfl
@[simp] theorem modRec_fabricTurn (s : State) (n : Nat) (f : FaultRec → FaultRec) : (s.modRec n f).fabricTurn = s.fabricTurn := rfl
@[simp] theorem modRec_triggers (s : State) (n : Nat) (f : FaultRec → FaultRec) : (s.modRec n f).triggers = s.triggers := rfl
@[simp] theorem modRec_sync (s : State) (n : Nat) (f : FaultRec → FaultRec) : (s.modRec n f).sync = s.sync := rfl
@[simp] theorem modRec_rows (s : State) (n : Nat) (f : FaultRec → FaultRec) : (s.modRec n f).rows = s.rows := rfl
@[simp] theorem modRec_loopbacks (s : State) (n : Nat) (f : FaultRec → FaultRec) : (s.modRec n f).loopbacks = s.loopbacks := rfl
@[simp] theorem modRec_due (s : State) (n : Nat) (f : FaultRec → FaultRec) : (s.modRec n f).due = s.due := rfl
@[simp] theorem modRec_stoveTab (s : State) (n : Nat) (f : FaultRec → FaultRec) : (s.modRec n f).stoveTab = s.stoveTab := rfl
@[simp] theorem modRec_pairTab (s : State) (n : Nat) (f : FaultRec → FaultRec) : (s.modRec n f).pairTab = s.pairTab := rfl
@[simp] theorem modRec_meter (s : State) (n : Nat) (f : FaultRec → FaultRec) : (s.modRec n f).meter = s.meter := rfl
@[simp] theorem modRec_ps (s : State) (n : Nat) (f : FaultRec → FaultRec) : (s.modRec n f).ps = s.ps := rfl
@[simp] theorem modRec_prot (s : State) (n : Nat) (f : FaultRec → FaultRec) : (s.modRec n f).prot = s.prot := rfl
@[simp] theorem modRec_age (s : State) (n : Nat) (f : FaultRec → FaultRec) : (s.modRec n f).age = s.age := rfl
@[simp] theorem modRec_sealImages (s : State) (n : Nat) (f : FaultRec → FaultRec) : (s.modRec n f).sealImages = s.sealImages := rfl
@[simp] theorem modRec_fresh (s : State) (n : Nat) (f : FaultRec → FaultRec) : (s.modRec n f).fresh = s.fresh := rfl
@[simp] theorem modRec_pending (s : State) (n : Nat) (f : FaultRec → FaultRec) : (s.modRec n f).pending = s.pending := rfl

@[simp] theorem modKindle_node (s : State) (n : Nat) (f : KindleDie → KindleDie) : (s.modKindle n f).node = { s.node with kindle := tmod {} s.node.kindle n f } := rfl
@[simp] theorem modKindle_host (s : State) (n : Nat) (f : KindleDie → KindleDie) : (s.modKindle n f).host = s.host := rfl
@[simp] theorem modKindle_ring (s : State) (n : Nat) (f : KindleDie → KindleDie) : (s.modKindle n f).ring = s.ring := rfl
@[simp] theorem modKindle_trust (s : State) (n : Nat) (f : KindleDie → KindleDie) : (s.modKindle n f).trust = s.trust := rfl
@[simp] theorem modKindle_roles (s : State) (n : Nat) (f : KindleDie → KindleDie) : (s.modKindle n f).roles = s.roles := rfl
@[simp] theorem modKindle_clog (s : State) (n : Nat) (f : KindleDie → KindleDie) : (s.modKindle n f).clog = s.clog := rfl
@[simp] theorem modKindle_faults (s : State) (n : Nat) (f : KindleDie → KindleDie) : (s.modKindle n f).faults = s.faults := rfl
@[simp] theorem modKindle_logs (s : State) (n : Nat) (f : KindleDie → KindleDie) : (s.modKindle n f).logs = s.logs := rfl
@[simp] theorem modKindle_tiles (s : State) (n : Nat) (f : KindleDie → KindleDie) : (s.modKindle n f).tiles = s.tiles := rfl
@[simp] theorem modKindle_groups (s : State) (n : Nat) (f : KindleDie → KindleDie) : (s.modKindle n f).groups = s.groups := rfl
@[simp] theorem modKindle_pins (s : State) (n : Nat) (f : KindleDie → KindleDie) : (s.modKindle n f).pins = s.pins := rfl
@[simp] theorem modKindle_jobs (s : State) (n : Nat) (f : KindleDie → KindleDie) : (s.modKindle n f).jobs = s.jobs := rfl
@[simp] theorem modKindle_fabric (s : State) (n : Nat) (f : KindleDie → KindleDie) : (s.modKindle n f).fabric = s.fabric := rfl
@[simp] theorem modKindle_fabricTurn (s : State) (n : Nat) (f : KindleDie → KindleDie) : (s.modKindle n f).fabricTurn = s.fabricTurn := rfl
@[simp] theorem modKindle_triggers (s : State) (n : Nat) (f : KindleDie → KindleDie) : (s.modKindle n f).triggers = s.triggers := rfl
@[simp] theorem modKindle_sync (s : State) (n : Nat) (f : KindleDie → KindleDie) : (s.modKindle n f).sync = s.sync := rfl
@[simp] theorem modKindle_rows (s : State) (n : Nat) (f : KindleDie → KindleDie) : (s.modKindle n f).rows = s.rows := rfl
@[simp] theorem modKindle_loopbacks (s : State) (n : Nat) (f : KindleDie → KindleDie) : (s.modKindle n f).loopbacks = s.loopbacks := rfl
@[simp] theorem modKindle_due (s : State) (n : Nat) (f : KindleDie → KindleDie) : (s.modKindle n f).due = s.due := rfl
@[simp] theorem modKindle_stoveTab (s : State) (n : Nat) (f : KindleDie → KindleDie) : (s.modKindle n f).stoveTab = s.stoveTab := rfl
@[simp] theorem modKindle_pairTab (s : State) (n : Nat) (f : KindleDie → KindleDie) : (s.modKindle n f).pairTab = s.pairTab := rfl
@[simp] theorem modKindle_meter (s : State) (n : Nat) (f : KindleDie → KindleDie) : (s.modKindle n f).meter = s.meter := rfl
@[simp] theorem modKindle_ps (s : State) (n : Nat) (f : KindleDie → KindleDie) : (s.modKindle n f).ps = s.ps := rfl
@[simp] theorem modKindle_prot (s : State) (n : Nat) (f : KindleDie → KindleDie) : (s.modKindle n f).prot = s.prot := rfl
@[simp] theorem modKindle_age (s : State) (n : Nat) (f : KindleDie → KindleDie) : (s.modKindle n f).age = s.age := rfl
@[simp] theorem modKindle_sealImages (s : State) (n : Nat) (f : KindleDie → KindleDie) : (s.modKindle n f).sealImages = s.sealImages := rfl
@[simp] theorem modKindle_fresh (s : State) (n : Nat) (f : KindleDie → KindleDie) : (s.modKindle n f).fresh = s.fresh := rfl
@[simp] theorem modKindle_pending (s : State) (n : Nat) (f : KindleDie → KindleDie) : (s.modKindle n f).pending = s.pending := rfl

@[simp] theorem modAge_node (s : State) (n : Nat) (f : DieAge → DieAge) : (s.modAge n f).node = s.node := rfl
@[simp] theorem modAge_host (s : State) (n : Nat) (f : DieAge → DieAge) : (s.modAge n f).host = s.host := rfl
@[simp] theorem modAge_ring (s : State) (n : Nat) (f : DieAge → DieAge) : (s.modAge n f).ring = s.ring := rfl
@[simp] theorem modAge_trust (s : State) (n : Nat) (f : DieAge → DieAge) : (s.modAge n f).trust = s.trust := rfl
@[simp] theorem modAge_roles (s : State) (n : Nat) (f : DieAge → DieAge) : (s.modAge n f).roles = s.roles := rfl
@[simp] theorem modAge_clog (s : State) (n : Nat) (f : DieAge → DieAge) : (s.modAge n f).clog = s.clog := rfl
@[simp] theorem modAge_faults (s : State) (n : Nat) (f : DieAge → DieAge) : (s.modAge n f).faults = s.faults := rfl
@[simp] theorem modAge_logs (s : State) (n : Nat) (f : DieAge → DieAge) : (s.modAge n f).logs = s.logs := rfl
@[simp] theorem modAge_tiles (s : State) (n : Nat) (f : DieAge → DieAge) : (s.modAge n f).tiles = s.tiles := rfl
@[simp] theorem modAge_groups (s : State) (n : Nat) (f : DieAge → DieAge) : (s.modAge n f).groups = s.groups := rfl
@[simp] theorem modAge_pins (s : State) (n : Nat) (f : DieAge → DieAge) : (s.modAge n f).pins = s.pins := rfl
@[simp] theorem modAge_jobs (s : State) (n : Nat) (f : DieAge → DieAge) : (s.modAge n f).jobs = s.jobs := rfl
@[simp] theorem modAge_fabric (s : State) (n : Nat) (f : DieAge → DieAge) : (s.modAge n f).fabric = s.fabric := rfl
@[simp] theorem modAge_fabricTurn (s : State) (n : Nat) (f : DieAge → DieAge) : (s.modAge n f).fabricTurn = s.fabricTurn := rfl
@[simp] theorem modAge_triggers (s : State) (n : Nat) (f : DieAge → DieAge) : (s.modAge n f).triggers = s.triggers := rfl
@[simp] theorem modAge_sync (s : State) (n : Nat) (f : DieAge → DieAge) : (s.modAge n f).sync = s.sync := rfl
@[simp] theorem modAge_rows (s : State) (n : Nat) (f : DieAge → DieAge) : (s.modAge n f).rows = s.rows := rfl
@[simp] theorem modAge_loopbacks (s : State) (n : Nat) (f : DieAge → DieAge) : (s.modAge n f).loopbacks = s.loopbacks := rfl
@[simp] theorem modAge_due (s : State) (n : Nat) (f : DieAge → DieAge) : (s.modAge n f).due = s.due := rfl
@[simp] theorem modAge_stoveTab (s : State) (n : Nat) (f : DieAge → DieAge) : (s.modAge n f).stoveTab = s.stoveTab := rfl
@[simp] theorem modAge_pairTab (s : State) (n : Nat) (f : DieAge → DieAge) : (s.modAge n f).pairTab = s.pairTab := rfl
@[simp] theorem modAge_meter (s : State) (n : Nat) (f : DieAge → DieAge) : (s.modAge n f).meter = s.meter := rfl
@[simp] theorem modAge_ps (s : State) (n : Nat) (f : DieAge → DieAge) : (s.modAge n f).ps = s.ps := rfl
@[simp] theorem modAge_prot (s : State) (n : Nat) (f : DieAge → DieAge) : (s.modAge n f).prot = s.prot := rfl
@[simp] theorem modAge_age (s : State) (n : Nat) (f : DieAge → DieAge) : (s.modAge n f).age = { s.age with dies := tmod {} s.age.dies n f } := rfl
@[simp] theorem modAge_sealImages (s : State) (n : Nat) (f : DieAge → DieAge) : (s.modAge n f).sealImages = s.sealImages := rfl
@[simp] theorem modAge_fresh (s : State) (n : Nat) (f : DieAge → DieAge) : (s.modAge n f).fresh = s.fresh := rfl
@[simp] theorem modAge_pending (s : State) (n : Nat) (f : DieAge → DieAge) : (s.modAge n f).pending = s.pending := rfl

@[simp] theorem modFn_node (s : State) (n : Nat) (f : Fn → Fn) : (s.modFn n f).node = s.node := rfl
@[simp] theorem modFn_host (s : State) (n : Nat) (f : Fn → Fn) : (s.modFn n f).host = { s.host with fns := tmod {} s.host.fns n f } := rfl
@[simp] theorem modFn_ring (s : State) (n : Nat) (f : Fn → Fn) : (s.modFn n f).ring = s.ring := rfl
@[simp] theorem modFn_trust (s : State) (n : Nat) (f : Fn → Fn) : (s.modFn n f).trust = s.trust := rfl
@[simp] theorem modFn_roles (s : State) (n : Nat) (f : Fn → Fn) : (s.modFn n f).roles = s.roles := rfl
@[simp] theorem modFn_clog (s : State) (n : Nat) (f : Fn → Fn) : (s.modFn n f).clog = s.clog := rfl
@[simp] theorem modFn_faults (s : State) (n : Nat) (f : Fn → Fn) : (s.modFn n f).faults = s.faults := rfl
@[simp] theorem modFn_logs (s : State) (n : Nat) (f : Fn → Fn) : (s.modFn n f).logs = s.logs := rfl
@[simp] theorem modFn_tiles (s : State) (n : Nat) (f : Fn → Fn) : (s.modFn n f).tiles = s.tiles := rfl
@[simp] theorem modFn_groups (s : State) (n : Nat) (f : Fn → Fn) : (s.modFn n f).groups = s.groups := rfl
@[simp] theorem modFn_pins (s : State) (n : Nat) (f : Fn → Fn) : (s.modFn n f).pins = s.pins := rfl
@[simp] theorem modFn_jobs (s : State) (n : Nat) (f : Fn → Fn) : (s.modFn n f).jobs = s.jobs := rfl
@[simp] theorem modFn_fabric (s : State) (n : Nat) (f : Fn → Fn) : (s.modFn n f).fabric = s.fabric := rfl
@[simp] theorem modFn_fabricTurn (s : State) (n : Nat) (f : Fn → Fn) : (s.modFn n f).fabricTurn = s.fabricTurn := rfl
@[simp] theorem modFn_triggers (s : State) (n : Nat) (f : Fn → Fn) : (s.modFn n f).triggers = s.triggers := rfl
@[simp] theorem modFn_sync (s : State) (n : Nat) (f : Fn → Fn) : (s.modFn n f).sync = s.sync := rfl
@[simp] theorem modFn_rows (s : State) (n : Nat) (f : Fn → Fn) : (s.modFn n f).rows = s.rows := rfl
@[simp] theorem modFn_loopbacks (s : State) (n : Nat) (f : Fn → Fn) : (s.modFn n f).loopbacks = s.loopbacks := rfl
@[simp] theorem modFn_due (s : State) (n : Nat) (f : Fn → Fn) : (s.modFn n f).due = s.due := rfl
@[simp] theorem modFn_stoveTab (s : State) (n : Nat) (f : Fn → Fn) : (s.modFn n f).stoveTab = s.stoveTab := rfl
@[simp] theorem modFn_pairTab (s : State) (n : Nat) (f : Fn → Fn) : (s.modFn n f).pairTab = s.pairTab := rfl
@[simp] theorem modFn_meter (s : State) (n : Nat) (f : Fn → Fn) : (s.modFn n f).meter = s.meter := rfl
@[simp] theorem modFn_ps (s : State) (n : Nat) (f : Fn → Fn) : (s.modFn n f).ps = s.ps := rfl
@[simp] theorem modFn_prot (s : State) (n : Nat) (f : Fn → Fn) : (s.modFn n f).prot = s.prot := rfl
@[simp] theorem modFn_age (s : State) (n : Nat) (f : Fn → Fn) : (s.modFn n f).age = s.age := rfl
@[simp] theorem modFn_sealImages (s : State) (n : Nat) (f : Fn → Fn) : (s.modFn n f).sealImages = s.sealImages := rfl
@[simp] theorem modFn_fresh (s : State) (n : Nat) (f : Fn → Fn) : (s.modFn n f).fresh = s.fresh := rfl
@[simp] theorem modFn_pending (s : State) (n : Nat) (f : Fn → Fn) : (s.modFn n f).pending = s.pending := rfl

@[simp] theorem modQueue_node (s : State) (n : Nat) (f : Queue → Queue) : (s.modQueue n f).node = s.node := rfl
@[simp] theorem modQueue_host (s : State) (n : Nat) (f : Queue → Queue) : (s.modQueue n f).host = { s.host with queues := tmod {} s.host.queues n f } := rfl
@[simp] theorem modQueue_ring (s : State) (n : Nat) (f : Queue → Queue) : (s.modQueue n f).ring = s.ring := rfl
@[simp] theorem modQueue_trust (s : State) (n : Nat) (f : Queue → Queue) : (s.modQueue n f).trust = s.trust := rfl
@[simp] theorem modQueue_roles (s : State) (n : Nat) (f : Queue → Queue) : (s.modQueue n f).roles = s.roles := rfl
@[simp] theorem modQueue_clog (s : State) (n : Nat) (f : Queue → Queue) : (s.modQueue n f).clog = s.clog := rfl
@[simp] theorem modQueue_faults (s : State) (n : Nat) (f : Queue → Queue) : (s.modQueue n f).faults = s.faults := rfl
@[simp] theorem modQueue_logs (s : State) (n : Nat) (f : Queue → Queue) : (s.modQueue n f).logs = s.logs := rfl
@[simp] theorem modQueue_tiles (s : State) (n : Nat) (f : Queue → Queue) : (s.modQueue n f).tiles = s.tiles := rfl
@[simp] theorem modQueue_groups (s : State) (n : Nat) (f : Queue → Queue) : (s.modQueue n f).groups = s.groups := rfl
@[simp] theorem modQueue_pins (s : State) (n : Nat) (f : Queue → Queue) : (s.modQueue n f).pins = s.pins := rfl
@[simp] theorem modQueue_jobs (s : State) (n : Nat) (f : Queue → Queue) : (s.modQueue n f).jobs = s.jobs := rfl
@[simp] theorem modQueue_fabric (s : State) (n : Nat) (f : Queue → Queue) : (s.modQueue n f).fabric = s.fabric := rfl
@[simp] theorem modQueue_fabricTurn (s : State) (n : Nat) (f : Queue → Queue) : (s.modQueue n f).fabricTurn = s.fabricTurn := rfl
@[simp] theorem modQueue_triggers (s : State) (n : Nat) (f : Queue → Queue) : (s.modQueue n f).triggers = s.triggers := rfl
@[simp] theorem modQueue_sync (s : State) (n : Nat) (f : Queue → Queue) : (s.modQueue n f).sync = s.sync := rfl
@[simp] theorem modQueue_rows (s : State) (n : Nat) (f : Queue → Queue) : (s.modQueue n f).rows = s.rows := rfl
@[simp] theorem modQueue_loopbacks (s : State) (n : Nat) (f : Queue → Queue) : (s.modQueue n f).loopbacks = s.loopbacks := rfl
@[simp] theorem modQueue_due (s : State) (n : Nat) (f : Queue → Queue) : (s.modQueue n f).due = s.due := rfl
@[simp] theorem modQueue_stoveTab (s : State) (n : Nat) (f : Queue → Queue) : (s.modQueue n f).stoveTab = s.stoveTab := rfl
@[simp] theorem modQueue_pairTab (s : State) (n : Nat) (f : Queue → Queue) : (s.modQueue n f).pairTab = s.pairTab := rfl
@[simp] theorem modQueue_meter (s : State) (n : Nat) (f : Queue → Queue) : (s.modQueue n f).meter = s.meter := rfl
@[simp] theorem modQueue_ps (s : State) (n : Nat) (f : Queue → Queue) : (s.modQueue n f).ps = s.ps := rfl
@[simp] theorem modQueue_prot (s : State) (n : Nat) (f : Queue → Queue) : (s.modQueue n f).prot = s.prot := rfl
@[simp] theorem modQueue_age (s : State) (n : Nat) (f : Queue → Queue) : (s.modQueue n f).age = s.age := rfl
@[simp] theorem modQueue_sealImages (s : State) (n : Nat) (f : Queue → Queue) : (s.modQueue n f).sealImages = s.sealImages := rfl
@[simp] theorem modQueue_fresh (s : State) (n : Nat) (f : Queue → Queue) : (s.modQueue n f).fresh = s.fresh := rfl
@[simp] theorem modQueue_pending (s : State) (n : Nat) (f : Queue → Queue) : (s.modQueue n f).pending = s.pending := rfl

@[simp] theorem modVec_node (s : State) (n v : Nat) (f : Vec → Vec) : (s.modVec n v f).node = s.node := rfl
@[simp] theorem modVec_host (s : State) (n v : Nat) (f : Vec → Vec) : (s.modVec n v f).host = { s.host with vecs := tmod {} s.host.vecs (2048 * n + v) f } := rfl
@[simp] theorem modVec_ring (s : State) (n v : Nat) (f : Vec → Vec) : (s.modVec n v f).ring = s.ring := rfl
@[simp] theorem modVec_trust (s : State) (n v : Nat) (f : Vec → Vec) : (s.modVec n v f).trust = s.trust := rfl
@[simp] theorem modVec_roles (s : State) (n v : Nat) (f : Vec → Vec) : (s.modVec n v f).roles = s.roles := rfl
@[simp] theorem modVec_clog (s : State) (n v : Nat) (f : Vec → Vec) : (s.modVec n v f).clog = s.clog := rfl
@[simp] theorem modVec_faults (s : State) (n v : Nat) (f : Vec → Vec) : (s.modVec n v f).faults = s.faults := rfl
@[simp] theorem modVec_logs (s : State) (n v : Nat) (f : Vec → Vec) : (s.modVec n v f).logs = s.logs := rfl
@[simp] theorem modVec_tiles (s : State) (n v : Nat) (f : Vec → Vec) : (s.modVec n v f).tiles = s.tiles := rfl
@[simp] theorem modVec_groups (s : State) (n v : Nat) (f : Vec → Vec) : (s.modVec n v f).groups = s.groups := rfl
@[simp] theorem modVec_pins (s : State) (n v : Nat) (f : Vec → Vec) : (s.modVec n v f).pins = s.pins := rfl
@[simp] theorem modVec_jobs (s : State) (n v : Nat) (f : Vec → Vec) : (s.modVec n v f).jobs = s.jobs := rfl
@[simp] theorem modVec_fabric (s : State) (n v : Nat) (f : Vec → Vec) : (s.modVec n v f).fabric = s.fabric := rfl
@[simp] theorem modVec_fabricTurn (s : State) (n v : Nat) (f : Vec → Vec) : (s.modVec n v f).fabricTurn = s.fabricTurn := rfl
@[simp] theorem modVec_triggers (s : State) (n v : Nat) (f : Vec → Vec) : (s.modVec n v f).triggers = s.triggers := rfl
@[simp] theorem modVec_sync (s : State) (n v : Nat) (f : Vec → Vec) : (s.modVec n v f).sync = s.sync := rfl
@[simp] theorem modVec_rows (s : State) (n v : Nat) (f : Vec → Vec) : (s.modVec n v f).rows = s.rows := rfl
@[simp] theorem modVec_loopbacks (s : State) (n v : Nat) (f : Vec → Vec) : (s.modVec n v f).loopbacks = s.loopbacks := rfl
@[simp] theorem modVec_due (s : State) (n v : Nat) (f : Vec → Vec) : (s.modVec n v f).due = s.due := rfl
@[simp] theorem modVec_stoveTab (s : State) (n v : Nat) (f : Vec → Vec) : (s.modVec n v f).stoveTab = s.stoveTab := rfl
@[simp] theorem modVec_pairTab (s : State) (n v : Nat) (f : Vec → Vec) : (s.modVec n v f).pairTab = s.pairTab := rfl
@[simp] theorem modVec_meter (s : State) (n v : Nat) (f : Vec → Vec) : (s.modVec n v f).meter = s.meter := rfl
@[simp] theorem modVec_ps (s : State) (n v : Nat) (f : Vec → Vec) : (s.modVec n v f).ps = s.ps := rfl
@[simp] theorem modVec_prot (s : State) (n v : Nat) (f : Vec → Vec) : (s.modVec n v f).prot = s.prot := rfl
@[simp] theorem modVec_age (s : State) (n v : Nat) (f : Vec → Vec) : (s.modVec n v f).age = s.age := rfl
@[simp] theorem modVec_sealImages (s : State) (n v : Nat) (f : Vec → Vec) : (s.modVec n v f).sealImages = s.sealImages := rfl
@[simp] theorem modVec_fresh (s : State) (n v : Nat) (f : Vec → Vec) : (s.modVec n v f).fresh = s.fresh := rfl
@[simp] theorem modVec_pending (s : State) (n v : Nat) (f : Vec → Vec) : (s.modVec n v f).pending = s.pending := rfl

@[simp] theorem modStream_node (s : State) (n : Nat) (f : Stream → Stream) : (s.modStream n f).node = s.node := rfl
@[simp] theorem modStream_host (s : State) (n : Nat) (f : Stream → Stream) : (s.modStream n f).host = { s.host with streams := tmod {} s.host.streams n f } := rfl
@[simp] theorem modStream_ring (s : State) (n : Nat) (f : Stream → Stream) : (s.modStream n f).ring = s.ring := rfl
@[simp] theorem modStream_trust (s : State) (n : Nat) (f : Stream → Stream) : (s.modStream n f).trust = s.trust := rfl
@[simp] theorem modStream_roles (s : State) (n : Nat) (f : Stream → Stream) : (s.modStream n f).roles = s.roles := rfl
@[simp] theorem modStream_clog (s : State) (n : Nat) (f : Stream → Stream) : (s.modStream n f).clog = s.clog := rfl
@[simp] theorem modStream_faults (s : State) (n : Nat) (f : Stream → Stream) : (s.modStream n f).faults = s.faults := rfl
@[simp] theorem modStream_logs (s : State) (n : Nat) (f : Stream → Stream) : (s.modStream n f).logs = s.logs := rfl
@[simp] theorem modStream_tiles (s : State) (n : Nat) (f : Stream → Stream) : (s.modStream n f).tiles = s.tiles := rfl
@[simp] theorem modStream_groups (s : State) (n : Nat) (f : Stream → Stream) : (s.modStream n f).groups = s.groups := rfl
@[simp] theorem modStream_pins (s : State) (n : Nat) (f : Stream → Stream) : (s.modStream n f).pins = s.pins := rfl
@[simp] theorem modStream_jobs (s : State) (n : Nat) (f : Stream → Stream) : (s.modStream n f).jobs = s.jobs := rfl
@[simp] theorem modStream_fabric (s : State) (n : Nat) (f : Stream → Stream) : (s.modStream n f).fabric = s.fabric := rfl
@[simp] theorem modStream_fabricTurn (s : State) (n : Nat) (f : Stream → Stream) : (s.modStream n f).fabricTurn = s.fabricTurn := rfl
@[simp] theorem modStream_triggers (s : State) (n : Nat) (f : Stream → Stream) : (s.modStream n f).triggers = s.triggers := rfl
@[simp] theorem modStream_sync (s : State) (n : Nat) (f : Stream → Stream) : (s.modStream n f).sync = s.sync := rfl
@[simp] theorem modStream_rows (s : State) (n : Nat) (f : Stream → Stream) : (s.modStream n f).rows = s.rows := rfl
@[simp] theorem modStream_loopbacks (s : State) (n : Nat) (f : Stream → Stream) : (s.modStream n f).loopbacks = s.loopbacks := rfl
@[simp] theorem modStream_due (s : State) (n : Nat) (f : Stream → Stream) : (s.modStream n f).due = s.due := rfl
@[simp] theorem modStream_stoveTab (s : State) (n : Nat) (f : Stream → Stream) : (s.modStream n f).stoveTab = s.stoveTab := rfl
@[simp] theorem modStream_pairTab (s : State) (n : Nat) (f : Stream → Stream) : (s.modStream n f).pairTab = s.pairTab := rfl
@[simp] theorem modStream_meter (s : State) (n : Nat) (f : Stream → Stream) : (s.modStream n f).meter = s.meter := rfl
@[simp] theorem modStream_ps (s : State) (n : Nat) (f : Stream → Stream) : (s.modStream n f).ps = s.ps := rfl
@[simp] theorem modStream_prot (s : State) (n : Nat) (f : Stream → Stream) : (s.modStream n f).prot = s.prot := rfl
@[simp] theorem modStream_age (s : State) (n : Nat) (f : Stream → Stream) : (s.modStream n f).age = s.age := rfl
@[simp] theorem modStream_sealImages (s : State) (n : Nat) (f : Stream → Stream) : (s.modStream n f).sealImages = s.sealImages := rfl
@[simp] theorem modStream_fresh (s : State) (n : Nat) (f : Stream → Stream) : (s.modStream n f).fresh = s.fresh := rfl
@[simp] theorem modStream_pending (s : State) (n : Nat) (f : Stream → Stream) : (s.modStream n f).pending = s.pending := rfl

@[simp] theorem emit_node (s : State) (w : HostWrite) : (s.emit w).node = s.node := rfl
@[simp] theorem emit_host (s : State) (w : HostWrite) : (s.emit w).host = { s.host with out := w :: s.host.out } := rfl
@[simp] theorem emit_ring (s : State) (w : HostWrite) : (s.emit w).ring = s.ring := rfl
@[simp] theorem emit_trust (s : State) (w : HostWrite) : (s.emit w).trust = s.trust := rfl
@[simp] theorem emit_roles (s : State) (w : HostWrite) : (s.emit w).roles = s.roles := rfl
@[simp] theorem emit_clog (s : State) (w : HostWrite) : (s.emit w).clog = s.clog := rfl
@[simp] theorem emit_faults (s : State) (w : HostWrite) : (s.emit w).faults = s.faults := rfl
@[simp] theorem emit_logs (s : State) (w : HostWrite) : (s.emit w).logs = s.logs := rfl
@[simp] theorem emit_tiles (s : State) (w : HostWrite) : (s.emit w).tiles = s.tiles := rfl
@[simp] theorem emit_groups (s : State) (w : HostWrite) : (s.emit w).groups = s.groups := rfl
@[simp] theorem emit_pins (s : State) (w : HostWrite) : (s.emit w).pins = s.pins := rfl
@[simp] theorem emit_jobs (s : State) (w : HostWrite) : (s.emit w).jobs = s.jobs := rfl
@[simp] theorem emit_fabric (s : State) (w : HostWrite) : (s.emit w).fabric = s.fabric := rfl
@[simp] theorem emit_fabricTurn (s : State) (w : HostWrite) : (s.emit w).fabricTurn = s.fabricTurn := rfl
@[simp] theorem emit_triggers (s : State) (w : HostWrite) : (s.emit w).triggers = s.triggers := rfl
@[simp] theorem emit_sync (s : State) (w : HostWrite) : (s.emit w).sync = s.sync := rfl
@[simp] theorem emit_rows (s : State) (w : HostWrite) : (s.emit w).rows = s.rows := rfl
@[simp] theorem emit_loopbacks (s : State) (w : HostWrite) : (s.emit w).loopbacks = s.loopbacks := rfl
@[simp] theorem emit_due (s : State) (w : HostWrite) : (s.emit w).due = s.due := rfl
@[simp] theorem emit_stoveTab (s : State) (w : HostWrite) : (s.emit w).stoveTab = s.stoveTab := rfl
@[simp] theorem emit_pairTab (s : State) (w : HostWrite) : (s.emit w).pairTab = s.pairTab := rfl
@[simp] theorem emit_meter (s : State) (w : HostWrite) : (s.emit w).meter = s.meter := rfl
@[simp] theorem emit_ps (s : State) (w : HostWrite) : (s.emit w).ps = s.ps := rfl
@[simp] theorem emit_prot (s : State) (w : HostWrite) : (s.emit w).prot = s.prot := rfl
@[simp] theorem emit_age (s : State) (w : HostWrite) : (s.emit w).age = s.age := rfl
@[simp] theorem emit_sealImages (s : State) (w : HostWrite) : (s.emit w).sealImages = s.sealImages := rfl
@[simp] theorem emit_fresh (s : State) (w : HostWrite) : (s.emit w).fresh = s.fresh := rfl
@[simp] theorem emit_pending (s : State) (w : HostWrite) : (s.emit w).pending = s.pending := rfl

@[simp] theorem modRing_node (s : State) (f : Ring → Ring) : (s.modRing f).node = s.node := rfl
@[simp] theorem modRing_host (s : State) (f : Ring → Ring) : (s.modRing f).host = s.host := rfl
@[simp] theorem modRing_ring (s : State) (f : Ring → Ring) : (s.modRing f).ring = f s.ring := rfl
@[simp] theorem modRing_trust (s : State) (f : Ring → Ring) : (s.modRing f).trust = s.trust := rfl
@[simp] theorem modRing_roles (s : State) (f : Ring → Ring) : (s.modRing f).roles = s.roles := rfl
@[simp] theorem modRing_clog (s : State) (f : Ring → Ring) : (s.modRing f).clog = s.clog := rfl
@[simp] theorem modRing_faults (s : State) (f : Ring → Ring) : (s.modRing f).faults = s.faults := rfl
@[simp] theorem modRing_logs (s : State) (f : Ring → Ring) : (s.modRing f).logs = s.logs := rfl
@[simp] theorem modRing_tiles (s : State) (f : Ring → Ring) : (s.modRing f).tiles = s.tiles := rfl
@[simp] theorem modRing_groups (s : State) (f : Ring → Ring) : (s.modRing f).groups = s.groups := rfl
@[simp] theorem modRing_pins (s : State) (f : Ring → Ring) : (s.modRing f).pins = s.pins := rfl
@[simp] theorem modRing_jobs (s : State) (f : Ring → Ring) : (s.modRing f).jobs = s.jobs := rfl
@[simp] theorem modRing_fabric (s : State) (f : Ring → Ring) : (s.modRing f).fabric = s.fabric := rfl
@[simp] theorem modRing_fabricTurn (s : State) (f : Ring → Ring) : (s.modRing f).fabricTurn = s.fabricTurn := rfl
@[simp] theorem modRing_triggers (s : State) (f : Ring → Ring) : (s.modRing f).triggers = s.triggers := rfl
@[simp] theorem modRing_sync (s : State) (f : Ring → Ring) : (s.modRing f).sync = s.sync := rfl
@[simp] theorem modRing_rows (s : State) (f : Ring → Ring) : (s.modRing f).rows = s.rows := rfl
@[simp] theorem modRing_loopbacks (s : State) (f : Ring → Ring) : (s.modRing f).loopbacks = s.loopbacks := rfl
@[simp] theorem modRing_due (s : State) (f : Ring → Ring) : (s.modRing f).due = s.due := rfl
@[simp] theorem modRing_stoveTab (s : State) (f : Ring → Ring) : (s.modRing f).stoveTab = s.stoveTab := rfl
@[simp] theorem modRing_pairTab (s : State) (f : Ring → Ring) : (s.modRing f).pairTab = s.pairTab := rfl
@[simp] theorem modRing_meter (s : State) (f : Ring → Ring) : (s.modRing f).meter = s.meter := rfl
@[simp] theorem modRing_ps (s : State) (f : Ring → Ring) : (s.modRing f).ps = s.ps := rfl
@[simp] theorem modRing_prot (s : State) (f : Ring → Ring) : (s.modRing f).prot = s.prot := rfl
@[simp] theorem modRing_age (s : State) (f : Ring → Ring) : (s.modRing f).age = s.age := rfl
@[simp] theorem modRing_sealImages (s : State) (f : Ring → Ring) : (s.modRing f).sealImages = s.sealImages := rfl
@[simp] theorem modRing_fresh (s : State) (f : Ring → Ring) : (s.modRing f).fresh = s.fresh := rfl
@[simp] theorem modRing_pending (s : State) (f : Ring → Ring) : (s.modRing f).pending = s.pending := rfl

@[simp] theorem modTrust_node (s : State) (f : Trust → Trust) : (s.modTrust f).node = s.node := rfl
@[simp] theorem modTrust_host (s : State) (f : Trust → Trust) : (s.modTrust f).host = s.host := rfl
@[simp] theorem modTrust_ring (s : State) (f : Trust → Trust) : (s.modTrust f).ring = s.ring := rfl
@[simp] theorem modTrust_trust (s : State) (f : Trust → Trust) : (s.modTrust f).trust = f s.trust := rfl
@[simp] theorem modTrust_roles (s : State) (f : Trust → Trust) : (s.modTrust f).roles = s.roles := rfl
@[simp] theorem modTrust_clog (s : State) (f : Trust → Trust) : (s.modTrust f).clog = s.clog := rfl
@[simp] theorem modTrust_faults (s : State) (f : Trust → Trust) : (s.modTrust f).faults = s.faults := rfl
@[simp] theorem modTrust_logs (s : State) (f : Trust → Trust) : (s.modTrust f).logs = s.logs := rfl
@[simp] theorem modTrust_tiles (s : State) (f : Trust → Trust) : (s.modTrust f).tiles = s.tiles := rfl
@[simp] theorem modTrust_groups (s : State) (f : Trust → Trust) : (s.modTrust f).groups = s.groups := rfl
@[simp] theorem modTrust_pins (s : State) (f : Trust → Trust) : (s.modTrust f).pins = s.pins := rfl
@[simp] theorem modTrust_jobs (s : State) (f : Trust → Trust) : (s.modTrust f).jobs = s.jobs := rfl
@[simp] theorem modTrust_fabric (s : State) (f : Trust → Trust) : (s.modTrust f).fabric = s.fabric := rfl
@[simp] theorem modTrust_fabricTurn (s : State) (f : Trust → Trust) : (s.modTrust f).fabricTurn = s.fabricTurn := rfl
@[simp] theorem modTrust_triggers (s : State) (f : Trust → Trust) : (s.modTrust f).triggers = s.triggers := rfl
@[simp] theorem modTrust_sync (s : State) (f : Trust → Trust) : (s.modTrust f).sync = s.sync := rfl
@[simp] theorem modTrust_rows (s : State) (f : Trust → Trust) : (s.modTrust f).rows = s.rows := rfl
@[simp] theorem modTrust_loopbacks (s : State) (f : Trust → Trust) : (s.modTrust f).loopbacks = s.loopbacks := rfl
@[simp] theorem modTrust_due (s : State) (f : Trust → Trust) : (s.modTrust f).due = s.due := rfl
@[simp] theorem modTrust_stoveTab (s : State) (f : Trust → Trust) : (s.modTrust f).stoveTab = s.stoveTab := rfl
@[simp] theorem modTrust_pairTab (s : State) (f : Trust → Trust) : (s.modTrust f).pairTab = s.pairTab := rfl
@[simp] theorem modTrust_meter (s : State) (f : Trust → Trust) : (s.modTrust f).meter = s.meter := rfl
@[simp] theorem modTrust_ps (s : State) (f : Trust → Trust) : (s.modTrust f).ps = s.ps := rfl
@[simp] theorem modTrust_prot (s : State) (f : Trust → Trust) : (s.modTrust f).prot = s.prot := rfl
@[simp] theorem modTrust_age (s : State) (f : Trust → Trust) : (s.modTrust f).age = s.age := rfl
@[simp] theorem modTrust_sealImages (s : State) (f : Trust → Trust) : (s.modTrust f).sealImages = s.sealImages := rfl
@[simp] theorem modTrust_fresh (s : State) (f : Trust → Trust) : (s.modTrust f).fresh = s.fresh := rfl
@[simp] theorem modTrust_pending (s : State) (f : Trust → Trust) : (s.modTrust f).pending = s.pending := rfl

@[simp] theorem modRoles_node (s : State) (f : Roles → Roles) : (s.modRoles f).node = s.node := rfl
@[simp] theorem modRoles_host (s : State) (f : Roles → Roles) : (s.modRoles f).host = s.host := rfl
@[simp] theorem modRoles_ring (s : State) (f : Roles → Roles) : (s.modRoles f).ring = s.ring := rfl
@[simp] theorem modRoles_trust (s : State) (f : Roles → Roles) : (s.modRoles f).trust = s.trust := rfl
@[simp] theorem modRoles_roles (s : State) (f : Roles → Roles) : (s.modRoles f).roles = f s.roles := rfl
@[simp] theorem modRoles_clog (s : State) (f : Roles → Roles) : (s.modRoles f).clog = s.clog := rfl
@[simp] theorem modRoles_faults (s : State) (f : Roles → Roles) : (s.modRoles f).faults = s.faults := rfl
@[simp] theorem modRoles_logs (s : State) (f : Roles → Roles) : (s.modRoles f).logs = s.logs := rfl
@[simp] theorem modRoles_tiles (s : State) (f : Roles → Roles) : (s.modRoles f).tiles = s.tiles := rfl
@[simp] theorem modRoles_groups (s : State) (f : Roles → Roles) : (s.modRoles f).groups = s.groups := rfl
@[simp] theorem modRoles_pins (s : State) (f : Roles → Roles) : (s.modRoles f).pins = s.pins := rfl
@[simp] theorem modRoles_jobs (s : State) (f : Roles → Roles) : (s.modRoles f).jobs = s.jobs := rfl
@[simp] theorem modRoles_fabric (s : State) (f : Roles → Roles) : (s.modRoles f).fabric = s.fabric := rfl
@[simp] theorem modRoles_fabricTurn (s : State) (f : Roles → Roles) : (s.modRoles f).fabricTurn = s.fabricTurn := rfl
@[simp] theorem modRoles_triggers (s : State) (f : Roles → Roles) : (s.modRoles f).triggers = s.triggers := rfl
@[simp] theorem modRoles_sync (s : State) (f : Roles → Roles) : (s.modRoles f).sync = s.sync := rfl
@[simp] theorem modRoles_rows (s : State) (f : Roles → Roles) : (s.modRoles f).rows = s.rows := rfl
@[simp] theorem modRoles_loopbacks (s : State) (f : Roles → Roles) : (s.modRoles f).loopbacks = s.loopbacks := rfl
@[simp] theorem modRoles_due (s : State) (f : Roles → Roles) : (s.modRoles f).due = s.due := rfl
@[simp] theorem modRoles_stoveTab (s : State) (f : Roles → Roles) : (s.modRoles f).stoveTab = s.stoveTab := rfl
@[simp] theorem modRoles_pairTab (s : State) (f : Roles → Roles) : (s.modRoles f).pairTab = s.pairTab := rfl
@[simp] theorem modRoles_meter (s : State) (f : Roles → Roles) : (s.modRoles f).meter = s.meter := rfl
@[simp] theorem modRoles_ps (s : State) (f : Roles → Roles) : (s.modRoles f).ps = s.ps := rfl
@[simp] theorem modRoles_prot (s : State) (f : Roles → Roles) : (s.modRoles f).prot = s.prot := rfl
@[simp] theorem modRoles_age (s : State) (f : Roles → Roles) : (s.modRoles f).age = s.age := rfl
@[simp] theorem modRoles_sealImages (s : State) (f : Roles → Roles) : (s.modRoles f).sealImages = s.sealImages := rfl
@[simp] theorem modRoles_fresh (s : State) (f : Roles → Roles) : (s.modRoles f).fresh = s.fresh := rfl
@[simp] theorem modRoles_pending (s : State) (f : Roles → Roles) : (s.modRoles f).pending = s.pending := rfl

@[simp] theorem modProt_node (s : State) (f : Prot → Prot) : (s.modProt f).node = s.node := rfl
@[simp] theorem modProt_host (s : State) (f : Prot → Prot) : (s.modProt f).host = s.host := rfl
@[simp] theorem modProt_ring (s : State) (f : Prot → Prot) : (s.modProt f).ring = s.ring := rfl
@[simp] theorem modProt_trust (s : State) (f : Prot → Prot) : (s.modProt f).trust = s.trust := rfl
@[simp] theorem modProt_roles (s : State) (f : Prot → Prot) : (s.modProt f).roles = s.roles := rfl
@[simp] theorem modProt_clog (s : State) (f : Prot → Prot) : (s.modProt f).clog = s.clog := rfl
@[simp] theorem modProt_faults (s : State) (f : Prot → Prot) : (s.modProt f).faults = s.faults := rfl
@[simp] theorem modProt_logs (s : State) (f : Prot → Prot) : (s.modProt f).logs = s.logs := rfl
@[simp] theorem modProt_tiles (s : State) (f : Prot → Prot) : (s.modProt f).tiles = s.tiles := rfl
@[simp] theorem modProt_groups (s : State) (f : Prot → Prot) : (s.modProt f).groups = s.groups := rfl
@[simp] theorem modProt_pins (s : State) (f : Prot → Prot) : (s.modProt f).pins = s.pins := rfl
@[simp] theorem modProt_jobs (s : State) (f : Prot → Prot) : (s.modProt f).jobs = s.jobs := rfl
@[simp] theorem modProt_fabric (s : State) (f : Prot → Prot) : (s.modProt f).fabric = s.fabric := rfl
@[simp] theorem modProt_fabricTurn (s : State) (f : Prot → Prot) : (s.modProt f).fabricTurn = s.fabricTurn := rfl
@[simp] theorem modProt_triggers (s : State) (f : Prot → Prot) : (s.modProt f).triggers = s.triggers := rfl
@[simp] theorem modProt_sync (s : State) (f : Prot → Prot) : (s.modProt f).sync = s.sync := rfl
@[simp] theorem modProt_rows (s : State) (f : Prot → Prot) : (s.modProt f).rows = s.rows := rfl
@[simp] theorem modProt_loopbacks (s : State) (f : Prot → Prot) : (s.modProt f).loopbacks = s.loopbacks := rfl
@[simp] theorem modProt_due (s : State) (f : Prot → Prot) : (s.modProt f).due = s.due := rfl
@[simp] theorem modProt_stoveTab (s : State) (f : Prot → Prot) : (s.modProt f).stoveTab = s.stoveTab := rfl
@[simp] theorem modProt_pairTab (s : State) (f : Prot → Prot) : (s.modProt f).pairTab = s.pairTab := rfl
@[simp] theorem modProt_meter (s : State) (f : Prot → Prot) : (s.modProt f).meter = s.meter := rfl
@[simp] theorem modProt_ps (s : State) (f : Prot → Prot) : (s.modProt f).ps = s.ps := rfl
@[simp] theorem modProt_prot (s : State) (f : Prot → Prot) : (s.modProt f).prot = f s.prot := rfl
@[simp] theorem modProt_age (s : State) (f : Prot → Prot) : (s.modProt f).age = s.age := rfl
@[simp] theorem modProt_sealImages (s : State) (f : Prot → Prot) : (s.modProt f).sealImages = s.sealImages := rfl
@[simp] theorem modProt_fresh (s : State) (f : Prot → Prot) : (s.modProt f).fresh = s.fresh := rfl
@[simp] theorem modProt_pending (s : State) (f : Prot → Prot) : (s.modProt f).pending = s.pending := rfl

/-! ### The units of the state -/

@[simp] theorem tile_modTile (s : State) (n : Nat) (f : Tile → Tile) : (s.modTile n f).tile n = f (s.tile n) := tget_tmod_same _ _ n f
theorem tile_modTile_ne (s : State) {n i : Nat} (f : Tile → Tile) (h : i ≠ n) : (s.modTile n f).tile i = s.tile i := tget_tmod_ne _ _ f h
@[simp] theorem group_modGroup (s : State) (n : Nat) (f : Group → Group) : (s.modGroup n f).group n = f (s.group n) := tget_tmod_same _ _ n f
theorem group_modGroup_ne (s : State) {n i : Nat} (f : Group → Group) (h : i ≠ n) : (s.modGroup n f).group i = s.group i := tget_tmod_ne _ _ f h
@[simp] theorem pin_modPin (s : State) (n : Nat) (f : Pin → Pin) : (s.modPin n f).pin n = f (s.pin n) := tget_tmod_same _ _ n f
theorem pin_modPin_ne (s : State) {n i : Nat} (f : Pin → Pin) (h : i ≠ n) : (s.modPin n f).pin i = s.pin i := tget_tmod_ne _ _ f h
@[simp] theorem stove_modStove (s : State) (n : Nat) (f : Stove → Stove) : (s.modStove n f).stove n = f (s.stove n) := tget_tmod_same _ _ n f
theorem stove_modStove_ne (s : State) {n i : Nat} (f : Stove → Stove) (h : i ≠ n) : (s.modStove n f).stove i = s.stove i := tget_tmod_ne _ _ f h
@[simp] theorem pair_modPair (s : State) (n : Nat) (f : Pair → Pair) : (s.modPair n f).pair n = f (s.pair n) := tget_tmod_same _ _ n f
theorem pair_modPair_ne (s : State) {n i : Nat} (f : Pair → Pair) (h : i ≠ n) : (s.modPair n f).pair i = s.pair i := tget_tmod_ne _ _ f h
@[simp] theorem bank_modBank (s : State) (n : Nat) (f : PsBank → PsBank) : (s.modBank n f).bank n = f (s.bank n) := tget_tmod_same _ _ n f
theorem bank_modBank_ne (s : State) {n i : Nat} (f : PsBank → PsBank) (h : i ≠ n) : (s.modBank n f).bank i = s.bank i := tget_tmod_ne _ _ f h
@[simp] theorem rowsOf_modRows (s : State) (n : Nat) (f : Rows → Rows) : (s.modRows n f).rowsOf n = f (s.rowsOf n) := tget_tmod_same _ _ n f
theorem rowsOf_modRows_ne (s : State) {n i : Nat} (f : Rows → Rows) (h : i ≠ n) : (s.modRows n f).rowsOf i = s.rowsOf i := tget_tmod_ne _ _ f h
@[simp] theorem faultRec_modRec (s : State) (n : Nat) (f : FaultRec → FaultRec) : (s.modRec n f).faultRec n = f (s.faultRec n) := tget_tmod_same _ _ n f
theorem faultRec_modRec_ne (s : State) {n i : Nat} (f : FaultRec → FaultRec) (h : i ≠ n) : (s.modRec n f).faultRec i = s.faultRec i := tget_tmod_ne _ _ f h
@[simp] theorem dieAge_modAge (s : State) (n : Nat) (f : DieAge → DieAge) : (s.modAge n f).dieAge n = f (s.dieAge n) := tget_tmod_same _ _ n f
theorem dieAge_modAge_ne (s : State) {n i : Nat} (f : DieAge → DieAge) (h : i ≠ n) : (s.modAge n f).dieAge i = s.dieAge i := tget_tmod_ne _ _ f h
@[simp] theorem fn_modFn (s : State) (n : Nat) (f : Fn → Fn) : (s.modFn n f).fn n = f (s.fn n) := tget_tmod_same _ _ n f
theorem fn_modFn_ne (s : State) {n i : Nat} (f : Fn → Fn) (h : i ≠ n) : (s.modFn n f).fn i = s.fn i := tget_tmod_ne _ _ f h
@[simp] theorem queue_modQueue (s : State) (n : Nat) (f : Queue → Queue) : (s.modQueue n f).queue n = f (s.queue n) := tget_tmod_same _ _ n f
theorem queue_modQueue_ne (s : State) {n i : Nat} (f : Queue → Queue) (h : i ≠ n) : (s.modQueue n f).queue i = s.queue i := tget_tmod_ne _ _ f h
@[simp] theorem stream_modStream (s : State) (n : Nat) (f : Stream → Stream) : (s.modStream n f).stream n = f (s.stream n) := tget_tmod_same _ _ n f
theorem stream_modStream_ne (s : State) {n i : Nat} (f : Stream → Stream) (h : i ≠ n) : (s.modStream n f).stream i = s.stream i := tget_tmod_ne _ _ f h

end Sys2Proof.Machine
end

