-- ==== Sys2Proof/Laws/Stove.lean ====
section
/-! SUPPORT. One spec lemma for a stove instruction that issues, and what the decoded instruction says of its word. -/

set_option Elab.async false

namespace Sys2Proof.Machine

/-- An instruction that issues traps with its cause, or is done with its flags, cycles and pc. -/
theorem svStep_issues {sv cyc : Nat} {ok : Nat → Bool} {eff : Effect} {s : State} {i : Instr} {x : Run} (h : s.issues sv i x)
    (hk : ∀ w, stoveDecode sv w = i → ok w = true) : svStep sv cyc ok eff s = match eff s x with
      | .error c => .next (s.trapRun sv c)
      | .ok r => .next (r.st.retires sv x r.flags cyc (r.pc.getD ((x.pc + 4) % 2 ^ 32))) := by
  obtain ⟨h1, h2, h3, h4, h5, h6⟩ := h
  have hk' := hk _ h6
  simp only [svStep, h2, h3, h4, hk', Nat.not_le.mpr h1, Nat.not_le.mpr h5, if_false, Bool.or_false, Bool.not_true,
    Bool.false_eq_true]
  cases eff s x with
  | error c => rfl
  | ok r =>
    simp only [State.retires]
    by_cases hf : r.flags &&& ((r.st.modStove sv (fun v => { v with sticky := v.sticky ||| r.flags })).stove sv).trapMask ≠ 0 <;>
      simp only [hf, ne_eq, not_false_eq_true, if_true, if_false]

/-- The same of exec, where its meaning is that step. -/
theorem exec_issues {sv cyc : Nat} {ok : Nat → Bool} {eff : Effect} {s : State} {i : Instr} {x : Run}
    (hx : exec i s = svStep sv cyc ok eff s) (h : s.issues sv i x) (hk : ∀ w, stoveDecode sv w = i → ok w = true) :
    exec i s = match eff s x with
      | .error c => .next (s.trapRun sv c)
      | .ok r => .next (r.st.retires sv x r.flags cyc (r.pc.getD ((x.pc + 4) % 2 ^ 32))) := by
  rw [hx, svStep_issues h hk]

/-- A register holds 32 bits. -/
theorem Stove.setReg_mod (v : Stove) (i r : Nat) : v.setReg i (r % 2 ^ 32) = v.setReg i r := by
  unfold Stove.setReg
  rw [show BitVec.ofNat 32 (r % 2 ^ 32) = BitVec.ofNat 32 r from BitVec.eq_of_toNat_eq (by simp)]

/-- The opcode of a decoded instruction. -/
def opOf (i : Instr) : Nat :=
  match i with
  | .svNop _ => 0
  | .svAdd _ _ _ _ => 1
  | .svSub _ _ _ _ => 2
  | .svAdds _ _ _ _ => 3
  | .svSubs _ _ _ _ => 4
  | .svAnd _ _ _ _ => 5
  | .svOr _ _ _ _ => 6
  | .svXor _ _ _ _ => 7
  | .svShl _ _ _ _ => 8
  | .svShr _ _ _ _ => 9
  | .svSra _ _ _ _ => 10
  | .svMul _ _ _ _ => 11
  | .svMulh _ _ _ _ => 12
  | .svSin _ _ _ => 13
  | .svSseq _ _ _ => 14
  | .svStim _ _ _ => 15
  | .svAddi _ _ _ _ => 16
  | .svAndi _ _ _ _ => 17
  | .svOri _ _ _ _ => 18
  | .svLui _ _ _ => 19
  | .svShli _ _ _ _ => 20
  | .svShri _ _ _ _ => 21
  | .svSrai _ _ _ _ => 22
  | .svSrr _ _ _ => 23
  | .svLw _ _ _ _ => 24
  | .svSw _ _ _ _ => 25
  | .svBeq _ _ _ _ => 26
  | .svBne _ _ _ _ => 27
  | .svBlt _ _ _ _ => 28
  | .svBge _ _ _ _ => 29
  | .svJal _ _ _ => 30
  | .svJr _ _ => 31
  | .svClamp _ _ _ _ => 32
  | .svRlim _ _ _ _ => 33
  | .svTint _ _ _ _ => 34
  | .svCrc _ _ _ _ => 35
  | .svMacc _ _ _ _ => 36
  | .svMsub _ _ _ _ => 37
  | .svAclr _ _ => 38
  | .svAld _ _ _ _ => 39
  | .svArd _ _ _ _ => 40
  | .svSrw _ _ _ => 41
  | .svFout _ _ _ => 42
  | .svMsg _ _ _ => 43
  | .svQrec _ _ _ => 44
  | .svTripr _ _ => 45
  | .svTrg _ => 46
  | .svEvt _ _ => 47
  | .svFadd _ _ _ _ => 48
  | .svFsub _ _ _ _ => 49
  | .svFmul _ _ _ _ => 50
  | .svFma _ _ _ _ => 51
  | .svFmin _ _ _ _ => 52
  | .svFmax _ _ _ _ => 53
  | .svFabs _ _ _ => 54
  | .svFneg _ _ _ => 55
  | .svFcmp _ _ _ _ _ => 56
  | .svPsreq _ _ => 57
  | .svFdiv _ _ _ _ => 58
  | .svFsqrt _ _ _ => 59
  | .svFcvtsw _ _ _ _ => 60
  | .svFcvtws _ _ _ _ => 61
  | .svEnd _ => 63
  | .svIllegal _ op => op
  | _ => 0x3E

theorem opOf_stoveDecode (sv w : Nat) : opOf (stoveDecode sv w) = w / 67108864 % 64 := by
  unfold stoveDecode
  dsimp only
  simp only [Nat.reducePow] at *
  split <;> simp only [opOf] <;> omega

theorem decoded_svNop (sv w : Nat) (h : stoveDecode sv w = .svNop sv) : (fOp w = 0 : Bool) = true := by
  have e := opOf_stoveDecode sv w
  rw [h] at e
  simp only [opOf] at e
  simp only [stoveDecode, Nat.reducePow, ← e] at h
  cases h
  simp [fOp, bits]
  exact decide_eq_true e.symm
theorem decoded_svAdd {a b c : Nat} (sv w : Nat) (h : stoveDecode sv w = .svAdd sv a b c) : (isR 1 a b c w : Bool) = true := by
  have e := opOf_stoveDecode sv w
  rw [h] at e
  simp only [opOf] at e
  simp only [stoveDecode, Nat.reducePow, ← e] at h
  cases h
  simp [isR, fOp, fA, fB, fC, bits]
  exact decide_eq_true e.symm
theorem decoded_svSub {a b c : Nat} (sv w : Nat) (h : stoveDecode sv w = .svSub sv a b c) : (isR 2 a b c w : Bool) = true := by
  have e := opOf_stoveDecode sv w
  rw [h] at e
  simp only [opOf] at e
  simp only [stoveDecode, Nat.reducePow, ← e] at h
  cases h
  simp [isR, fOp, fA, fB, fC, bits]
  exact decide_eq_true e.symm
theorem decoded_svAdds {a b c : Nat} (sv w : Nat) (h : stoveDecode sv w = .svAdds sv a b c) : (isR 3 a b c w : Bool) = true := by
  have e := opOf_stoveDecode sv w
  rw [h] at e
  simp only [opOf] at e
  simp only [stoveDecode, Nat.reducePow, ← e] at h
  cases h
  simp [isR, fOp, fA, fB, fC, bits]
  exact decide_eq_true e.symm
theorem decoded_svSubs {a b c : Nat} (sv w : Nat) (h : stoveDecode sv w = .svSubs sv a b c) : (isR 4 a b c w : Bool) = true := by
  have e := opOf_stoveDecode sv w
  rw [h] at e
  simp only [opOf] at e
  simp only [stoveDecode, Nat.reducePow, ← e] at h
  cases h
  simp [isR, fOp, fA, fB, fC, bits]
  exact decide_eq_true e.symm
theorem decoded_svAnd {a b c : Nat} (sv w : Nat) (h : stoveDecode sv w = .svAnd sv a b c) : (isR 5 a b c w : Bool) = true := by
  have e := opOf_stoveDecode sv w
  rw [h] at e
  simp only [opOf] at e
  simp only [stoveDecode, Nat.reducePow, ← e] at h
  cases h
  simp [isR, fOp, fA, fB, fC, bits]
  exact decide_eq_true e.symm
theorem decoded_svOr {a b c : Nat} (sv w : Nat) (h : stoveDecode sv w = .svOr sv a b c) : (isR 6 a b c w : Bool) = true := by
  have e := opOf_stoveDecode sv w
  rw [h] at e
  simp only [opOf] at e
  simp only [stoveDecode, Nat.reducePow, ← e] at h
  cases h
  simp [isR, fOp, fA, fB, fC, bits]
  exact decide_eq_true e.symm
theorem decoded_svXor {a b c : Nat} (sv w : Nat) (h : stoveDecode sv w = .svXor sv a b c) : (isR 7 a b c w : Bool) = true := by
  have e := opOf_stoveDecode sv w
  rw [h] at e
  simp only [opOf] at e
  simp only [stoveDecode, Nat.reducePow, ← e] at h
  cases h
  simp [isR, fOp, fA, fB, fC, bits]
  exact decide_eq_true e.symm
theorem decoded_svShl {a b c : Nat} (sv w : Nat) (h : stoveDecode sv w = .svShl sv a b c) : (isR 8 a b c w : Bool) = true := by
  have e := opOf_stoveDecode sv w
  rw [h] at e
  simp only [opOf] at e
  simp only [stoveDecode, Nat.reducePow, ← e] at h
  cases h
  simp [isR, fOp, fA, fB, fC, bits]
  exact decide_eq_true e.symm
theorem decoded_svShr {a b c : Nat} (sv w : Nat) (h : stoveDecode sv w = .svShr sv a b c) : (isR 9 a b c w : Bool) = true := by
  have e := opOf_stoveDecode sv w
  rw [h] at e
  simp only [opOf] at e
  simp only [stoveDecode, Nat.reducePow, ← e] at h
  cases h
  simp [isR, fOp, fA, fB, fC, bits]
  exact decide_eq_true e.symm
theorem decoded_svSra {a b c : Nat} (sv w : Nat) (h : stoveDecode sv w = .svSra sv a b c) : (isR 10 a b c w : Bool) = true := by
  have e := opOf_stoveDecode sv w
  rw [h] at e
  simp only [opOf] at e
  simp only [stoveDecode, Nat.reducePow, ← e] at h
  cases h
  simp [isR, fOp, fA, fB, fC, bits]
  exact decide_eq_true e.symm
theorem decoded_svMul {a b c : Nat} (sv w : Nat) (h : stoveDecode sv w = .svMul sv a b c) : (isR 11 a b c w : Bool) = true := by
  have e := opOf_stoveDecode sv w
  rw [h] at e
  simp only [opOf] at e
  simp only [stoveDecode, Nat.reducePow, ← e] at h
  cases h
  simp [isR, fOp, fA, fB, fC, bits]
  exact decide_eq_true e.symm
theorem decoded_svMulh {a b c : Nat} (sv w : Nat) (h : stoveDecode sv w = .svMulh sv a b c) : (isR 12 a b c w : Bool) = true := by
  have e := opOf_stoveDecode sv w
  rw [h] at e
  simp only [opOf] at e
  simp only [stoveDecode, Nat.reducePow, ← e] at h
  cases h
  simp [isR, fOp, fA, fB, fC, bits]
  exact decide_eq_true e.symm
theorem decoded_svSin {a imm : Nat} (sv w : Nat) (h : stoveDecode sv w = .svSin sv a imm) : (isAI 13 a imm w : Bool) = true := by
  have e := opOf_stoveDecode sv w
  rw [h] at e
  simp only [opOf] at e
  simp only [stoveDecode, Nat.reducePow, ← e] at h
  cases h
  simp [isAI, fOp, fA, fImm, bits]
  exact decide_eq_true e.symm
theorem decoded_svSseq {a imm : Nat} (sv w : Nat) (h : stoveDecode sv w = .svSseq sv a imm) : (isAI 14 a imm w : Bool) = true := by
  have e := opOf_stoveDecode sv w
  rw [h] at e
  simp only [opOf] at e
  simp only [stoveDecode, Nat.reducePow, ← e] at h
  cases h
  simp [isAI, fOp, fA, fImm, bits]
  exact decide_eq_true e.symm
theorem decoded_svStim {a imm : Nat} (sv w : Nat) (h : stoveDecode sv w = .svStim sv a imm) : (isAI 15 a imm w : Bool) = true := by
  have e := opOf_stoveDecode sv w
  rw [h] at e
  simp only [opOf] at e
  simp only [stoveDecode, Nat.reducePow, ← e] at h
  cases h
  simp [isAI, fOp, fA, fImm, bits]
  exact decide_eq_true e.symm
theorem decoded_svAddi {a b imm : Nat} (sv w : Nat) (h : stoveDecode sv w = .svAddi sv a b imm) : (isI 16 a b imm w : Bool) = true := by
  have e := opOf_stoveDecode sv w
  rw [h] at e
  simp only [opOf] at e
  simp only [stoveDecode, Nat.reducePow, ← e] at h
  cases h
  simp [isI, fOp, fA, fB, fImm, bits]
  exact decide_eq_true e.symm
theorem decoded_svAndi {a b imm : Nat} (sv w : Nat) (h : stoveDecode sv w = .svAndi sv a b imm) : (isI 17 a b imm w : Bool) = true := by
  have e := opOf_stoveDecode sv w
  rw [h] at e
  simp only [opOf] at e
  simp only [stoveDecode, Nat.reducePow, ← e] at h
  cases h
  simp [isI, fOp, fA, fB, fImm, bits]
  exact decide_eq_true e.symm
theorem decoded_svOri {a b imm : Nat} (sv w : Nat) (h : stoveDecode sv w = .svOri sv a b imm) : (isI 18 a b imm w : Bool) = true := by
  have e := opOf_stoveDecode sv w
  rw [h] at e
  simp only [opOf] at e
  simp only [stoveDecode, Nat.reducePow, ← e] at h
  cases h
  simp [isI, fOp, fA, fB, fImm, bits]
  exact decide_eq_true e.symm
theorem decoded_svLui {a imm : Nat} (sv w : Nat) (h : stoveDecode sv w = .svLui sv a imm) : (isAI 19 a imm w : Bool) = true := by
  have e := opOf_stoveDecode sv w
  rw [h] at e
  simp only [opOf] at e
  simp only [stoveDecode, Nat.reducePow, ← e] at h
  cases h
  simp [isAI, fOp, fA, fImm, bits]
  exact decide_eq_true e.symm
theorem decoded_svShli {a b imm : Nat} (sv w : Nat) (h : stoveDecode sv w = .svShli sv a b imm) : (isI 20 a b imm w : Bool) = true := by
  have e := opOf_stoveDecode sv w
  rw [h] at e
  simp only [opOf] at e
  simp only [stoveDecode, Nat.reducePow, ← e] at h
  cases h
  simp [isI, fOp, fA, fB, fImm, bits]
  exact decide_eq_true e.symm
theorem decoded_svShri {a b imm : Nat} (sv w : Nat) (h : stoveDecode sv w = .svShri sv a b imm) : (isI 21 a b imm w : Bool) = true := by
  have e := opOf_stoveDecode sv w
  rw [h] at e
  simp only [opOf] at e
  simp only [stoveDecode, Nat.reducePow, ← e] at h
  cases h
  simp [isI, fOp, fA, fB, fImm, bits]
  exact decide_eq_true e.symm
theorem decoded_svSrai {a b imm : Nat} (sv w : Nat) (h : stoveDecode sv w = .svSrai sv a b imm) : (isI 22 a b imm w : Bool) = true := by
  have e := opOf_stoveDecode sv w
  rw [h] at e
  simp only [opOf] at e
  simp only [stoveDecode, Nat.reducePow, ← e] at h
  cases h
  simp [isI, fOp, fA, fB, fImm, bits]
  exact decide_eq_true e.symm
theorem decoded_svSrr {a imm : Nat} (sv w : Nat) (h : stoveDecode sv w = .svSrr sv a imm) : (isAI 23 a imm w : Bool) = true := by
  have e := opOf_stoveDecode sv w
  rw [h] at e
  simp only [opOf] at e
  simp only [stoveDecode, Nat.reducePow, ← e] at h
  cases h
  simp [isAI, fOp, fA, fImm, bits]
  exact decide_eq_true e.symm
theorem decoded_svLw {a b imm : Nat} (sv w : Nat) (h : stoveDecode sv w = .svLw sv a b imm) : (isI 24 a b imm w : Bool) = true := by
  have e := opOf_stoveDecode sv w
  rw [h] at e
  simp only [opOf] at e
  simp only [stoveDecode, Nat.reducePow, ← e] at h
  cases h
  simp [isI, fOp, fA, fB, fImm, bits]
  exact decide_eq_true e.symm
theorem decoded_svSw {a b imm : Nat} (sv w : Nat) (h : stoveDecode sv w = .svSw sv a b imm) : (isI 25 a b imm w : Bool) = true := by
  have e := opOf_stoveDecode sv w
  rw [h] at e
  simp only [opOf] at e
  simp only [stoveDecode, Nat.reducePow, ← e] at h
  cases h
  simp [isI, fOp, fA, fB, fImm, bits]
  exact decide_eq_true e.symm
theorem decoded_svBeq {a b imm : Nat} (sv w : Nat) (h : stoveDecode sv w = .svBeq sv a b imm) : (isI 26 a b imm w : Bool) = true := by
  have e := opOf_stoveDecode sv w
  rw [h] at e
  simp only [opOf] at e
  simp only [stoveDecode, Nat.reducePow, ← e] at h
  cases h
  simp [isI, fOp, fA, fB, fImm, bits]
  exact decide_eq_true e.symm
theorem decoded_svBne {a b imm : Nat} (sv w : Nat) (h : stoveDecode sv w = .svBne sv a b imm) : (isI 27 a b imm w : Bool) = true := by
  have e := opOf_stoveDecode sv w
  rw [h] at e
  simp only [opOf] at e
  simp only [stoveDecode, Nat.reducePow, ← e] at h
  cases h
  simp [isI, fOp, fA, fB, fImm, bits]
  exact decide_eq_true e.symm
theorem decoded_svBlt {a b imm : Nat} (sv w : Nat) (h : stoveDecode sv w = .svBlt sv a b imm) : (isI 28 a b imm w : Bool) = true := by
  have e := opOf_stoveDecode sv w
  rw [h] at e
  simp only [opOf] at e
  simp only [stoveDecode, Nat.reducePow, ← e] at h
  cases h
  simp [isI, fOp, fA, fB, fImm, bits]
  exact decide_eq_true e.symm
theorem decoded_svBge {a b imm : Nat} (sv w : Nat) (h : stoveDecode sv w = .svBge sv a b imm) : (isI 29 a b imm w : Bool) = true := by
  have e := opOf_stoveDecode sv w
  rw [h] at e
  simp only [opOf] at e
  simp only [stoveDecode, Nat.reducePow, ← e] at h
  cases h
  simp [isI, fOp, fA, fB, fImm, bits]
  exact decide_eq_true e.symm
theorem decoded_svJal {a imm : Nat} (sv w : Nat) (h : stoveDecode sv w = .svJal sv a imm) : (isAI 30 a imm w : Bool) = true := by
  have e := opOf_stoveDecode sv w
  rw [h] at e
  simp only [opOf] at e
  simp only [stoveDecode, Nat.reducePow, ← e] at h
  cases h
  simp [isAI, fOp, fA, fImm, bits]
  exact decide_eq_true e.symm
theorem decoded_svJr {a : Nat} (sv w : Nat) (h : stoveDecode sv w = .svJr sv a) : (isA 31 a w : Bool) = true := by
  have e := opOf_stoveDecode sv w
  rw [h] at e
  simp only [opOf] at e
  simp only [stoveDecode, Nat.reducePow, ← e] at h
  cases h
  simp [isA, fOp, fA, bits]
  exact decide_eq_true e.symm
theorem decoded_svClamp {a b c : Nat} (sv w : Nat) (h : stoveDecode sv w = .svClamp sv a b c) : (isR 32 a b c w : Bool) = true := by
  have e := opOf_stoveDecode sv w
  rw [h] at e
  simp only [opOf] at e
  simp only [stoveDecode, Nat.reducePow, ← e] at h
  cases h
  simp [isR, fOp, fA, fB, fC, bits]
  exact decide_eq_true e.symm
theorem decoded_svRlim {a b c : Nat} (sv w : Nat) (h : stoveDecode sv w = .svRlim sv a b c) : (isR 33 a b c w : Bool) = true := by
  have e := opOf_stoveDecode sv w
  rw [h] at e
  simp only [opOf] at e
  simp only [stoveDecode, Nat.reducePow, ← e] at h
  cases h
  simp [isR, fOp, fA, fB, fC, bits]
  exact decide_eq_true e.symm
theorem decoded_svTint {a b c : Nat} (sv w : Nat) (h : stoveDecode sv w = .svTint sv a b c) : (isR 34 a b c w : Bool) = true := by
  have e := opOf_stoveDecode sv w
  rw [h] at e
  simp only [opOf] at e
  simp only [stoveDecode, Nat.reducePow, ← e] at h
  cases h
  simp [isR, fOp, fA, fB, fC, bits]
  exact decide_eq_true e.symm
theorem decoded_svCrc {a b imm : Nat} (sv w : Nat) (h : stoveDecode sv w = .svCrc sv a b imm) : (isI 35 a b imm w : Bool) = true := by
  have e := opOf_stoveDecode sv w
  rw [h] at e
  simp only [opOf] at e
  simp only [stoveDecode, Nat.reducePow, ← e] at h
  cases h
  simp [isI, fOp, fA, fB, fImm, bits]
  exact decide_eq_true e.symm
theorem decoded_svMacc {a b c : Nat} (sv w : Nat) (h : stoveDecode sv w = .svMacc sv a b c) : (isR 36 a b c w : Bool) = true := by
  have e := opOf_stoveDecode sv w
  rw [h] at e
  simp only [opOf] at e
  simp only [stoveDecode, Nat.reducePow, ← e] at h
  cases h
  simp [isR, fOp, fA, fB, fC, bits]
  exact decide_eq_true e.symm
theorem decoded_svMsub {a b c : Nat} (sv w : Nat) (h : stoveDecode sv w = .svMsub sv a b c) : (isR 37 a b c w : Bool) = true := by
  have e := opOf_stoveDecode sv w
  rw [h] at e
  simp only [opOf] at e
  simp only [stoveDecode, Nat.reducePow, ← e] at h
  cases h
  simp [isR, fOp, fA, fB, fC, bits]
  exact decide_eq_true e.symm
theorem decoded_svAclr {a : Nat} (sv w : Nat) (h : stoveDecode sv w = .svAclr sv a) : (isA 38 a w : Bool) = true := by
  have e := opOf_stoveDecode sv w
  rw [h] at e
  simp only [opOf] at e
  simp only [stoveDecode, Nat.reducePow, ← e] at h
  cases h
  simp [isA, fOp, fA, bits]
  exact decide_eq_true e.symm
theorem decoded_svAld {a b c : Nat} (sv w : Nat) (h : stoveDecode sv w = .svAld sv a b c) : (isR 39 a b c w : Bool) = true := by
  have e := opOf_stoveDecode sv w
  rw [h] at e
  simp only [opOf] at e
  simp only [stoveDecode, Nat.reducePow, ← e] at h
  cases h
  simp [isR, fOp, fA, fB, fC, bits]
  exact decide_eq_true e.symm
theorem decoded_svArd {a b imm : Nat} (sv w : Nat) (h : stoveDecode sv w = .svArd sv a b imm) : (isI 40 a b imm w : Bool) = true := by
  have e := opOf_stoveDecode sv w
  rw [h] at e
  simp only [opOf] at e
  simp only [stoveDecode, Nat.reducePow, ← e] at h
  cases h
  simp [isI, fOp, fA, fB, fImm, bits]
  exact decide_eq_true e.symm
theorem decoded_svSrw {a imm : Nat} (sv w : Nat) (h : stoveDecode sv w = .svSrw sv a imm) : (isAI 41 a imm w : Bool) = true := by
  have e := opOf_stoveDecode sv w
  rw [h] at e
  simp only [opOf] at e
  simp only [stoveDecode, Nat.reducePow, ← e] at h
  cases h
  simp [isAI, fOp, fA, fImm, bits]
  exact decide_eq_true e.symm
theorem decoded_svFout {a imm : Nat} (sv w : Nat) (h : stoveDecode sv w = .svFout sv a imm) : (isAI 42 a imm w : Bool) = true := by
  have e := opOf_stoveDecode sv w
  rw [h] at e
  simp only [opOf] at e
  simp only [stoveDecode, Nat.reducePow, ← e] at h
  cases h
  simp [isAI, fOp, fA, fImm, bits]
  exact decide_eq_true e.symm
theorem decoded_svMsg {a imm : Nat} (sv w : Nat) (h : stoveDecode sv w = .svMsg sv a imm) : (isAI 43 a imm w : Bool) = true := by
  have e := opOf_stoveDecode sv w
  rw [h] at e
  simp only [opOf] at e
  simp only [stoveDecode, Nat.reducePow, ← e] at h
  cases h
  simp [isAI, fOp, fA, fImm, bits]
  exact decide_eq_true e.symm
theorem decoded_svQrec {a imm : Nat} (sv w : Nat) (h : stoveDecode sv w = .svQrec sv a imm) : (isAI 44 a imm w : Bool) = true := by
  have e := opOf_stoveDecode sv w
  rw [h] at e
  simp only [opOf] at e
  simp only [stoveDecode, Nat.reducePow, ← e] at h
  cases h
  simp [isAI, fOp, fA, fImm, bits]
  exact decide_eq_true e.symm
theorem decoded_svTripr {a : Nat} (sv w : Nat) (h : stoveDecode sv w = .svTripr sv a) : (isA 45 a w : Bool) = true := by
  have e := opOf_stoveDecode sv w
  rw [h] at e
  simp only [opOf] at e
  simp only [stoveDecode, Nat.reducePow, ← e] at h
  cases h
  simp [isA, fOp, fA, bits]
  exact decide_eq_true e.symm
theorem decoded_svTrg (sv w : Nat) (h : stoveDecode sv w = .svTrg sv) : (fOp w = 46 : Bool) = true := by
  have e := opOf_stoveDecode sv w
  rw [h] at e
  simp only [opOf] at e
  simp only [stoveDecode, Nat.reducePow, ← e] at h
  cases h
  simp [fOp, bits]
  exact decide_eq_true e.symm
theorem decoded_svEvt {a : Nat} (sv w : Nat) (h : stoveDecode sv w = .svEvt sv a) : (isA 47 a w : Bool) = true := by
  have e := opOf_stoveDecode sv w
  rw [h] at e
  simp only [opOf] at e
  simp only [stoveDecode, Nat.reducePow, ← e] at h
  cases h
  simp [isA, fOp, fA, bits]
  exact decide_eq_true e.symm
theorem decoded_svFadd {a b c : Nat} (sv w : Nat) (h : stoveDecode sv w = .svFadd sv a b c) : (isR 48 a b c w : Bool) = true := by
  have e := opOf_stoveDecode sv w
  rw [h] at e
  simp only [opOf] at e
  simp only [stoveDecode, Nat.reducePow, ← e] at h
  cases h
  simp [isR, fOp, fA, fB, fC, bits]
  exact decide_eq_true e.symm
theorem decoded_svFsub {a b c : Nat} (sv w : Nat) (h : stoveDecode sv w = .svFsub sv a b c) : (isR 49 a b c w : Bool) = true := by
  have e := opOf_stoveDecode sv w
  rw [h] at e
  simp only [opOf] at e
  simp only [stoveDecode, Nat.reducePow, ← e] at h
  cases h
  simp [isR, fOp, fA, fB, fC, bits]
  exact decide_eq_true e.symm
theorem decoded_svFmul {a b c : Nat} (sv w : Nat) (h : stoveDecode sv w = .svFmul sv a b c) : (isR 50 a b c w : Bool) = true := by
  have e := opOf_stoveDecode sv w
  rw [h] at e
  simp only [opOf] at e
  simp only [stoveDecode, Nat.reducePow, ← e] at h
  cases h
  simp [isR, fOp, fA, fB, fC, bits]
  exact decide_eq_true e.symm
theorem decoded_svFma {a b c : Nat} (sv w : Nat) (h : stoveDecode sv w = .svFma sv a b c) : (isR 51 a b c w : Bool) = true := by
  have e := opOf_stoveDecode sv w
  rw [h] at e
  simp only [opOf] at e
  simp only [stoveDecode, Nat.reducePow, ← e] at h
  cases h
  simp [isR, fOp, fA, fB, fC, bits]
  exact decide_eq_true e.symm
theorem decoded_svFmin {a b c : Nat} (sv w : Nat) (h : stoveDecode sv w = .svFmin sv a b c) : (isR 52 a b c w : Bool) = true := by
  have e := opOf_stoveDecode sv w
  rw [h] at e
  simp only [opOf] at e
  simp only [stoveDecode, Nat.reducePow, ← e] at h
  cases h
  simp [isR, fOp, fA, fB, fC, bits]
  exact decide_eq_true e.symm
theorem decoded_svFmax {a b c : Nat} (sv w : Nat) (h : stoveDecode sv w = .svFmax sv a b c) : (isR 53 a b c w : Bool) = true := by
  have e := opOf_stoveDecode sv w
  rw [h] at e
  simp only [opOf] at e
  simp only [stoveDecode, Nat.reducePow, ← e] at h
  cases h
  simp [isR, fOp, fA, fB, fC, bits]
  exact decide_eq_true e.symm
theorem decoded_svFabs {a b : Nat} (sv w : Nat) (h : stoveDecode sv w = .svFabs sv a b) : ((fOp w = 54 && fA w = a && fB w = b) : Bool) = true := by
  have e := opOf_stoveDecode sv w
  rw [h] at e
  simp only [opOf] at e
  simp only [stoveDecode, Nat.reducePow, ← e] at h
  cases h
  simp [fOp, fA, fB, bits]
  exact decide_eq_true e.symm
theorem decoded_svFneg {a b : Nat} (sv w : Nat) (h : stoveDecode sv w = .svFneg sv a b) : ((fOp w = 55 && fA w = a && fB w = b) : Bool) = true := by
  have e := opOf_stoveDecode sv w
  rw [h] at e
  simp only [opOf] at e
  simp only [stoveDecode, Nat.reducePow, ← e] at h
  cases h
  simp [fOp, fA, fB, bits]
  exact decide_eq_true e.symm
theorem decoded_svFcmp {a b c x : Nat} (sv w : Nat) (h : stoveDecode sv w = .svFcmp sv a b c x) : ((isR 56 a b c w && bits w 9 2 = x) : Bool) = true := by
  have e := opOf_stoveDecode sv w
  rw [h] at e
  simp only [opOf] at e
  simp only [stoveDecode, Nat.reducePow, ← e] at h
  cases h
  simp [isR, fOp, fA, fB, fC, bits]
  exact decide_eq_true e.symm
theorem decoded_svPsreq {a : Nat} (sv w : Nat) (h : stoveDecode sv w = .svPsreq sv a) : (isA 57 a w : Bool) = true := by
  have e := opOf_stoveDecode sv w
  rw [h] at e
  simp only [opOf] at e
  simp only [stoveDecode, Nat.reducePow, ← e] at h
  cases h
  simp [isA, fOp, fA, bits]
  exact decide_eq_true e.symm
theorem decoded_svFdiv {a b c : Nat} (sv w : Nat) (h : stoveDecode sv w = .svFdiv sv a b c) : (isR 58 a b c w : Bool) = true := by
  have e := opOf_stoveDecode sv w
  rw [h] at e
  simp only [opOf] at e
  simp only [stoveDecode, Nat.reducePow, ← e] at h
  cases h
  simp [isR, fOp, fA, fB, fC, bits]
  exact decide_eq_true e.symm
theorem decoded_svFsqrt {a b : Nat} (sv w : Nat) (h : stoveDecode sv w = .svFsqrt sv a b) : ((fOp w = 59 && fA w = a && fB w = b) : Bool) = true := by
  have e := opOf_stoveDecode sv w
  rw [h] at e
  simp only [opOf] at e
  simp only [stoveDecode, Nat.reducePow, ← e] at h
  cases h
  simp [fOp, fA, fB, bits]
  exact decide_eq_true e.symm
theorem decoded_svFcvtsw {a b imm : Nat} (sv w : Nat) (h : stoveDecode sv w = .svFcvtsw sv a b imm) : (isI 60 a b imm w : Bool) = true := by
  have e := opOf_stoveDecode sv w
  rw [h] at e
  simp only [opOf] at e
  simp only [stoveDecode, Nat.reducePow, ← e] at h
  cases h
  simp [isI, fOp, fA, fB, fImm, bits]
  exact decide_eq_true e.symm
theorem decoded_svFcvtws {a b imm : Nat} (sv w : Nat) (h : stoveDecode sv w = .svFcvtws sv a b imm) : (isI 61 a b imm w : Bool) = true := by
  have e := opOf_stoveDecode sv w
  rw [h] at e
  simp only [opOf] at e
  simp only [stoveDecode, Nat.reducePow, ← e] at h
  cases h
  simp [isI, fOp, fA, fB, fImm, bits]
  exact decide_eq_true e.symm
theorem decoded_svEnd (sv w : Nat) (h : stoveDecode sv w = .svEnd sv) : (fOp w = 63 : Bool) = true := by
  have e := opOf_stoveDecode sv w
  rw [h] at e
  simp only [opOf] at e
  simp only [stoveDecode, Nat.reducePow, ← e] at h
  cases h
  simp [fOp, bits]
  exact decide_eq_true e.symm

end Sys2Proof.Machine
end

