-- ==== Sys2Proof/Laws/Units.lean ====
section
/-! SUPPORT. What the host interface and the ring do to the units behind them: nothing. One lemma for each shared operation; a read of host memory
that fails is reported (R359), and `State.units` leaves that report out. -/

set_option Elab.async false

namespace Sys2Proof.Machine

@[simp] theorem units_modFn (s : State) (f : Nat) (g : Fn → Fn) : (s.modFn f g).units = s.units := rfl
@[simp] theorem units_modQueue (s : State) (q : Nat) (g : Queue → Queue) : (s.modQueue q g).units = s.units := rfl
@[simp] theorem units_modVec (s : State) (f v : Nat) (g : Vec → Vec) : (s.modVec f v g).units = s.units := rfl
@[simp] theorem units_emit (s : State) (w : HostWrite) : (s.emit w).units = s.units := rfl
@[simp] theorem units_spend (s : State) (f n : Nat) : (s.spend f n).units = s.units := rfl
@[simp] theorem units_queueLost (s : State) (q n : Nat) : (s.queueLost q n).units = s.units := rfl
@[simp] theorem units_tlbInsert (s : State) (t : TlbEntry) : (s.tlbInsert t).units = s.units := by
  simp only [State.tlbInsert, State.units]
@[simp] theorem units_touchSession (s : State) (r : Req) : (s.touchSession r).units = s.units := rfl
@[simp] theorem units_taken (s : State) (r : Req) : (s.taken r).units = s.units := rfl

@[simp] theorem units_report_hostRead (s : State) (inst detail : Nat) : (s.report 0x1D inst detail).units = s.units := by
  simp [State.report, State.units, List.filter_append]

@[simp] theorem units_sendFrame (s : State) (f : FrameOut) : (s.sendFrame f).units = s.units := by
  unfold State.sendFrame
  dsimp only
  split
  · rfl
  · split
    · rfl
    · split <;> rfl

@[simp] theorem units_sendAcked (s : State) (t : FrameType) (d b : Nat) : (s.sendAcked t d b).units = s.units := by
  rw [← units_sendFrame s { type := t, dst := some d, aux := (s.ring.tag + 1) % 2 ^ 32, body := b }]
  rfl

@[simp] theorem units_replaceEvent (s : State) (f q : Nat) (e : EventRec) : (s.replaceEvent f q e).units = s.units := by
  unfold State.replaceEvent
  dsimp only
  generalize (if (s.queue q).policy then _ else _) = o
  cases o <;> simp

@[simp] theorem units_deliverEvent (s : State) (e : EventRec) : (s.deliverEvent e).units = s.units := by
  unfold State.deliverEvent
  dsimp only
  split
  · rfl
  · split
    · rfl
    · split <;> simp

@[simp] theorem units_raise (s : State) (c h j d : Nat) : (s.raise c h j d).units = s.units := by
  unfold State.raise State.raiseHeld
  split <;> simp

@[simp] theorem units_stopQueue (s : State) (q e : Nat) : (s.stopQueue q e).units = s.units := by
  unfold State.stopQueue
  dsimp only
  split <;> simp

@[simp] theorem units_lmapFault (s : State) (f q j a e : Nat) : (s.lmapFault f q j a e).units = s.units := by
  unfold State.lmapFault
  split <;> simp

@[simp] theorem units_stopAccess (s : State) (f q a e : Nat) : (s.stopAccess f q a e).units = s.units := by
  unfold State.stopAccess
  split <;> simp

@[simp] theorem units_writeBack (s : State) (c : List Host.Cell) (q : Nat) (l : Bool) : (s.writeBack c q l).units = s.units := by
  unfold State.writeBack
  dsimp only
  split <;> simp

@[simp] theorem units_endQueue (s : State) (c : List Host.Cell) (q : Nat) : (s.endQueue c q).units = s.units :=
  units_writeBack s c q false

@[simp] theorem units_adminRest (s : State) (f : Nat) : (s.adminRest f).units = s.units := by
  unfold State.adminRest
  split <;> rfl

@[simp] theorem units_finishOne (s : State) (r : Req) (x : Status) (v : Nat) : (s.finishOne r x v).units = s.units := by
  unfold State.finishOne
  dsimp only
  split
  · exact units_sendAcked _ _ _ _
  · split
    · rfl
    · split <;> split <;> (try rw [units_adminRest]) <;> rfl

@[simp] theorem units_finish (s : State) (r : Req) (x : Status) (v : Nat) : (s.finish r x v).units = s.units := by
  have h := units_finishOne s r x v
  generalize hu : s.finishOne r x v = u at h
  unfold State.finish
  rw [hu]
  dsimp only
  split
  · exact h
  · rename_i o _
    have h2 : ({ u with host := { u.host with ops := u.host.ops.erase o } } : State).units = s.units := h
    split <;> split <;> first
      | exact h
      | exact (units_endQueue _ _ _).trans ((units_finishOne _ _ _ _).trans h2)
      | exact (units_finishOne _ _ _ _).trans ((units_endQueue _ _ _).trans h2)

/-- A command's pages are translated, and where one does not translate the fault is raised: no unit changes. -/
theorem units_translateAll (s : State) (c : List Host.Cell) (f : Nat) (w : Bool) (l : List Nat) : (s.translateAll c f w l).1.units = s.units := by
  induction l generalizing s with
  | nil => rfl
  | cons a t ih =>
    unfold State.translateAll
    split
    · rfl
    · rw [ih, units_tlbInsert]

@[simp] theorem units_mapData (s : State) (r : Req) (l : List DataRange) : (s.mapData r l).1.units = s.units := by
  induction l generalizing s with
  | nil => rfl
  | cons d t ih =>
    unfold State.mapData
    split
    · rfl
    · split
      · exact ih s
      · have h := units_translateAll s r.host r.fn d.wr d.pages
        split
        · rename_i u a e he
          rw [he] at h
          simpa using h
        · rename_i u he
          rw [he] at h
          split
          · simpa using h
          · rw [ih]; split <;> simpa using h

/-- A result record goes to host memory, or in a frame to the manager. -/
@[simp] theorem units_writeResult (s : State) (r : Req) (a n v : Nat) : (s.writeResult r a n v).units = s.units := by
  unfold State.writeResult
  split
  · split <;> simp
  · simp

end Sys2Proof.Machine
end

