-- ==== Sys2Proof/Tests/Slice0.lean ====
section
/-! SUPPORT. The model's own tests: an ill-formed command for each check of WellFormed; values the spec states; and for every statement
with hypotheses a state and operands that meet them, clause by clause. -/

set_option Elab.async false

open Sys2Proof Sys2Proof.Machine

namespace Sys2Proof.Tests

/-! ### An ill-formed command for each check -/

theorem test_wf_refuses_units :
    (Instr.wf (.kindleDie 8) || Instr.wf (.conversion 256 0 0 {} 0) || Instr.wf (.calPassDone 1056 ⟨[], [], [], [], [], 0, 0, 0⟩)
      || Instr.wf (.swapInstant 255 2) || Instr.wf (.trackingDone 32) || Instr.wf (.svNop 32) || Instr.wf (.portWordArrival 31 16 false)
      || Instr.wf (.alignWaitTimeout 31 8) || Instr.wf (.psOpStart 16) || Instr.wf (.pairStart 64) || Instr.wf (.clrDbVf 8)
      || Instr.wf (.heartbeatTimer 64) || Instr.wf (.tripLoopChange 3) || Instr.wf (.gaugeRead 7 16 0) || Instr.wf (.resetRelease 4)) = false := by
  decide +kernel

theorem test_wf_refuses_stove_fields :
    (Instr.wf (.svAdd 31 32 0 0) || Instr.wf (.svAdd 31 0 32 0) || Instr.wf (.svAdd 31 0 0 32) || Instr.wf (.svAddi 31 0 0 65536)
      || Instr.wf (.svFcmp 31 0 0 0 4) || Instr.wf (.svIllegal 31 64)) = false := by
  decide +kernel

theorem test_wf_refuses_host :
    (Instr.wf (.flr 9) || Instr.wf (.completionTimeout 262144) || Instr.wf (.msixUnmask 8 256)
      || Instr.wf (.devIdentify { fn := 9, qid := 0, entry := 0 }) || Instr.wf (.devIdentify { fn := 0, qid := 262144, entry := 0 })
      || Instr.wf (.devIdentify { fn := 0, qid := 0, entry := 0, host := [(1, 0), (1, 0)] })
      || Instr.wf (.devIdentify { fn := 0, qid := 0, entry := 0, origin := .frame 4294967296 0 })
      || Instr.wf (.devIdentify { fn := 0, qid := 0, entry := 0, origin := .frame 0 3 })) = false := by
  decide +kernel

theorem test_wf_refuses_frames :
    (Instr.wf (.rxLog 64 false 0) || Instr.wf (.rxSync 4294967296 0 0) || Instr.wf (.rxTrigger 63 0 1024 0) || Instr.wf (.rxAck 63 4294967296)
      || Instr.wf (.rxCmd 63 0 { kind := 9 }) || Instr.wf (.rxCmd 63 0 { fn := 9 }) || Instr.wf (.rxCmd 63 0 { right := 3 })
      || Instr.wf (.rxCmd 63 0 { arg := 256 }) || Instr.wf (.rxCmd 63 0 { host := [(2, 0), (1, 0)] })) = false := by
  decide +kernel

/-! ### Values that the spec states -/

/-- The vectors of R107. -/
theorem test_R107_words :
    rawWord 0 0 = 0 ∧ rawWord 1 0 = 0x00004080 ∧ rawWord (-1) 0 = 0xFFFFC000 ∧ rawWord 131071 0 = 0x7FFFC080
    ∧ rawWord 131071 fOVR = 0x7FFFC001 ∧ rawWord (-131072) fOVR = 0x80000001 ∧ rawWord 32000 0 = 0x1F400000
    ∧ rawWord 32000 fSPR = 0x1F4000A0 ∧ filteredWord 8388607 fOVR = 0x7FFFFF01 ∧ filteredWord 8388607 fFOVF = 0x7FFFFF02
    ∧ filteredWord 2048000 0 = 0x1F400000 := by
  decide +kernel

/-- 1.000 V, word 0x0C80_0000, is code 12,800 (example after R131); 6.000 V is word 0x4B00_0000. -/
theorem test_R118_codes : dacCode 0 (forcePos 0 0x0C800000) = 12800 ∧ dacCode 0 (forcePos 0 0x4B000000) = 76800 := by decide +kernel

/-- The levels of the example after R153. -/
theorem test_R146_levels : (List.range 5).map (fun i => loopbackLevel i 5) = [-117964, -58982, 0, 58982, 117964] := by decide +kernel

/-- The three-tap bank of the example of chapter 6: its L1 norm, and the bytes its CRC is taken over. -/
theorem test_R195_bank :
    let b : Bank := { coefs := [0x100000, 0x200000] }
    b.l1 3 = 0x400000 ∧ b.bytes 3 = [0x00, 0x00, 0x10, 0x00, 0x00, 0x20] := by
  decide +kernel

/-- The check value of R500. -/
theorem test_R500_crc : tirwinCrc [0x31, 0x32, 0x33, 0x34, 0x35, 0x36, 0x37, 0x38, 0x39] = 0x1697D06A := by decide +kernel

/-- R420: a byte goes through the scrambler and back; 64 valid headers lock a lane, the 16th invalid one of 64 loses it. -/
theorem test_R420_lanes :
    (List.range 8).all (fun i => (descramble 0x2AAAAAAAAAAAAAA (scramble 0x2AAAAAAAAAAAAAA (bitAt 0x5D i)).1).1 = bitAt 0x5D i) = true
    ∧ ((List.replicate 63 true).foldl LaneLock.header {}).locked = false ∧ ((List.replicate 64 true).foldl LaneLock.header {}).locked = true
    ∧ ((List.replicate 15 false).foldl LaneLock.header { locked := true }).locked = true
    ∧ ((List.replicate 16 false).foldl LaneLock.header { locked := true }).locked = false ∧ laneBlock 2 0x5A = .marker := by
  decide +kernel

/-- ADDS, SUBS and ADD at their ends (R281, R283); FP32 1 + 1 = 2 and 1 / 3 rounded to nearest even (R283). -/
theorem test_R281_ends :
    sat32 (2147483647 + 1) = (0x7FFFFFFF, kSat32) ∧ sat32 (-2147483648 - 1) = (0x80000000, kSat32)
    ∧ ((fpOf 0x3F800000).add (fpOf 0x3F800000)).1 = 0x40000000 ∧ ((fpOf 0x3F800000).div (fpOf 0x40400000)).1 = 0x3EAAAAAB := by
  decide +kernel

/-- TRIP_N is low in reset and while no protection hearth is named (R495). -/
theorem test_R495_reset : State.reset.tripLow = true ∧ State.reset.fltLow = true := by decide +kernel

/-- The block on an empty queue in reset (log 1). -/
theorem test_step_idles : step State.reset = .next State.reset := rfl

/-! ### Witnesses of the statements about host commands -/


/-- A worker out of reset, past its kindling, that the manager's commands reach. -/
def ws : State := { State.reset with
  node := { State.reset.node with inReset := false, role := 2, ready := true, trustLoaded := true, clock := 64000, up := 64000 },
  trust := { State.reset.trust with live := [0, 1] } }

/-- Its cores of die 0 calibrated. -/
def wcal : State := { ws with
  tiles := (List.range 32).map (fun n => (n, { cal := { state := 1 } })), groups := (List.range 4).map (fun g => (g, { cal := { state := 1 } })) }

/-- Two tiles fit for a metering pair. -/
def wpair : State :=
  let t : Tile := { force := { mode := .acq }, c1 := { rbLog2 := 2, da := 125, bypassB := false }, seq := { mode := .static, active := [0x120000] } }
  { ws with tiles := [(224, t), (225, t)] }

/-- A pair that is configured. -/
def wrun : State := wpair.modPair 63 (fun p => { p with state := .stopped })

/-- The PF's root in force, and its first 2 MiB mapped. -/
def wctx : State := ({ ws with host := { ws.host with tlb := [{ fn := 0, base := 0, bits := 21, addr := 0, rd := true, wr := true }] } }).modFn 0
  (fun f => { f with root := { f.root with active := true } })

/-- Tile 255 held by VF 0's hearth, VF 0 in being. -/
def wvf : State := { ws with trust := { ws.trust with tileOwner := [(255, 0)] }, host := { ws.host with numVfs := 1, vfEnable := true }, ring := { ws.ring with timeLoaded := true } }

/-- A hearth that holds a tile. -/
def wseal : State := { ws with trust := { ws.trust with tileOwner := [(255, 7)] } }

/-- An entry in the change log. -/
def wlog : State := { ws with clog := { ws.clog with entries := [0], nextLseq := 1 } }

/-- A protection hearth. -/
def wprot : State := { ws with trust := { ws.trust with protHearth := some 0 }, prot := { ws.prot with loopTrip := false } }

/-- A standalone node with an installer session of the PF. -/
def wsa : State := { ws with
  node := { ws.node with role := 0 },
  roles := { ws.roles with installer := some { handle := 1, fn := 0, lastUse := 0, serial := 1, noPassword := false } } }

/-- The 64 B of a context at QID 1,023, with its CRC. -/
def ctxCells (v : Nat) : List Host.Cell :=
  (List.range 64).map (fun i => (65472 + i, BitVec.ofNat 8 ((v + crc32c (leBytes v 28) * 2 ^ 224) / 256 ^ i)))

/-- The CRC of a row image of one row and no content. -/
def rowCrc : Nat := crc32c (leBytes 0x0F4B59 2044)
def rowCrcB (i : Nat) : Byte := BitVec.ofNat 8 (rowCrc / 256 ^ i)

/-- A request with the opcode and the fields given, from the manager with a role. -/
def rq (role op : Nat) (l : List Fld) (host : List Host.Cell := []) (fn : Nat := 0) : Req :=
  { fn := fn, qid := 0, entry := BitVec.ofNat 512 (mkRec ([⟨0, 0, 16, op⟩, ⟨2, 0, 16, 7⟩, ⟨5, 0, 4, hearthOfFn fn⟩] ++ l)), host := host, origin := .frame 1 role }

/-- The same from the host, in the PF's installer session. -/
def rqs (op : Nat) (l : List Fld) : Req := { rq 1 op l with origin := .ring }

/-- The command acts at once; it waits behind its entry. -/
def now (p : CmdSpec) (s : State) (r : Req) : Bool := (p.actsNow r s).isSome
def logged (p : CmdSpec) (s : State) (r : Req) : Bool := (p.actsLogged r s).isSome

theorem test_hyp_FrontEndCommands :
    (now devIdentifySpec ws (rq 0 0x0101 [])
      && logged devIdentifySpec ws (rq 1 0x0101 [])
      && now feStatusSpec ws (rq 0 0x0203 [⟨16, 0, 16, 255⟩])
      && logged feStatusSpec ws (rq 1 0x0203 [⟨16, 0, 16, 255⟩])
      && now coreStatusSpec ws (rq 0 0x0205 [⟨16, 0, 16, 255⟩])
      && logged coreStatusSpec ws (rq 1 0x0205 [⟨16, 0, 16, 255⟩])
      && logged feConfigSpec ws (rq 1 0x0201 [⟨16, 0, 16, 255⟩])
      && logged feGroupConfigSpec ws (rq 1 0x0202 [⟨16, 0, 8, 31⟩])
      && logged feClearCountsSpec ws (rq 1 0x0204 [⟨16, 0, 16, 255⟩, ⟨18, 0, 1, 1⟩])
      && logged coreClearCountsSpec ws (rq 1 0x0206 [⟨16, 0, 16, 255⟩, ⟨18, 0, 8, 1⟩])
      && now tileModeSpec ws (rq 0 0x0207 [⟨16, 0, 16, 255⟩, ⟨18, 0, 2, 0⟩])
      && logged tileModeSpec ws (rq 1 0x0207 [⟨16, 0, 16, 255⟩, ⟨18, 0, 2, 0⟩])) = true := by decide +kernel

theorem test_hyp_TileModeCommand :
    ∀ x ∈ [(TileMode.off, true), (.off, false), (.acq, true)],
      let s := ((ws.modKindle 7 (fun k => { k with kindled := true, nextUnit := 45 })).modForce 255
        (fun f => { f with mode := .force, phase := .normal })).startOp (opMark 0x0207) 255 (rq 0 0x0207 []) 0 0;
      (s.findOp 0x0207 255).isSome ∧ (((s.tile 255).force.mode.forcing && !x.1.forcing && x.2 && (s.tile 255).force.driving) = true
        ↔ x = (.off, true) ∨ x = (.acq, true)) := by
  decide +kernel

theorem test_hyp_SequencerCommands :
    (now seqStatusSpec ws (rq 0 0x0305 [⟨16, 0, 16, 255⟩])
      && logged seqStatusSpec ws (rq 1 0x0305 [⟨16, 0, 16, 255⟩])
      && logged seqSlotsSpec ws (rq 1 0x0301 [⟨16, 0, 16, 255⟩, ⟨18, 0, 5, 31⟩, ⟨19, 0, 4, 1⟩, ⟨20, 0, 32, 0x110000⟩])
      && logged seqCommitSpec ws (rq 1 0x0302 [⟨16, 0, 16, 255⟩, ⟨18, 0, 3, 0⟩, ⟨19, 0, 6, 1⟩])
      && now seqArmSpec (ws.modTile 0 (fun t => { t with seq := { t.seq with mode := .burst }, force := { t.force with mode := .acq } })) (rq 0 0x0303 [⟨16, 0, 16, 0⟩])
      && logged seqArmSpec (ws.modTile 0 (fun t => { t with seq := { t.seq with mode := .burst }, force := { t.force with mode := .acq } })) (rq 1 0x0303 [⟨16, 0, 16, 0⟩])
      && now seqTriggerSpec (ws.modTile 0 (fun t => { t with seq := { t.seq with mode := .triggered, trigSrc := 2, trigArg := 0 }, force := { t.force with mode := .acq } })) (rq 0 0x0304 [⟨16, 0, 16, 0⟩, ⟨24, 0, 64, 0⟩])
      && logged seqTriggerSpec (ws.modTile 0 (fun t => { t with seq := { t.seq with mode := .triggered, trigSrc := 2, trigArg := 0 }, force := { t.force with mode := .acq } })) (rq 1 0x0304 [⟨16, 0, 16, 0⟩, ⟨24, 0, 64, 0⟩])
      && now tcStatusSpec ws (rq 0 0x0308 [⟨16, 0, 16, 255⟩])
      && logged tcStatusSpec ws (rq 1 0x0308 [⟨16, 0, 16, 255⟩])
      && logged tcResetSpec (ws.modTc 255 0 (fun x => { x with state := .asserted, latch := true })) (rq 1 0x0307 [⟨16, 0, 16, 255⟩])
      && logged tcConfigSpec (ws.modTc 255 0 (fun x => { x with state := .watching })) (rq 1 0x0306 [⟨16, 0, 16, 255⟩, ⟨18, 4, 1, 1⟩, ⟨20, 0, 32, 1⟩])
      && logged tcConfigSpec ws (rq 1 0x0306 [⟨16, 0, 16, 255⟩, ⟨30, 0, 8, 1⟩, ⟨20, 0, 32, 1⟩, ⟨31, 0, 8, 1⟩])) = true := by decide +kernel

theorem test_hyp_FilterCommands :
    (now filtStatusSpec ws (rq 0 0x0404 [⟨16, 0, 16, 255⟩])
      && logged filtStatusSpec ws (rq 1 0x0404 [⟨16, 0, 16, 255⟩])
      && now filtDcbReadSpec ws (rq 0 0x0408 [⟨16, 0, 16, 255⟩])
      && logged filtDcbReadSpec ws (rq 1 0x0408 [⟨16, 0, 16, 255⟩])
      && logged filtConfigSpec ws (rq 1 0x0401 [⟨16, 0, 16, 255⟩, ⟨20, 0, 10, 1⟩, ⟨22, 0, 9, 1⟩])
      && logged filtPresetSpec ws (rq 1 0x0406 [⟨16, 0, 16, 255⟩, ⟨19, 0, 3, 5⟩])
      && logged filtCoefSpec ws (rq 1 0x0402 [⟨16, 0, 16, 255⟩, ⟨21, 0, 4, 1⟩])
      && logged filtAdmitSpec ws (rq 1 0x0403 [⟨16, 0, 16, 255⟩, ⟨20, 0, 32, ((ws.tile 255).chain 0).shadow.crc ((ws.tile 255).chain 0).ntaps⟩])
      && now filtSwapSpec (ws.modChain 255 0 (fun x => { x with shadowAdmitted := true, bypassB := false })) (rq 1 0x0405 [⟨16, 0, 16, 255⟩])
      && now filtDcbSpec ws (rq 0 0x0407 [⟨16, 0, 16, 255⟩, ⟨18, 1, 1, 0⟩, ⟨18, 2, 1, 1⟩, ⟨18, 5, 1, 1⟩, ⟨20, 0, 5, 16⟩])
      && logged filtDcbSpec ws (rq 1 0x0407 [⟨16, 0, 16, 255⟩, ⟨18, 1, 1, 0⟩, ⟨18, 2, 1, 1⟩, ⟨18, 5, 1, 1⟩, ⟨20, 0, 5, 16⟩])
      && logged filtDcbSpec ws (rq 1 0x0407 [⟨16, 0, 16, 255⟩, ⟨18, 1, 1, 1⟩, ⟨20, 0, 5, 24⟩])
      && logged (filtSyncSpec (rq 1 0x0409 [⟨16, 0, 2, 0⟩, ⟨24, 0, 64, 100000⟩])) ws (rq 1 0x0409 [⟨16, 0, 2, 0⟩, ⟨24, 0, 64, 100000⟩])
      && logged (filtSyncSpec (rqs 0x0409 [⟨8, 0, 32, 1⟩, ⟨16, 0, 2, 1⟩, ⟨20, 0, 16, 20⟩])) wsa (rqs 0x0409 [⟨8, 0, 32, 1⟩, ⟨16, 0, 2, 1⟩, ⟨20, 0, 16, 20⟩])
      && logged (filtSyncSpec (rq 1 0x0409 [⟨16, 0, 2, 2⟩])) ws (rq 1 0x0409 [⟨16, 0, 2, 2⟩])
      && now (filtSyncSpec (rq 0 0x0409 [⟨16, 0, 2, 3⟩])) ws (rq 0 0x0409 [⟨16, 0, 2, 3⟩])
      && logged (filtSyncSpec (rq 1 0x0409 [⟨16, 0, 2, 3⟩])) ws (rq 1 0x0409 [⟨16, 0, 2, 3⟩])) = true := by decide +kernel

theorem test_hyp_ForceCommands :
    (logged forceConfigSpec ws (rq 1 0x0601 [⟨16, 0, 16, 255⟩, ⟨20, 0, 16, 1⟩, ⟨22, 0, 16, 1⟩])
      && now forceTargetSpec (ws.modForce 255 (fun f => { f with mode := .force, phase := .normal })) (rq 0 0x0602 [⟨16, 0, 16, 255⟩])
      && logged forceTargetSpec (ws.modForce 255 (fun f => { f with mode := .force, phase := .normal })) (rq 1 0x0602 [⟨16, 0, 16, 255⟩])
      && logged forceRestartSpec (ws.modForce 255 (fun f => { f with mode := .force, phase := .latched })) (rq 1 0x0603 [⟨16, 0, 16, 255⟩])
      && now forceStatusSpec ws (rq 0 0x0604 [⟨16, 0, 16, 255⟩])
      && logged forceStatusSpec ws (rq 1 0x0604 [⟨16, 0, 16, 255⟩])
      && logged forceLoopbackSpec ({ ws with trust := { ws.trust with forcePorts := [254] } }) (rq 1 0x0605 [⟨16, 0, 16, 254⟩, ⟨18, 0, 8, 24⟩, ⟨20, 0, 16, 1000⟩, ⟨22, 0, 16, 1000⟩])) = true := by decide +kernel

set_option maxRecDepth 100000 in
theorem test_hyp_CalibrationCommands :
    (now calStatusSpec ws (rq 0 0x0503 [⟨16, 0, 16, 255⟩])
      && logged calStatusSpec ws (rq 1 0x0503 [⟨16, 0, 16, 255⟩])
      && logged calConfigSpec ws (rq 1 0x0501 [⟨16, 0, 32, 1⟩, ⟨20, 0, 16, 3600⟩, ⟨22, 0, 8, 40⟩])
      && now calRunSpec wcal (rq 0 0x0502 [⟨16, 0, 16, 31⟩])
      && logged calRunSpec wcal (rq 1 0x0502 [⟨16, 0, 16, 31⟩])
      && now calRowBurnSpec wcal (rq 1 0x0504 [⟨16, 0, 3, 0⟩, ⟨17, 0, 4, 15⟩, ⟨20, 0, 32, rowCrc⟩] [(0, 0x59), (1, 0x4B), (2, 15), (2044, rowCrcB 0), (2045, rowCrcB 1), (2046, rowCrcB 2), (2047, rowCrcB 3)])
      && now calRowReadSpec ws (rq 0 0x0505 [⟨16, 0, 3, 7⟩])
      && logged calRowReadSpec ws (rq 1 0x0505 [⟨16, 0, 3, 7⟩])
      && logged calSubstSpec wcal (rq 1 0x0506 [⟨16, 0, 16, 31⟩])
      && logged calSubstSpec (wcal.modGroup 3 (fun g => { g with sched := { g.sched with use := .covering 31, purpose := .manual } })) (rq 1 0x0506 [⟨16, 0, 16, 31⟩, ⟨18, 0, 1, 1⟩])) = true := by decide +kernel

theorem test_hyp_StoveCommands :
    (now stoveStatusSpec ws (rq 0 0x0706 [⟨16, 0, 5, 31⟩])
      && logged stoveStatusSpec ws (rq 1 0x0706 [⟨16, 0, 5, 31⟩])
      && logged stoveLoadSpec ws (rq 1 0x0701 [⟨16, 0, 5, 31⟩, ⟨20, 0, 32, 65472⟩, ⟨24, 0, 32, 64⟩, ⟨28, 0, 32, crc32c (leBytes 0 64)⟩] ((List.range 64).map (fun i => (i, 0))))
      && logged lawConfigSpec ws (rq 1 0x0702 [⟨16, 0, 5, 31⟩, ⟨17, 3, 1, 1⟩, ⟨18, 0, 16, 1⟩, ⟨20, 0, 32, 0⟩, ⟨24, 0, 32, 0⟩, ⟨28, 0, 32, 4⟩, ⟨32, 0, 16, 1⟩, ⟨35, 0, 8, 1⟩])
      && logged stoveBindSpec ws (rq 1 0x0703 [⟨16, 0, 5, 31⟩, ⟨17, 0, 2, 1⟩])
      && logged stoveBindSpec ws (rq 1 0x0703 [⟨16, 0, 5, 31⟩, ⟨17, 0, 2, 0⟩])
      && logged stoveConfigSpec ws (rq 1 0x0704 [⟨16, 0, 5, 31⟩])
      && logged stoveCtrlSpec ((ws.modKindle 7 (fun k => { k with kindled := true })).modStove 31 (fun v => { v with laws := [(0, { enable := true })] })) (rq 1 0x0705 [⟨16, 0, 5, 31⟩, ⟨17, 0, 2, 0⟩])
      && logged stoveCtrlSpec ws (rq 1 0x0705 [⟨16, 0, 5, 31⟩, ⟨17, 0, 2, 1⟩])
      && logged stoveCtrlSpec ({ ws with trust := { ws.trust with protHearth := some 0 } }) (rq 1 0x0705 [⟨16, 0, 5, 31⟩, ⟨17, 0, 2, 2⟩])
      && logged stoveCtrlSpec ws (rq 1 0x0705 [⟨16, 0, 5, 31⟩, ⟨17, 0, 2, 3⟩])) = true := by decide +kernel

theorem test_hyp_LoopCommands :
    (logged loopConfigSpec ws (rq 1 0x0707 [⟨16, 0, 5, 31⟩])
      && logged loopModeSpec ws (rq 1 0x0708 [⟨16, 0, 5, 31⟩])
      && now loopSetSpec ws (rq 0 0x0709 [⟨16, 0, 5, 31⟩, ⟨18, 0, 3, 4⟩])
      && logged loopSetSpec ws (rq 1 0x0709 [⟨16, 0, 5, 31⟩, ⟨18, 0, 3, 4⟩])
      && now loopStatusSpec ws (rq 0 0x070A [⟨16, 0, 5, 31⟩])
      && logged loopStatusSpec ws (rq 1 0x070A [⟨16, 0, 5, 31⟩])) = true := by decide +kernel

theorem test_hyp_StoreAndMeterCommands :
    (now psStatusSpec ws (rq 0 0x0F04 [])
      && logged psStatusSpec ws (rq 1 0x0F04 [])
      && logged psReadSpec ws (rq 1 0x0F01 [⟨16, 0, 32, 0⟩, ⟨20, 0, 16, 4096⟩])
      && now psProgramSpec ws (rq 1 0x0F02 [⟨16, 0, 32, 0⟩, ⟨20, 0, 32, 256⟩])
      && now psEraseSpec ws (rq 1 0x0F03 [])
      && now meterReadSpec ws (rq 0 0x0803 [⟨16, 0, 6, 63⟩])
      && logged meterReadSpec ws (rq 1 0x0803 [⟨16, 0, 6, 63⟩])
      && logged meterPairSpec wpair (rq 1 0x0801 [⟨16, 0, 6, 63⟩, ⟨20, 0, 16, 224⟩, ⟨22, 0, 16, 225⟩, ⟨24, 0, 21, 256⟩])
      && logged meterCtrlSpec wrun (rq 1 0x0802 [⟨16, 0, 6, 63⟩, ⟨17, 0, 2, 0⟩])
      && logged meterCtrlSpec wrun (rq 1 0x0802 [⟨16, 0, 6, 63⟩, ⟨17, 0, 2, 1⟩])
      && now meterCtrlSpec wrun (rq 0 0x0802 [⟨16, 0, 6, 63⟩, ⟨17, 0, 2, 2⟩])
      && logged meterCtrlSpec wrun (rq 1 0x0802 [⟨16, 0, 6, 63⟩, ⟨17, 0, 2, 2⟩])) = true := by decide +kernel

theorem test_hyp_QueueCommands :
    (now queueCreateSpec wctx (rq 0 0x0901 [⟨16, 0, 18, 1023⟩] (ctxCells 0x601))
      && logged queueCreateSpec wctx (rq 1 0x0901 [⟨16, 0, 18, 1023⟩] (ctxCells 0x601))
      && now queueDestroySpec (wctx.modQueue 1023 (fun q => { q with live := true, kind := 1 })) (rq 0 0x0902 [⟨16, 0, 18, 1023⟩])
      && logged queueDestroySpec (wctx.modQueue 1023 (fun q => { q with live := true, kind := 1 })) (rq 1 0x0902 [⟨16, 0, 18, 1023⟩])
      && now queueBindSpec wvf (rq 0 0x0903 [⟨16, 0, 18, 1024⟩, ⟨19, 0, 1, 1⟩, ⟨20, 0, 6, 0⟩, ⟨22, 0, 16, 255⟩] [] 1)
      && logged queueBindSpec wvf (rq 1 0x0903 [⟨16, 0, 18, 1024⟩, ⟨19, 0, 1, 1⟩, ⟨20, 0, 6, 0⟩, ⟨22, 0, 16, 255⟩] [] 1)
      && now queueStatusSpec (wctx.modQueue 1023 (fun q => { q with live := true, kind := 1 })) (rq 0 0x0904 [⟨16, 0, 18, 1023⟩])
      && logged queueStatusSpec (wctx.modQueue 1023 (fun q => { q with live := true, kind := 1 })) (rq 1 0x0904 [⟨16, 0, 18, 1023⟩])
      && now lmapInvalSpec ws (rq 0 0x0905 [])
      && logged lmapInvalSpec ws (rq 1 0x0905 [])) = true := by decide +kernel

theorem test_hyp_RingCommands :
    (logged ringConfigSpec ws (rq 1 0x0A01 [⟨18, 0, 16, 60⟩, ⟨24, 0, 16, 10⟩])
      && now ringStatusSpec ws (rq 0 0x0A02 [])
      && logged ringStatusSpec ws (rq 1 0x0A02 [])
      && logged ringBypassSpec ws (rq 1 0x0A03 [⟨16, 0, 2, 1⟩])
      && now ringTriggerSpec ws (rq 0 0x0A04 [⟨16, 0, 8, 15⟩, ⟨24, 0, 64, 1000⟩])
      && logged ringTriggerSpec ws (rq 1 0x0A04 [⟨16, 0, 8, 15⟩, ⟨24, 0, 64, 1000⟩])) = true := by decide +kernel

/-- RING_CONFIG under way for the east rate of a node. -/
def wrate (node e w : Nat) : State := ws.startOp (opMark 0x0A01) 0 (rq 1 0x0A01 [⟨4, 0, 6, node⟩, ⟨16, 0, 1, e⟩, ⟨16, 1, 1, w⟩]) 0 0

theorem test_hyp_RingRates :
    ∀ x ∈ [(0, 0, 0), (63, 0, 0), (0, 1, 0), (63, 0, 1)], let s := wrate x.1 x.2.1 x.2.2;
      ((s.findOp 0x0A01 0).map (fun o => (o.req.u 4 0 6, o.req.b 16 0, o.req.b 16 1))) = some (x.1, decide (x.2.1 = 1), decide (x.2.2 = 1))
      ∧ s.ring.plan = none ∧ s.ring.blocked (s.ring.linkAt x.1 true) = false ∧ s.ring.blocked (s.ring.linkAt x.1 false) = false
      ∧ s.ring.slowAt x.1 true = false ∧ s.ring.slowAt x.1 false = false := by
  decide +kernel

theorem test_hyp_SessionCommands :
    (now sessionCloseSpec ws (rq 0 0x0B02 [⟨8, 0, 32, 1⟩])
      && logged sessionCloseSpec ws (rq 1 0x0B02 [⟨8, 0, 32, 1⟩])
      && logged rolePasswordSpec ws (rq 2 0x0B03 [⟨16, 0, 1, 1⟩])
      && logged rolePasswordSpec ws (rq 1 0x0B03 [⟨17, 0, 6, 8⟩, ⟨24, 0, 64, 3472328296227680304⟩])
      && now makerChallengeSpec ws (rq 0 0x0B04 [])
      && logged makerChallengeSpec ws (rq 1 0x0B04 [])
      && logged sessionOpenSpec ws (rq 0 0x0B01 [⟨16, 0, 2, 1⟩])) = true := by decide +kernel

/-- Nothing holds the command back, no check refuses it, and its entry has room; it has a session of its own or none. -/
def ready (p : CmdSpec) (s : State) (r : Req) (own : Bool) : Bool :=
  let u := ((s.taken r).mapData r (p.data r (s.taken r)))
  p.starts r s && (p.checks r s).all (fun c => !c.1) && u.2 && decide (u.1.clogUsed < 4080) && u.1.clog.staging.isEmpty
    && u.1.logs.bank1.isEmpty && decide (u.1.node.pfStage = .none) && (((s.taken r).who r).map (fun w => decide (w.sess ≠ 0)) == some own)

theorem test_hyp_SessionsComplete :
    (ready sessionOpenSpec ws (rq 0 0x0B01 [⟨16, 0, 2, 1⟩]) false
      && ready sessionCloseSpec ws (rq 0 0x0B02 [⟨8, 0, 32, 1⟩]) false && ready sessionCloseSpec wsa (rqs 0x0B02 [⟨8, 0, 32, 1⟩]) true
      && ready rolePasswordSpec ws (rq 2 0x0B03 [⟨16, 0, 1, 1⟩]) true
      && ready rolePasswordSpec ws (rq 1 0x0B03 [⟨17, 0, 6, 8⟩, ⟨24, 0, 64, 3472328296227680304⟩]) true
      && ready makerChallengeSpec ws (rq 0 0x0B04 []) false && ready makerChallengeSpec ws (rq 1 0x0B04 []) true) = true := by decide +kernel

theorem test_hyp_HearthCommands :
    (now hearthStatusSpec ws (rq 0 0x0B09 [])
      && logged hearthStatusSpec ws (rq 1 0x0B09 [])
      && logged hearthAssignSpec ws (rq 1 0x0B05 [])
      && logged hearthSharesSpec ws (rq 1 0x0B06 [⟨20, 0, 128, 0x01010101010101010101010101010101⟩])
      && logged chainGrantSpec ws (rq 1 0x0B07 [⟨16, 0, 16, 255⟩, ⟨18, 0, 1, 1⟩, ⟨19, 0, 3, 1⟩])
      && logged chainGrantSpec ({ ws with trust := { ws.trust with grants := [(255, 1)] } }) (rq 1 0x0B07 [⟨16, 0, 16, 255⟩])
      && logged hearthSealSpec wseal (rq 1 0x0B08 [⟨16, 0, 3, 7⟩, ⟨17, 0, 2, 0⟩])
      && logged hearthSealSpec ({ ws with trust := { ws.trust with seals := [(7, .intact)] } }) (rq 1 0x0B08 [⟨16, 0, 3, 7⟩, ⟨17, 0, 2, 1⟩])
      && now clogReadSpec ({ ws with clog := { ws.clog with entries := [0], nextLseq := 1 } }) (rq 0 0x0B0A [⟨24, 0, 7, 1⟩])
      && logged clogReadSpec ({ ws with clog := { ws.clog with entries := [0], nextLseq := 1 } }) (rq 1 0x0B0A [⟨24, 0, 7, 1⟩])
      && now clogArchiveSpec wlog (rq 2 0x0B0B [⟨24, 0, 128, wlog.clog.headDigest⟩])) = true := by decide +kernel

theorem test_hyp_ProtectionCommands :
    (logged safeConfigSpec ws (rq 1 0x0C01 [⟨16, 0, 4, 0⟩, ⟨18, 0, 16, 1⟩])
      && logged safeConnSpec wprot (rq 1 0x0C02 [⟨16, 0, 6, 63⟩, ⟨16, 7, 1, 1⟩, ⟨17, 6, 1, 1⟩, ⟨19, 0, 8, 1⟩, ⟨24, 0, 32, 10000⟩, ⟨28, 0, 16, 1000⟩])
      && logged safeArmSpec (wprot.modProt (fun p => { p with state := .proven })) (rq 1 0x0C03 [⟨16, 0, 2, 0⟩])
      && logged safeArmSpec wprot (rq 1 0x0C03 [⟨16, 0, 2, 1⟩])
      && logged safeArmSpec ({ wprot with prot := { wprot.prot with state := .tripped, latchAt := 0 }, node := { wprot.node with clock := 64 * 10 ^ 9 } }) (rq 1 0x0C03 [⟨16, 0, 2, 2⟩])
      && logged safeArmSpec wprot (rq 1 0x0C03 [⟨16, 0, 2, 3⟩])
      && now safeStatusSpec ws (rq 0 0x0C04 [])
      && logged safeStatusSpec ws (rq 1 0x0C04 [])
      && now tirwinPutSpec (wprot.modConn 63 (fun c => { c with host := true })) (rq 0 0x0C05 [⟨16, 0, 6, 63⟩])
      && logged tirwinPutSpec (wprot.modConn 63 (fun c => { c with host := true })) (rq 1 0x0C05 [⟨16, 0, 6, 63⟩])) = true := by decide +kernel

theorem test_hyp_FaultCommands :
    (logged faultConfigSpec ws (rq 1 0x0D01 [⟨16, 0, 2, 0⟩, ⟨18, 0, 8, 1⟩, ⟨20, 0, 32, 1000⟩])
      && logged faultConfigSpec ws (rq 1 0x0D01 [⟨16, 0, 2, 1⟩, ⟨24, 0, 8, 2⟩])
      && logged faultConfigSpec ws (rq 1 0x0D01 [⟨16, 0, 2, 2⟩])
      && now faultReadSpec ws (rq 0 0x0D02 [⟨17, 0, 5, 1⟩])
      && logged faultReadSpec ws (rq 1 0x0D02 [⟨17, 0, 5, 1⟩])
      && logged faultClearSpec (ws.modRec 126 (fun x => { x with isOpen := true, det := 1, used := true })) (rq 1 0x0D03 [⟨16, 0, 8, 126⟩])
      && logged faultInjectSpec ws (rq 1 0x0D04 [⟨16, 0, 8, 3⟩, ⟨17, 0, 8, 255⟩, ⟨20, 0, 32, 255⟩])) = true := by decide +kernel

theorem test_hyp_NodeCommands :
    (now evlogReadSpec ({ ws with logs := { ws.logs with ram := [{ time := 0, kind := 0, node := 0, hearth := 0, subject := 0, detail := 0 }] } }) (rq 0 0x0D05 [⟨24, 0, 7, 1⟩])
      && logged evlogReadSpec ({ ws with logs := { ws.logs with ram := [{ time := 0, kind := 0, node := 0, hearth := 0, subject := 0, detail := 0 }] } }) (rq 1 0x0D05 [⟨24, 0, 7, 1⟩])
      && logged devResetSpec ws (rq 1 0x0E01 [])
      && logged ageReplanSpec ws (rq 1 0x0E02 [])
      && now ageStatusSpec ws (rq 0 0x0E03 [⟨16, 0, 3, 7⟩])
      && logged ageStatusSpec ws (rq 1 0x0E03 [⟨16, 0, 3, 7⟩])
      && now agePlanReadSpec ws (rq 0 0x0E04 [])
      && logged agePlanReadSpec ws (rq 1 0x0E04 [])
      && logged ageApplySpec ({ ws with age := { ws.age with dies := [(7, { deratePend := true })] } }) (rq 1 0x0E05 [⟨16, 0, 3, 7⟩])
      && logged devResetSpec wsa (rqs 0x0E01 [⟨8, 0, 32, 1⟩, ⟨16, 0, 64, 1⟩])) = true := by decide +kernel

/-! ### Witnesses of the statements about stove instructions -/

/-- A run at the first word, no cycle spent. -/
def run0 : Run := { law := 0, pc := 0 }

/-- Stove 31 in a run of a law of one cycle, with the words of the last at address 0. -/
def wst (i : Instr) (f : Stove → Stove) : State :=
  ws.modStove 31 (fun v => f { v with
    state := .running, isram := memSetLE 0 [] 0 4 ((stoveWord i).getD 0), laws := [(0, { enable := true, maxCycles := 1 })], run := some run0 })

/-- Registers 1 and 2. -/
def r12 (a b : Nat) (v : Stove) : Stove := (v.setReg 1 a).setReg 2 b

/-- Port 15 bound. -/
def port15 (v : Stove) : Stove := { v with ports := [(15, { bound := some 0 })] }

/-- A table of n points at address 0. -/
def tint (n : Nat) (v : Stove) : Stove := { v with dsram := memSetLE 0 [] 4 4 (n * 65536) }

theorem test_hyp_StoveIntegerOps :
    (∀ i ∈ ([.svNop 31, .svAdd 31 31 1 2, .svSub 31 1 31 31, .svAdds 31 1 2 3, .svSubs 31 1 2 3, .svAnd 31 1 2 3, .svOr 31 1 2 3,
        .svXor 31 1 2 3, .svShl 31 1 2 3, .svShr 31 1 2 3, .svSra 31 1 2 3, .svMul 31 1 2 3, .svMulh 31 1 2 3, .svAddi 31 1 2 0xFFFF,
        .svAndi 31 1 2 0xFFFF, .svOri 31 1 2 0xFFFF, .svLui 31 1 0xFFFF, .svShli 31 1 2 31, .svShri 31 1 2 31, .svSrai 31 1 2 31,
        .svClamp 31 1 2 30, .svClamp 31 1 2 31, .svRlim 31 31 30 29, .svTint 31 1 2 31, .svCrc 31 1 2 0, .svCrc 31 1 2 1, .svCrc 31 1 2 2] : List Instr),
      (wst i id).issues 31 i run0)
    ∧ (∀ i ∈ ([.svSin 31 1 15, .svSseq 31 1 15, .svStim 31 1 31] : List Instr),
      (wst i port15).issues 31 i run0 ∧ (wst i id).issues 31 i run0
      ∧ (tget ({} : InPort) ((wst i port15).stove 31).ports 15).bound.isSome ∧ (tget ({} : InPort) ((wst i id).stove 31).ports 15).bound = none)
    ∧ (∀ n ∈ [0, 1, 2, 1024, 1025], let s := wst (.svTint 31 3 1 2) (tint n); s.issues 31 (.svTint 31 3 1 2) run0
      ∧ bits (memGetLE 0 (s.stove 31).dsram 4 4) 16 11 = n)
    ∧ (let s := wst (.svTint 31 3 1 2) (r12 0 65533); s.issues 31 (.svTint 31 3 1 2) run0 ∧ (s.stove 31).reg 2 = 65533) := by
  unfold State.issues; decide +kernel

theorem test_hyp_StoveMemoryAndBranches :
    (∀ i ∈ ([.svLw 31 1 2 0, .svLw 31 1 2 3, .svSw 31 1 2 0, .svSw 31 1 2 0xFFFF, .svBeq 31 1 2 1, .svBne 31 1 2 1, .svBlt 31 1 2 1,
        .svBge 31 1 2 0x8000, .svJal 31 31 0x7FFF, .svJr 31 1] : List Instr),
      (wst i id).issues 31 i run0)
    ∧ (∀ x ∈ [(65532, 0), (65536, 0), (0, 0xFFFF)], let s := wst (.svLw 31 1 2 x.2) (r12 0 x.1)
      s.issues 31 (.svLw 31 1 2 x.2) run0 ∧ (s.stove 31).reg 2 = x.1)
    ∧ (∀ x ∈ [(dLoopBase - 4, 0), (dLoopBase, 0), (2, 0)], let s := wst (.svSw 31 1 2 x.2) (r12 0 x.1)
      s.issues 31 (.svSw 31 1 2 x.2) run0 ∧ (s.stove 31).reg 2 = x.1) := by
  unfold State.issues; decide +kernel

theorem test_hyp_StoveAccumulatorsAndFloat :
    ∀ i ∈ ([.svMacc 31 3 1 2, .svMsub 31 3 1 2, .svAclr 31 3, .svAld 31 3 1 2, .svArd 31 1 3 63, .svArd 31 1 3 64, .svFadd 31 1 2 3,
        .svFsub 31 1 2 3, .svFmul 31 1 2 3, .svFma 31 1 2 3, .svFdiv 31 1 2 3, .svFsqrt 31 1 2, .svFmin 31 1 2 3, .svFmax 31 1 2 3,
        .svFabs 31 1 2, .svFneg 31 1 2, .svFcmp 31 1 2 3 2, .svFcmp 31 1 2 3 3, .svFcvtsw 31 1 2 63, .svFcvtsw 31 1 2 64, .svFcvtws 31 1 2 63,
        .svFcvtws 31 1 2 64] : List Instr),
      (wst i id).issues 31 i run0 := by
  unfold State.issues; decide +kernel

/-- The law serves loop 0; its record is in the state given, held for a cause, its LCTL option set. -/
def loop0 (st cause opt : Nat) (v : Stove) : Stove :=
  (v.modLaw 0 (fun l => { l with loops := 1 })).putLoop 0
    (lrPut (lrPut ((List.replicate 32 0).set 7 (opt * 4)) 16 0 2 st) 16 8 4 cause)

theorem test_hyp_StoveSystemRegisters :
    (∀ i ∈ ([.svSrr 31 1 0, .svSrr 31 1 0xFFFF, .svSrw 31 1 5, .svSrw 31 1 8, .svSrw 31 1 9, .svSrw 31 1 10, .svSrw 31 1 11, .svSrw 31 1 14,
        .svSrw 31 1 0xFFFF] : List Instr), (wst i id).issues 31 i run0)
    ∧ (ws.modStove 31 (fun v => { v with
        state := .running, isram := memSetLE 0 [] 0 4 (0x3E * 2 ^ 26), laws := [(0, { maxCycles := 1 })], run := some run0 })).issues 31
          (.svIllegal 31 0x3E) run0
    ∧ (({} : Stove).sysRead run0 0).isSome ∧ (({} : Stove).sysRead run0 0xFFFF) = none
    ∧ bitAt (((wst (.svSrw 31 1 11) id).stove 31).law 0).loops 0 = false
    ∧ (∀ st ∈ [[], [0]], let s := wst (.svSrw 31 1 11) (fun v => { (loop0 2 0 0 v) with run := some { run0 with stepped := st } })
      s.issues 31 (.svSrw 31 1 11) { run0 with stepped := st } ∧ bitAt ((s.stove 31).law 0).loops 0 = true)
    ∧ (∀ pv ∈ [0x7FC00000, 0], let s := wst (.svSrw 31 1 11) (fun v => r12 pv 0 (loop0 2 0 0 v))
      s.issues 31 (.svSrw 31 1 11) run0 ∧ (fpIsNan (fsub (fpv (((s.stove 31).staged run0 0).getD 8 0)) (fpv pv)).1 ↔ pv ≠ 0))
    ∧ (let s := wst (.svSrw 31 1 14) (fun v => r12 1 0 (loop0 2 0 0 v))
      s.issues 31 (.svSrw 31 1 14) run0 ∧ (s.stove 31).reg 1 = 1 ∧ lrState ((s.stove 31).staged run0 0) = 2)
    ∧ (let s := wst (.svSrw 31 1 14) (fun v => r12 2 0 (loop0 3 4 1 v))
      s.issues 31 (.svSrw 31 1 14) run0 ∧ (s.stove 31).reg 1 = 2 ∧ lrState ((s.stove 31).staged run0 0) = 3
      ∧ lrField ((s.stove 31).staged run0 0) 16 8 4 = 4 ∧ bitAt (((s.stove 31).staged run0 0).getD 7 0) 2
      ∧ lrField ((s.stove 31).staged run0 0) 7 3 2 = 0) := by
  unfold State.issues; decide +kernel

theorem test_hyp_StoveOutputs :
    (∀ i ∈ ([.svFout 31 1 7, .svMsg 31 1 15, .svQrec 31 1 3, .svTripr 31 1, .svTrg 31, .svEvt 31 1, .svPsreq 31 1, .svEnd 31] : List Instr),
      (wst i id).issues 31 i run0)
    ∧ (let s := { wst (.svTripr 31 1) id with trust := { ws.trust with protHearth := some 0 } }
      s.issues 31 (.svTripr 31 1) run0 ∧ s.trust.protHearth = some (s.stoveOwner 31)) := by
  unfold State.issues; decide +kernel

theorem test_hyp_StoveFrames :
    let s := wst (.svAdd 31 31 1 2) id
    let t := wst (.svSw 31 1 2 0) (r12 7 (dLoopBase - 4))
    s.issues 31 (.svAdd 31 31 1 2) run0 ∧ (s.stove 31).trapMask = 0 ∧ registerOp (.svAdd 31 31 1 2) = some (31, 31)
    ∧ t.issues 31 (.svSw 31 1 2 0) run0 ∧ (t.stove 31).reg 2 = dLoopBase - 4 := by
  unfold State.issues; decide +kernel

theorem test_hyp_StoveWordsRoundTrip :
    Instr.wf (.svAdd 31 31 31 31) ∧ (stoveWord (.svAdd 31 31 31 31)).isSome := by decide

/-! ### Witnesses of the statements about events -/

/-- The same with the device time and the time since reset at t ns. -/
def atNs (s : State) (t : Nat) : State := { s with node := { s.node with clock := 64 * t, up := 64 * t } }
def pfAt (p : PfStage) : State := { ws with node := { ws.node with pfStage := p } }

/-- A manager whose host link is up, on its ring. -/
def wm : State := { ws with
  node := { ws.node with role := 1, ringLanes := 8 }, host := { ws.host with linkUp := true, perst := false },
  ring := { ws.ring with bypassClosed := false } }

/-- Memory Space, Bus Master and MSI-X on in the PF and in VF 7, which is in being. -/
def wb : State :=
  let up := fun (f : Fn) => { f with cfg := { f.cfg with memory := true, master := true, msixEn := true } }
  (({ wm with host := { wm.host with vfEnable := true, numVfs := 8 } }).modFn 0 up).modFn 8 up

/-- A worker on the ring. -/
def ww : State := { ws with node := { ws.node with ringLanes := 8 }, ring := { ws.ring with bypassClosed := false } }

theorem test_hyp_SupplyResets :
    State.reset.node.inReset ∧ ws.node.inReset = false ∧ ws.node.pfStage = .none ∧ 7 < ws.node.dies ∧ ws.node.va5Off = false
    ∧ (pfAt (.readBack none)).node.badRails = [] ∧ { (pfAt (.readBack none)).node with badRails := [8] }.badRails ≠ []
    ∧ (pfAt (.programming (some 1))).node.pfStage = .programming (some 1) ∧ (pfAt (.readBack (some 1))).node.pfStage ≠ .none := by
  decide

theorem test_hyp_Kindling :
    (let s := atNs ws 14000000; (tget {} s.node.kindle 7).start = none ∧ 2000000 * 7 ≤ s.sinceRef ∧ s.dieFenced 7 = false ∧ 7 < s.node.dies)
    ∧ (let s := (atNs ws 15050000).modKindle 7 (fun k => { k with start := some 14000000, nextUnit := 44 });
      14000000 + kindleOffset 44 ≤ s.sinceRef ∧ s.dieFenced 7 = false)
    ∧ (let s := atNs { wm with node := { wm.node with pcieLanes := 7 } } 17750000;
      s.isWorker = false ∧ s.host.perst = false ∧ 16000000 + 250000 * s.node.pcieLanes ≤ s.sinceRef)
    ∧ (let s := atNs { wm with node := { wm.node with ringLanes := 7 } } 19750000;
      s.isAlone = false ∧ s.faults.fatal = false ∧ 16000000 + 2000000 + 250000 * s.node.ringLanes ≤ s.sinceRef)
    ∧ (let s := (atNs ws 19000000).modKindle 7 (fun k => { k with start := some 14000000 });
      (tget {} s.node.kindle 7).bridgeUp = false ∧ 14000000 + 5000000 ≤ s.sinceRef ∧ (0x12, 7, 0) ∉ s.faults.reports)
    ∧ (∀ b ∈ [false, true], let s := (atNs ws 8000).modKindle 7 (fun k => { k with bridgeUp := true, resend := b });
      (tget {} s.node.kindle 7).bridgeUp ∧ s.dieFenced 7 = false ∧ (tget {} s.node.kindle 7).lastTransfer + 8000 ≤ s.now)
    ∧ (wm.isWorker = false ∧ { wm.node with dclkPresent := true }.dclkPresent)
    ∧ (let s := atNs wm 100000000; s.node.dclkPresent = false ∧ s.node.holdover = false ∧ 100000000 ≤ s.sinceRef)
    ∧ (ww.isWorker ∧ ww.ring.east.clockLost = false ∧ ww.ring.west.clockLost = false ∧ ww.node.holdover = false)
    ∧ (atNs ws 10000000).node.trimAt + 10000000 ≤ (atNs ws 10000000).now := by
  decide +kernel

theorem test_hyp_PinEvents :
    (let s := ws.modKindle 7 (fun k => { k with nextUnit := 45 });
      ∀ p ∈ [511, 4096 + 255], s.pinThere p ∧ s.pinUp p ∧ (s.pin p).inEvent = false ∧ (s.pin p).cmx = false)
    ∧ (let s := (ws.modKindle 7 (fun k => { k with nextUnit := 45 })).modTile 255 (fun t => { t with force := { t.force with mode := .acq } });
      s.switchOpen 511 = false)
    ∧ (ws.modPin 511 (fun x => { x with inEvent := true })).pinThere 511
    ∧ ((ws.modPin 511 (fun x => { x with inEvent := true })).pin 511).inEvent := by
  decide +kernel

/-- A pass of the shape of R243, every conversion zero. -/
def pass0 : CalPass :=
  let z := fun (n : Nat) => List.replicate n ({ r := 0 } : CalSample)
  { triadA := z 256, triadB := z 256, triadC := z 256, weights := z 40192, gains := z 61440 :: List.replicate 7 (z 20480) }

theorem test_hyp_pass : passShaped pass0 = true := by
  simp only [passShaped, pass0, List.map_cons, List.map_replicate, List.length_replicate, decide_true, Bool.and_self]

/-- Core 255 in a calibration. -/
def wrunning (x : CalRun) : State := (atNs ws 12000000).modCal 255 (fun k => { k with run := some x })
def crun : CalRun := { why := .onDemand, before := {} }
def failed : PassResult :=
  { triad := 0, source := 0, weights := [], coreGain := 0, offsets := [], ratios := [], forceOffset := 0, forceGain := 0, valid := false, cause := 2 }

theorem test_hyp_CalibrationPasses :
    (let s := (atNs ws 214000000).modKindle 7 (fun k => { k with start := some 14000000, kindled := true });
      14000000 + 200000000 ≤ s.node.up / 64 ∧ (tget {} s.node.kindle 7).kindled ∧ (tget {} s.node.kindle 7).triadSettled = false
      ∧ s.dieFenced 7 = false)
    ∧ ((wrunning { crun with coarse := true }).calCore 255).run = some { crun with coarse := true }
    ∧ (tget 0 (atNs ws 10000000).node.compAt 7 + 10000000 ≤ (atNs ws 10000000).now)
    ∧ (∀ p ∈ [[], [failed]], let s := wrunning { crun with passes := p };
      (s.calCore 255).run = some { crun with passes := p } ∧ crun.startedAt + 12000000 ≤ s.now)
    ∧ failed.valid = false ∧ failed.cause ≠ 0 := by
  decide +kernel

/-- Group 31 with its schedule so. -/
def wgr (t : Nat) (f : GroupCal → GroupCal) : State := (atNs ws t).modSched 31 f

theorem test_hyp_ReserveCores :
    (∀ d ∈ [0, 65], let s := wgr 0 (fun g => { g with use := .tracking 255, tracked := [(0, 64)], diffs := [(0, [d])] });
      (s.group 31).sched.use = .tracking 255 ∧ 31 < s.nGroups ∧ s.trackedAll 31 255 ∧ (s.matches 31 255 = true ↔ d = 0))
    ∧ (let s := wgr 10000000000 (fun g => { g with use := .tracking 255 });
      (s.group 31).sched.purpose ≠ .manual ∧ (s.group 31).sched.started + 10000000000 ≤ s.now)
    ∧ (∀ k ∈ [0, 1], ∀ d ∈ [0, 65], let s := (wgr 0 (fun g => { g with use := .handingBack 255, tracked := [(0, 64)], diffs := [(0, [d])] })).modCal 255 (fun c => { c with handFails := k });
      (s.group 31).sched.use = .handingBack 255 ∧ s.trackedAll 31 255 ∧ (s.matches 31 255 = true ↔ d = 0) ∧ (s.calCore 255).handFails = k)
    ∧ (∀ r ∈ [0, 8], let s := (((atNs ws 60000000000).modSched 0 (fun g => { g with rotation := r })).modCal 0 (fun c => { c with state := 1 })).modCal 1024 (fun c => { c with state := 1 });
      s.rollPeriod 0 ≠ 0 ∧ max (s.group 0).sched.nextRoll (0 * s.rollPeriod 0 * 1000000000 / 288) ≤ s.now ∧ s.coreDown 1024 = false
      ∧ s.calUp (rotationCore 0 r) ∧ (s.group 0).sched.use = .free ∧ (s.group 0).sched.demands = [])
    ∧ (let s := ((atNs ws 60000000000).modCal 0 (fun c => { c with state := 1 })).modForce 0 (fun f => { f with mode := .force });
      s.calUp (rotationCore 0 0) ∧ (s.tile 0).force.mode.forcing)
    ∧ (let s := (ws.modRows 7 (fun x => { x with burning := some (15, []) })).startOp (opMark 0x0504) 7 (rq 1 0x0504 []) 0 0;
      (s.rowsOf 7).burning = some (15, []) ∧ (s.findOp 0x0504 7).isSome) := by
  decide +kernel

/-- Tile 255 converting, its next conversion at edge e. -/
def wtile (e : Nat) (f : Tile → Tile) : State :=
  (atNs ws 100000).modTile 255 (fun t => f { t with force := { t.force with mode := .acq }, seq := { t.seq with next := some e } })

theorem test_hyp_Conversions :
    (let s := wtile 0 (fun t => { t with force := { t.force with phase := .measuring } });
      (s.tile 255).force.phase = .measuring ∧ s.silent 255 = false)
    ∧ (∀ k ∈ [6250, 6249], let s := wtile 0 (fun t => { t with force := { t.force with phase := .measuring, enteredAt := 6400000 - k } });
      ((s.tile 255).force.enteredAt + 6250 ≤ s.node.clock ↔ k = 6250))
    ∧ (∀ c ∈ [0, 1], let s := wtile 2048 (fun t => { t with cal := { t.cal with state := c } });
      (s.tile 255).converting ∧ (s.tile 255).seq.next = some 2048 ∧ 2048 ≤ s.edge ∧ s.commitEdge 255 = none ∧ s.sync.pending = none
      ∧ s.silent 255 = false ∧ (s.holds 255 ((s.tile 255).seq.active.getD 0 0) = true ↔ c = 0))
    ∧ (let s := { wtile 2048 id with faults := { ws.faults with fencedTiles := [255] } }; s.silent 255 = true ∧ (s.tile 255).converting) := by
  decide +kernel

theorem test_hyp_SequencerEvents :
    (let c : SeqCommit := { list := [], mode := .scan, passes := 1, trigSrc := 0, trigArg := 0, sinceEdge := 0 };
      let s := wtile 2048 (fun t => { t with seq := { t.seq with commit := some c } });
      (s.tile 255).seq.commit = some c ∧ s.commitEdge 255 = some 1 ∧ 1 ≤ s.edge)
    ∧ (∀ m ∈ [SeqMode.static, .triggered], ∀ n ∈ [none, some 2048], let s := (atNs ws 100000).modTile 255 (fun t => { t with
        force := { t.force with mode := .acq }, seq := { t.seq with mode := m, trigSrc := 5, next := n } });
      let y := s.tile 255;
      (y.seq.mode = .triggered ∧ y.seq.trigSrc = 5 ↔ m = .triggered) ∧ (y.deaf = true ↔ n ≠ none))
    ∧ (let s := (atNs ws 100000).modTile 255 (fun t => { t with
        force := { t.force with mode := .acq }, seq := { t.seq with mode := .burst, armed := true, armEdge := 2048 } });
      (s.tile 255).converting ∧ (s.tile 255).seq.next = none ∧ (s.tile 255).seq.ended = false ∧ (s.tile 255).seq.armed ∧ 2048 ≤ s.edge)
    ∧ (let s := (atNs ws 100000).modTile 255 (fun t => { t with
        force := { t.force with mode := .acq }, seq := { t.seq with mode := .triggered, trigger := some 2048 } });
      (s.tile 255).converting ∧ (s.tile 255).seq.trigger = some 2048 ∧ 2048 ≤ s.edge)
    ∧ ((ws.modSeq 255 (fun q => { q with ended := true })).tile 255).seq.ended := by
  decide +kernel

theorem test_hyp_FilterEvents :
    (let j : Job := { tile := 255, chain := 1, slot := 31, edge := 0, time := 0, n := 0, xs := [], flags := 0 };
      (({ ws with jobs := [j] }).laneJobs 7)[0]? = some j ∧ ws.dieFenced 7 = false
      ∧ ({ ws with jobs := [j] }).jobs.find? (State.jobOf ws (streamKey ws.ring.nodeNo j.tile j.slot j.chain 0)) = some j)
    ∧ (∀ g ∈ [false, true], let s := ws.modChain 255 1 (fun x => { x with swap := some 1000, swapGo := g });
      ((s.tile 255).chain 1).swap = some 1000 ∧ 1000 ≤ s.now ∧ s.jobs = [] ∧ ((s.tile 255).chain 1).swapGo = g)
    ∧ ((ws.modQueue 262143 (fun q => { q with flush := 1 })).queue 262143).flush ≠ 0
    ∧ (let s := { ws with sync := { ws.sync with pending := some { refEdge := 0, actEdge := 20, actTime := 1000, ring := false, fn := none }, dones := [(1000, none, 1)] } };
      20 ≤ s.edge ∧ s.sync.pending.isSome ∧ s.sync.dones = (1000, none, 1) :: [] ∧ 1000 ≤ s.now)
    ∧ (ws.node.everLocked = false ∧ ws.isWorker)
    ∧ (∀ s ∈ [ww, wm], let t := { s with node := { s.node with everLocked := true } };
      let a := t.node.clock + 1000;
      t.edgeAtOrAfter (a + 1888) = t.edgeAtOrAfter (a + 1920) ∧ t.edgeAtOrAfter (a + 1952) = t.edgeAtOrAfter (a + 1920)
      ∧ t.sync.pending = none ∧ t.sync.armed = false)
    ∧ ({ wm with sync := { wm.sync with armed := true } }).sync.pending = none
    ∧ (wm.isAlone = false ∧ wm.firstCopy 0 1 1 ∧ (wm.noteCopy 0 1 1).now ≤ 1000 ∧ 999 < (wm.noteCopy 0 1 1).now
      ∧ (wm.noteCopy 0 1 1).sync.pending = none) := by
  decide +kernel

/-- Tile 255 forcing. -/
def wf (t : Nat) (f : Force → Force) : State := (atNs ws t).modForce 255 (fun g => f { g with mode := .force, phase := .normal })

theorem test_hyp_ForceEvents :
    (let s := wf 0 id; (s.tile 255).force.mode.forcing ∧ (s.tile 255).force.phase = .normal ∧ (s.tile 255).force.atRest ∧ 255 < s.nTiles)
    ∧ (let s := wf 20000 (fun f => { f with phase := .limit }); (s.tile 255).force.phase = .limit ∧ (s.tile 255).force.limitStart + 20000 ≤ s.now)
    ∧ (∀ r ∈ [7, 8], let s := wf 200000 (fun f => { f with phase := .foldback, retry := r });
      (s.tile 255).force.phase = .foldback ∧ (s.tile 255).force.foldAt + 200000 ≤ s.now ∧ ((s.tile 255).force.retry < 8 ↔ r = 7))
    ∧ (let s := wf 10000000 (fun f => { f with phase := .hiz }); (s.tile 255).force.phase = .hiz ∧ (s.tile 255).force.hizAt + 10000000 ≤ s.now)
    ∧ (let s := wf 20000 (fun f => { f with closedAt := some 0 }); (s.tile 255).force.closedAt = some 0 ∧ 20000 ≤ s.now ∧ (s.tile 255).force.driving)
    ∧ (let s := wf 100000000 (fun f => { f with cleanSince := some 0 });
      (s.tile 255).force.cleanSince = some 0 ∧ 100000000 ≤ s.now ∧ (s.tile 255).force.driving)
    ∧ (let f := ((wf 1000 (fun f => { f with mode := .forceSense })).tile 255).force;
      f.mode = .forceSense ∧ (wf 1000 id).edge % 2 = 0 ∧ f.updEdge ≠ (wf 1000 id).edge + 1 ∧ f.closedAt = none ∧ f.hold = false ∧ f.slew = false)
    ∧ (∀ b ∈ [false, true], let f := ((wf 0 (fun f => { f with slew := b, hold := true, held := 1 })).tile 255).force;
      f.mode = .force ∧ f.hold ∧ f.held = 1 ∧ f.slew = b)
    ∧ (let f := ((wf 0 (fun f => { f with slew := true })).tile 255).force; f.slew ∧ f.hold = false ∧ f.phase = .normal)
    ∧ (let f := ((wf 0 (fun f => { f with phase := .latched })).tile 255).force; f.phase ≠ .normal ∧ f.phase ≠ .limit)
    ∧ (let f := ((wf 0 (fun f => { f with ramp := true })).tile 255).force; f.ramp ∧ f.pos = 0 ∧ f.v = 0)
    ∧ (let s := (atNs ws 25000).modKindle 7 (fun k => { k with queue := [255], lastSlot := some 0 });
      (tget {} s.node.kindle 7).queue = [255] ∧ 0 + 25000 ≤ s.now ∧ s.node.va5Off = false ∧ s.findOp 0x0207 255 = none
      ∧ ((s.startOp (opMark 0x0207) 255 (rq 0 0x0207 []) 0 0).findOp 0x0207 255).isSome)
    ∧ (∀ n ∈ [2, 3], let r := rq 1 0x0605 [⟨18, 0, 8, n⟩];
      let s := ({ atNs ws 12500 with loopbacks := [(254, { range := 0, slew := false, start := 0, levelAt := 0, errs := [0] })] }).startOp (opMark 0x0605) 254 r 0 0;
      (s.loopbacks.find? (fun e => e.1 = 254)).isSome ∧ (s.findOp 0x0605 254).map (fun o => o.req) = some r ∧ 0 + r.u 20 0 16 * 1000 + 12500 ≤ s.now ∧ ([0].length + 1 = r.u 18 0 8 ↔ n = 2)) := by
  decide +kernel

/-- Stove 31 with the state given. -/
def wsv (t : Nat) (f : Stove → Stove) : State := (atNs ws t).modStove 31 f

theorem test_hyp_StoveRuns :
    (let w : FabricWord := { stove := 31, port := 15, src := 0, since := 0, word := 0, seq := 0, time := 0 };
      let s := { wsv 0 port15 with fabric := [w] };
      s.fabricNext 7 = some w ∧ s.stoveFenced 31 = false
      ∧ (tget ({} : InPort) (s.stove 31).ports 15).bound = some w.src ∧ 31 < s.nStoves
      ∧ { s with faults := { s.faults with fencedStoves := [31] } }.stoveFenced 31 ∧ { s with stoveTab := [] }.fabricNext 7 = some w
      ∧ (tget ({} : InPort) ({ s with stoveTab := [] }.stove 31).ports 15).bound ≠ some w.src)
    ∧ (let s := wsv 10 (fun v => { v with laws := [(7, { alignFirst := some 0, alignWait := 10 })] });
      ((s.stove 31).law 7).alignFirst = some 0 ∧ 0 + ((s.stove 31).law 7).alignWait ≤ s.now)
    ∧ (let s := wsv 0 (fun v => { v with state := .idle, laws := [(7, { enable := true, pending := true })] });
      (s.stove 31).state = .idle ∧ (s.stove 31).run = none
      ∧ (List.range 8).find? (fun i => (((s.settle 31).stove 31).law i).pending && (((s.settle 31).stove 31).law i).enable) = some 7)
    ∧ (let s := wsv 0 (fun v => { v with laws := [(0, { maxCycles := 10 })], run := some { run0 with cycle := 9, stalled := true } });
      (s.stove 31).run = some { run0 with cycle := 9, stalled := true } ∧ ((s.stove 31).law 0).maxCycles ≤ 9 + 1)
    ∧ (let s := wsv 0 (fun v => { v with psCount := 1, run := some { run0 with pc := 0x40000000, stalled := true } });
      (psWindow 31 0x40000000).isSome ∧ (∀ k ∈ [14, 15], (s.bank k).running = false) ∧ (s.stove 31).run.isSome) := by
  decide +kernel

def wbank (o : PsOp) (f : PsBank → PsBank) : State := (atNs ws 100000000).modBank 15 (fun b => f { b with queue := [o] })

theorem test_hyp_StoreAndMeterEvents :
    (let o : PsOp := { kind := 0, off := 0x3FFFC0, req := some (rq 1 0x0F01 [⟨20, 0, 16, 64⟩]) };
      ((wbank o id).bank 15).queue = [o] ∧ ((wbank o id).bank 15).running = false ∧ 15 < 2 * ws.node.dies)
    ∧ (∀ t ∈ [none, some 99000001], let s := wbank { kind := 1, off := 0 } (fun b => { b with lastFill := t, heldSince := some 0 });
      s.xipHeld 15 = t.isSome ∧ (s.bank 15).running = false ∧ (∀ i ∈ List.range 256, (s.bank 15).byte (0 + i) = 0xFF)
      ∧ (s.bank 15).heldSince = some 0 ∧ 0 + 100000000 ≤ s.now)
    ∧ (let s := wbank { kind := 1, off := 0 } (fun b => { b with cells := [(255, 0)] }); (s.bank 15).byte (0 + 255) ≠ 0xFF)
    ∧ ((wbank { kind := 2, off := 0 } (fun b => { b with running := true })).bank 15).running
    ∧ (let s := (atNs { ws with node := { ws.node with meterRestored := true } } 100000).modPair 63 (fun p => { p with state := .running });
      let e := s.pairNext (s.pair 63);
      e ≤ s.edge ∧ s.meterUp 63 ∧ 63 < s.nPairs ∧ (((s.pairBegin 63 e).modPair 63 (fun x => { x with lastInstant := some e })).pair 63).state ≠ .stopped
      ∧ (((s.pairBegin 63 e).modPair 63 (fun x => { x with lastInstant := some e })).pair 63).frozen = false)
    ∧ ((atNs ws 600000000000).now / 600000000000 ≠ ws.meter.lastPeriod ∧ { ws.node with meterRestored := true }.pfStage = .none
      ∧ (∀ k ∈ [2, 3], ws.logs.turn k ∧ ({ ws.logs with bank1 := [k, 0] } : Logs).turn k))
    ∧ (let s := ws.modKindle 0 (fun k => { k with kindled := true });
      s.node.meterRestored = false ∧ (tget {} s.node.kindle 0).kindled ∧ s.meter.best (meterPages s.node.dies) = none)
    ∧ ({ ws.meter with ring := [{ page := 0, record := { seq := 3, kind := .periodic, legal := 0, seconds := 0, regs := [], pages := meterPages 8 } }] }.best (meterPages 8)).isSome := by
  decide +kernel

theorem test_hyp_HostLinkEvents :
    (let s := { wm with node := { wm.node with pcieLanes := 8 }, host := { wm.host with linkUp := false } };
      s.isWorker = false ∧ s.host.linkUp = false ∧ s.host.perst = false ∧ s.node.pcieLanes = 8 ∧ s.trains 8 5 ∧ s.faults.fatal = false)
    ∧ wm.host.linkUp ∧ wm.hostUp ∧ { wm.host with retraining := true }.retraining ∧ wm.trains 8 5
    ∧ (wb.hostUp ∧ wb.fnThere 8 ∧ wb.barUp 0 ∧ wb.barUp 8 ∧ (wb.fn 8).root.flrBusy = false ∧ wb.host.vfEnable)
    ∧ (∀ b ∈ [false, true], let s := { wb with host := { wb.host with invals := [⟨8, 0, 1, b⟩] } };
      s.host.invals = ⟨8, 0, 1, b⟩ :: [])
    ∧ ((wm.modFn 8 (fun f => { f with root := { f.root with flrBusy := true } })).fn 8).root.flrBusy
    ∧ wm.host.vfEnable = false
    ∧ (∀ l ∈ [[], [0]], let s := { wm with trust := { wm.trust with live := l } };
      let t := (List.range 1).foldl (fun s h => s.makeLive [] h) { s with host := { s.host with vfEnable := true, numVfs := 1 } };
      (t.trust.live = s.trust.live ↔ l ≠ []) ∧ t.isManager)
    ∧ (∀ b ∈ [0, 1], let s := wb.modFn 0 (fun f => { f with admin := { f.admin with cmdBase := b } });
      s.barUp 0 ∧ ((s.fn 0).admin.cmdBase % 4096 ≠ 0 ↔ b = 1) ∧ (s.fn 0).admin.cplBase % 4096 = 0 ∧ (s.fn 0).admin.run = false
      ∧ (s.fn 0).admin.stopping = false ∧ ¬ ((s.fn 0).admin.cmdLog2 < 6) ∧ ¬ ((s.fn 0).admin.cplLog2 < (s.fn 0).admin.cmdLog2))
    ∧ (let s := wb.modFn 0 (fun f => { f with admin := { f.admin with run := true } }); s.barUp 0 ∧ (s.fn 0).admin.run ∧ (s.fn 0).admin.stopping = false) := by
  decide +kernel

theorem test_hyp_HostRegisters :
    (∀ m ∈ [false, true], let s := (atNs wb 100).modVec 0 63 (fun x => { x with causes := 1, modTime := 1, masked := m });
      s.hostUp ∧ s.vecHeld 0 63 = m ∧ (s.vec 0 63).causes ≠ 0 ∧ (s.vec 0 63).first + 100 * 1 ≤ s.now ∧ (s.vec 0 63).pendingBit = false ∧ (s.vec 0 63).masked = m)
    ∧ (63 < vecCount 8 ∧ wb.barUp 8 ∧ (wb.vec 8 63).pendingBit = false)
    ∧ (∀ d ∈ [false, true], let s := (wb.modVec 8 63 (fun x => { x with pendingBit := true, masked := true })).modFn 8 (fun f =>
        { f with cfg := { f.cfg with msixMask := d } });
      s.barUp 8 ∧ (s.vec 8 63).pendingBit ∧ (s.modVec 8 63 (fun x => { x with masked := false })).vecHeld 8 63 = d)
    ∧ (let s := { wb with roles := wsa.roles }; s.barUp 0 ∧ s.rwlOpen ∧ s.clogUsed < 4080 ∧ s.host.retraining = false
      ∧ { s.node with resetArm := some 1000 }.resetArm.isSome ∧ s.node.resetArm = none)
    ∧ (let s := { wb with roles := wsa.roles, clog := { wb.clog with staging := List.replicate 4080 ⟨0, .ok, 0, 0, 0, 0, 0, 0, [], .device⟩ } };
      s.barUp 0 ∧ s.rwlOpen ∧ 4080 ≤ s.clogUsed)
    ∧ wb.rwlOpen = false ∧ wm.barUp 0 = false
    ∧ (let s := { wm with node := { wm.node with resetArm := some 1000 } }; s.node.resetArm = some 1000 ∧ 1000 ≤ s.now)
    ∧ ((3 ≠ 4 ∧ 3 ≠ 8) ∧ 2 % 4 ≠ 0 ∧ 8188 % 4 = 0 ∧ 8188 < barSize 8 4 ∧ barSize 8 4 ≤ 8192 ∧ wb.hostUp ∧ wb.fnThere 8) := by
  decide +kernel

/-- The PF's queue 1,023 of a kind, live, with entries held, its context cached. -/
def wq (kind hi di : Nat) : State :=
  (({ wb with host := { wb.host with tlb := wctx.host.tlb } }).modFn 0 (fun f => { f with root := { f.root with active := true } })).modQueue 1023 (fun x => { x with
    live := true, cached := true, kind := kind, cplQid := 1022, hostIdx := hi, devIdx := di })

theorem test_hyp_QueueEvents :
    (let s := (wq 0 1 0).modFn 0 (fun f => { f with root := { f.root with en := true } });
      s.barUp 0 ∧ s.qidOwner 1023 = some 0 ∧ (s.fn 0).root.en ∧ (s.queue 1023).live ∧ (s.queue 1023).err = 0 ∧ (s.loadCtx [] 1023).2
      ∧ ((s.loadCtx [] 1023).1.queue 1023).bellOk 63 false ∧ ((s.loadCtx [] 1023).1.queue 1023).bellOk 64 false = false)
    ∧ (let s := (wq 0 1 0).modQueue 1022 (fun x => { x with live := true, kind := 1 });
      s.ringLive 1023 ∧ (s.queue 1023).kind = 0 ∧ (s.queue 1023).stopping = false ∧ (s.queue 1023).held ≠ 0 ∧ (s.queue 1023).inHand < 64 ∧ s.inHandAll < 1024
      ∧ s.host.reads.length < s.tagLimit ∧ (s.queue (s.queue 1023).cplQid).live ∧ s.turnOf ((s.qidOwner 1023).getD 0)
      ∧ (s.queue 1022).held + (s.queue 1022).reserved < 2 ^ (s.queue 1022).log2
      ∧ ((s.loadCtx [] 1023).1.entryAddr [] 1023 64 false).toBool)
    ∧ (let s := { wm with host := { wm.host with reads := [{ qid := 1023, idx := 0 }] } };
      (s.host.reads.find? (fun x => x.qid = 1023)).isSome ∧ opcodeKnown 0x0101 ∧ opcodeKnown 0 = false)
    ∧ (let s := { wq 2 0 1 with host := { (wq 2 0 1).host with recWait := [(1023, 5)] } };
      s.ringLive 1023 ∧ (s.queue 1023).kind ≠ 0 ∧ (s.queue 1023).held < 2 ^ (s.queue 1023).log2 ∧ (s.takeEntry 1023).isSome
      ∧ s.turnOf ((s.qidOwner 1023).getD 0) ∧ (s.loadCtx [] 1023).2 ∧ ((s.loadCtx [] 1023).1.entryAddr [] 1023 64 true).toBool)
    ∧ wm.host.lastDamp + 1000000 ≤ (atNs wm 1000000).now := by
  decide +kernel

/-- R464: the PF has 32 x 64 B in a round, and what opens the next round counts in it. -/
theorem test_shares :
    (let s := wm.spend 0 2047; s.credit 0 ∧ (s.spend 0 64).credit 0 = false ∧ ((s.spend 0 64).spend 0 64).credit 0) := by
  decide +kernel

def plan0 (w : PlanWhy) (h : Option Nat) : RingPlan := { seq := 1, switchAt := 1000, order := [0], avoid := [], link := (0, 0), why := w, holdEnd := h }

theorem test_hyp_RingLinks :
    (ww.ringOn ∧ ww.isWorker ∧ ww.ring.bypassClosed = false ∧ (ww.ring.port true).link ≠ 2 ∧ ww.faults.fatal = false ∧ ww.node.ringLanes = 8
      ∧ (List.replicate 16 (0 : Int)).length = 16 ∧ (ww.ring.port true).crcTimes = [])
    ∧ (wm.ringOn ∧ wm.isManager ∧ ((wm.modPort true (fun q => { q with link := 2 })).ring.port true).link = 2 ∧ wm.ring.join = none)
    ∧ (ww.firstCopy 63 0 65535 ∧ (ww.noteCopy 63 0 65535).firstCopy 63 0 65535 = false ∧ ww.firstCopy 0 1 0 ∧ 1000 ≤ ww.now ∧ ww.now < 1001)
    ∧ (∀ w ∈ [PlanWhy.heal, .reroute], ∀ s ∈ [ww, wm], let t := s.modRing (fun r => { r with plan := some (plan0 w none) });
      t.ring.plan = some (plan0 w none) ∧ (plan0 w none).switchAt ≤ t.now ∧ t.ringOn ∧ (t.isManager ↔ s = wm))
    ∧ (∀ d ∈ [[], [((0, 0), PlanWhy.heal)]], let t := ww.modRing (fun r => { r with plan := some (plan0 .heal (some 1000)), movesDue := d });
      t.ring.plan = some (plan0 .heal (some 1000)) ∧ 1000 ≤ t.now ∧ ((t.modRing (fun r => { r with plan := none })).releaseAll).ring.movesDue = d) := by
  decide +kernel

def time0 (form : Bool) : TimeFrame := { origin := 0, frac := 0, corr := 0, hopsDone := 0, last := 0, form := form }

theorem test_hyp_RingTime :
    (wm.ringOn ∧ wm.isManager ∧ wm.ring.timeSent = none ∧ (ww.modPort false (fun q => { q with link := 2 })).ring.west.link = 2
      ∧ ww.ring.west.reqSent = none)
    ∧ ((ww.modPort true (fun q => { q with reqSent := some 64000 })).ring.port true).reqSent = some 64000
    ∧ (ww.ring.state = .listening ∧ (time0 true).form ∧ (time0 true).joinTime = 0 ∧ ww.node.ringLanes = 8)
    ∧ (let s := atNs (ww.modRing (fun r => { r with state := .locked, east := { r.east with lastTime := some 0 } })) 100000;
      s.ring.state = .locked ∧ s.ring.east.lastTime = some 0 ∧ 0 + 100000 ≤ s.now ∧ s.ring.west.lastTime = none) := by
  decide +kernel

theorem test_hyp_RingTraffic :
    wm.ringOn ∧ wm.isManager
    ∧ (let s := atNs (wm.modRing (fun r => { r with packingSince := some 0 })) 2000; s.ring.packingSince = some 0 ∧ 0 + 2000 ≤ s.now)
    ∧ wm.qidOwner 1024 = some (0 + 1)
    ∧ (wm.modConn 63 (fun c => { c with enable := true, peer := 63 })).connFor 63 [] = some 63
    ∧ wm.firstCopy 63 1 0 ∧ (wm.noteCopy 63 1 0).firstCopy 63 1 0 = false ∧ wm.firstCopy 63 2 0 ∧ (wm.noteCopy 63 2 0).firstCopy 63 2 0 = false
    ∧ (tget {} (wm.modRing (fun r => { r with table := [(63, { present := true })] })).ring.table 63).present
    ∧ (∀ k ∈ [14, 15], let s := wm.modPort true (fun p => { p with crcTimes := List.replicate k wm.now });
      (16 ≤ (s.now :: (s.ring.port true).crcTimes.filter (fun t => decide (s.now < t + 1000000))).length ↔ k = 15)) := by
  decide +kernel

def cmd0 (k op : Nat) : CmdFrame := { kind := k, entry := BitVec.ofNat 512 op }
def answer0 : FrameOut := { type := .cpl, dst := some 0, aux := 0, body := 0 }
def forwarded0 : Forwarded := { tag := 7, node := 63, req := rq 0 0x0101 [], deadline := 1000 }

theorem test_hyp_RingCommandFrames :
    (ww.ringOn ∧ ww.isWorker ∧ ww.ring.bypassClosed = false ∧ (ww.takeTag 0 65535).2 ∧ (specOf (frameRequest (cmd0 0 0x0101) 0)).isSome
      ∧ (specOf (frameRequest (cmd0 3 0) 0)).isNone)
    ∧ (∀ a ∈ [[], [(0, 5, answer0)]], let s := ww.modRing (fun r => { r with seen := [(0, [5])], answered := a });
      (s.takeTag 0 5).2 = false ∧ ((s.takeTag 0 5).1.ring.answered.find? (fun a => a.1 = 0 && a.2.1 = 5)).isSome = !a.isEmpty)
    ∧ (let s := wm.modRing (fun r => { r with forwarded := [forwarded0] });
      (s.takeTag 63 1).2 ∧ (s.takeTag 63 1).1.ring.forwarded.find? (fun f => f.tag = 7 && f.node = 63) = some forwarded0
      ∧ Status.ofCode 0 = some .ok ∧ s.ring.forwarded.find? (fun f => decide (f.deadline ≤ s.now)) = some forwarded0)
    ∧ (wm.ring.bypassClosed = false ∧ ((wm.modRing (fun r => { r with seen := [(63, [1])] })).takeTag 63 1).2 = false)
    ∧ wm.findOp 0x0E01 0 = none
    ∧ (let s := atNs (ww.modRing (fun r => { r with unacked := [{ frame := answer0, sentAt := 0 }] })) 200000;
      s.ring.unacked.find? (fun u => decide (u.sentAt + 200000 ≤ s.now) && s.onRing u.frame.dst) = some { frame := answer0, sentAt := 0 }) := by
  decide +kernel

def offer0 (b : Bool) : JoinOffer := { a := 0, b := 0, joinAt := 1000, begun := b }

theorem test_hyp_RingJoining :
    (ww.ringOn ∧ ww.isWorker ∧ ww.ring.bypassClosed = false ∧ (ww.takeTag 0 1).2)
    ∧ (let s := wm.modRing (fun r => { r with table := (List.range 63).map (fun n => (n + 1, { present := true, serial := 0 })) });
      s.isManager ∧ 63 ≤ s.ring.present.length ∧ s.ring.table.find? (fun e => e.2.present && e.2.serial = 9) = none)
    ∧ (wm.ring.view = 0 ∧ wm.ring.reported = [] ∧ 2000000000 ≤ (atNs wm 2000000000).sinceRef)
    ∧ (let s := wm.modRing (fun r => { r with east := { r.east with link := 2 }, west := { r.west with link := 2 } });
      s.ring.east.link = 2 ∧ s.ring.west.link = 2 ∧ s.ring.bypassClosed = false)
    ∧ (let s := atNs (ww.modRing (fun r => { r with insertedAt := some 0 })) 100000000; s.ring.insertedAt = some 0 ∧ 0 + 100000000 ≤ s.now)
    ∧ (let s := wm.modRing (fun r => { r with view := 1, offersDue := [0] }); s.ring.view ≠ 0 ∧ s.ring.plan = none ∧ s.ring.join = none)
    ∧ (let s := ww.modRing (fun r => { r with join := some (offer0 false), lastA := some 0, lastB := some 0 });
      s.ring.join = some (offer0 false) ∧ (offer0 false).joinAt ≤ s.now ∧ s.ring.state = .listening ∧ s.ring.lastA = some (offer0 false).a
      ∧ s.ring.lastB = some (offer0 false).b ∧ s.node.ringLanes = 8)
    ∧ (let s := atNs (wm.modRing (fun r => { r with join := some (offer0 true) })) 100001000;
      s.isManager ∧ s.ring.join = some (offer0 true) ∧ s.ring.plan = none ∧ (offer0 true).joinAt + 100000000 ≤ s.now) := by
  decide +kernel

def staged0 (w : ClogFor) : ClogStaged := { action := 1, status := .ok, role := 1, time := 0, node := 0, func := 15, serial := 1, detail := 0, why := w }

theorem test_hyp_SessionEvents :
    ws.node.inReset = false ∧ ws.node.pfStage = .none
    ∧ (staged0 .device).why.req = none ∧ (staged0 (.command (rq 1 0 []))).why.req = some (rq 1 0 [])
    ∧ (staged0 (.archive (rq 2 0 []))).why = .archive (rq 2 0 []) ∧ ({ ws.clog with staging := [staged0 .device] }.staging ≠ []) ∧ ws.logs.turn 1 := by
  decide +kernel

theorem test_hyp_ProtectionEvents :
    (let s := ws.modConn 63 (fun c => { c with enable := true, dir := true, period := 1, tripFwd := true });
      (s.conn 63).enable ∧ (s.conn 63).dir ∧ (s.conn 63).period ≠ 0 ∧ (s.conn 63).tripUs = none ∧ (s.conn 63).lastUs = none
      ∧ s.prot.latch = false ∧ (s.modProt (fun p => { p with latch := true })).prot.latch)
    ∧ (let s := (wm.modConn 63 (fun c => { c with enable := true, holding := some { kind := 1, payload := [] } }));
      (s.conn 63).holding.isSome ∧ s.ringMute = false ∧ (s.conn 63).lastUs ≠ some s.us)
    ∧ (let s := atNs (ws.modConn 63 (fun c => { c with enable := true, state := 3, deadline := 10000 })) 10001000;
      (s.conn 63).enable ∧ (s.conn 63).dir = false ∧ 2 ≤ (s.conn 63).state ∧ ((s.conn 63).deadline : Int) < wrapDiff 32 s.nowUs (s.conn 63).lastTs)
    ∧ (let s := (atNs (ws.modProt (fun p => { p with debounce := some (true, 0), pulse := true })) 100000000).modKindle 0 (fun k => { k with kindled := true });
      s.prot.debounce = some (true, 0) ∧ 0 + 20000000 ≤ s.now ∧ (tget {} s.node.kindle 0).kindled ∧ s.node.inReset = false
      ∧ s.prot.pulse ∧ s.prot.pulseAt + s.prot.minPulse * 1000000 ≤ s.now) := by
  decide +kernel

def log0 : LogRec := { time := 0, kind := 0, node := 0, hearth := 0, subject := 0, detail := 0 }

theorem test_hyp_FaultEvents :
    ws.node.inReset = false
    ∧ ({ ws.faults with reports := [(1, 255, 0)] }.reports = (1, 255, 0) :: [])
    ∧ ((detector 0x2C).isSome ∧ (detector 0x01).isSome ∧ ws.instThere .core (255 + 65536))
    ∧ (let s := { ws with faults := { ws.faults with order := [127] } }; 127 ∈ s.faults.order ∧ s.faults.order.head? = some 127)
    ∧ (let s := { ws with faults := { ws.faults with order := [0, 127] } }.modRec 127 (fun r => { r with cls := 2 });
      127 ∈ s.faults.order ∧ (s.faultRec 127).cls = 2)
    ∧ ((ws.modRec 127 (fun r => { r with shadowEnd := some 1000 })).faultRec 127).shadowEnd = some 1000 ∧ 1000 ≤ ws.now
    ∧ ({ ws.faults with injection := some { det := 1, inst := 0, left := 1, react := false, deadline := 1000 } }.injection.isSome)
    ∧ (ws.node.trustLoaded ∧ log0.rid = none ∧ ws.isWorker ∧ wm.isWorker = false)
    ∧ (ws.logs.turn 0 ∧ ws.node.pfStage = .none ∧ ws.logs.maxErase < 9000 ∧ ws.logs.lastRefill + 1000000000 ≤ (atNs ws 1000000000).now) := by
  decide +kernel

theorem test_hyp_AgeingEvents :
    (let s := ws.modKindle 7 (fun k => { k with kindled := true });
      gaugePeriod 15 = some 86400000000000 ∧ s.gaugeUp 7 15 ∧ ((s.dieAge 7).gauge 15).lastRead = none)
    ∧ (ws.age.lastHour < (atNs ws 3600000000000).opSeconds / 3600)
    ∧ (let s := atNs ws 3600000000000000; s.node.ready ∧ s.faults.fatal = false ∧ s.age.replan = none ∧ s.age.since + 3600000 ≤ s.opSeconds)
    ∧ (∀ r ∈ [none, some (rq 1 0x0E02 [])], let s := { ws with
        age := { ws.age with replan := some { start := 0, trigger := 0, req := r } }, faults := { ws.faults with fatal := true } };
      s.age.replan.isSome ∧ s.faults.fatal)
    ∧ (({ ws.age with moves := [(1, 1000)] }).moves.any (fun m => decide (m.2 ≤ ws.now)) ∧ ws.ring.plan = none) := by
  decide +kernel

/-! ### Witnesses of the statements about the block -/

theorem test_hyp_EmptyQueue :
    State.reset.pending = [] ∧ State.reset.node.inReset ∧ ws.pending = [] ∧ ws.node.inReset = false ∧ ws.host.waiting = []
    ∧ (let s := { ws with host := { ws.host with waiting := [(rq 0 0x0101 [], [])] } };
      (s.pickWaiting (s.host.ops.flatMap (·.names) ++ s.clog.staging.flatMap (·.names) ++ s.ring.forwarded.flatMap (·.names)) [] s.host.waiting).isSome)
    ∧ (ws.pickWaiting [] [] ws.host.waiting).isNone := by
  decide +kernel

/-- The command starts and its checks give: BAD_PARAM; or a first status; or a page of its data that does not translate. -/
def fails (p : CmdSpec) (s : State) (r : Req) : Option Status :=
  if p.starts r s then pickStatus (p.checks r s) else none

theorem test_hyp_CommandsRefused :
    fails feConfigSpec ws (rq 1 0x0201 [⟨16, 0, 16, 256⟩]) = some .badParam ∧ fails feConfigSpec ws (rq 0 0x0201 [⟨16, 0, 16, 255⟩]) = some .rights
    ∧ (let r := { rq 0 0x0101 [] with origin := .ring };
      devIdentifySpec.starts r wsa ∧ (∀ c ∈ devIdentifySpec.checks r wsa, c.1 = false)
      ∧ ((wsa.taken r).mapData r (devIdentifySpec.data r (wsa.taken r))).2 = false) := by
  decide +kernel

theorem test_hyp_CommandsWaitOrTravel :
    (∀ s ∈ [({ ws with host := { ws.host with ops := [{ opcode := 0x0207, key := 255, req := rq 0 0x0207 [], names := [nTile 255] }] } } : State),
        { ws with clog := { ws.clog with staging := List.replicate 16 (staged0 .device) } }],
      let r := rq 0 0x0207 [⟨16, 0, 16, 255⟩];
      s.node.inReset = false ∧ s.outOfTurn r = false ∧ s.claim r = r ∧ r.opcode = tileModeSpec.opcode ∧ r.origin ≠ .ring
      ∧ (nTile 255 ∈ tileModeSpec.names r ∧ nTile 255 ∈ s.namesInHand ∨ 16 ≤ s.clog.staging.length))
    ∧ (let r := { rq 0 0x0207 [⟨6, 0, 1, 1⟩] with origin := .ring };
      let s := { wm with host := { wm.host with waiting := [(r, [])] } };
      s.isWorker = false ∧ s.outOfTurn r = false ∧ s.claim r = r ∧ r.b 6 0 ∧ s.queueInHand r.qid ∧ (∃ e ∈ s.host.waiting, e.1.origin = .ring ∧ e.1.qid = r.qid))
    ∧ (let r := { rq 0 0x0201 [⟨4, 0, 6, 63⟩, ⟨16, 0, 16, 255⟩] with origin := .ring };
      wm.isManager ∧ wm.outOfTurn r = false ∧ wm.claim r = r ∧ r.opcode = feConfigSpec.opcode ∧ r.u 4 0 6 ≠ 0 ∧ feConfigSpec.node = .forward
      ∧ feConfigSpec.budget = false ∧ wm.host.waiting = [] ∧ wm.namesInHand = [] ∧ r.b 6 0 = false ∧ wm.clog.staging.length < 16
      ∧ (∀ c ∈ (wm.taken r).headerRefusals feConfigSpec r ++ feConfigSpec.away r (wm.taken r), c.1 = false) ∧ ((wm.taken r).who r).isSome
      ∧ ((wm.taken r).mapData r (feConfigSpec.data r (wm.taken r))).2) := by
  decide +kernel

theorem test_hyp_FramesOfCommands :
    isStatusRead (.psStatus (rq 0 0x0F04 [])) ∧ commandOf (.psStatus (rq 0 0x0F04 [])) = some (rq 0 0x0F04 [], psStatusSpec)
    ∧ isTileCommand (.feConfig (rq 1 0x0201 [])) ∧ commandOf (.feConfig (rq 1 0x0201 [])) = some (rq 1 0x0201 [], feConfigSpec) :=
  ⟨rfl, rfl, rfl, rfl⟩

theorem test_hyp_StepKeepsMemories : State.reset.memOk ∧ step State.reset = .next State.reset := ⟨rfl, rfl⟩

theorem test_hyp_ForceTargetCode :
    toI 24 ((0x7FFFE000 : Word).toNat / 256) = 64 * 131071 + 32 ∧ toI 24 ((0x7FFFDFFF : Word).toNat / 256) = 64 * 131071 + 31
    ∧ (0x0C8000FF : Word).toNat / 256 = (0x0C800000 : Word).toNat / 256 := by
  decide +kernel

/-- The command answers a next state. -/
def goesOn (o : Host.Outcome State Fault Refusal) : Bool :=
  match o with
  | .next _ => true
  | _ => false

theorem test_hyp_WrappingCounts : (2 ^ 31 - 1 : Int) ≤ 2 ^ (32 - 1) - 1 ∧ ((0 : Int) - 2147483649 - (2 ^ 31 - 1)) % 2 ^ 32 = 0
    ∧ wrapDiff 32 0 2147483649 = 2 ^ 31 - 1 := by decide +kernel

theorem test_hyp_ForceRestart :
    (let s := wf 10000000 (fun f => { f with phase := .hiz }); (s.tile 255).force.phase = .hiz ∧ s.faults.fatal = false ∧ 255 < s.nTiles)
    ∧ (∀ c ∈ [[], [255]], let s := (wf 0 (fun f => { f with phase := .latched })).modKindle 7 (fun k => { k with kindled := true, nextUnit := 45 });
      let s := { s with faults := { s.faults with fencedCores := c } };
      logged forceRestartSpec s (rq 1 0x0603 [⟨16, 0, 16, 255⟩]) ∧ (s.forceOff 255 = true ↔ c ≠ [])) := by decide +kernel

theorem test_hyp_GeneratorBounds :
    (let s := wf 0 (fun f => { f with slew := true, v := 1000 * 6400 });
      let f := (s.tile 255).force;
      f.slew ∧ f.v.natAbs ≤ f.vmax * 6400 ∧ goesOn (exec (.forceUpdate 255) s)) := by
  decide +kernel

theorem test_hyp_GenesisEntry : (clogArchiveSpec.actsNow (rq 2 0x0B0B [⟨24, 0, 128, wlog.clog.headDigest⟩]) wlog).map
    (fun t => (t.clog.worn, t.node.pfStage, decide (t.trust.unlogged < 2 ^ 32))) = some (false, .none, true) ∧ wlog.logs.bank1 = [] := by
  decide +kernel

end Sys2Proof.Tests
end

section
/-! The DAC code of a force word (R118). -/

namespace Sys2Proof.Machine

theorem clampI_of_mem {lo hi v : Int} (hlo : lo ≤ v) (hhi : v ≤ hi) : clampI lo hi v = v := by
  simp [clampI, hlo.not_gt, hhi.not_gt]

theorem clampI_of_ge {lo hi v : Int} (h : lo ≤ hi) (hv : hi ≤ v) : clampI lo hi v = hi := by
  unfold clampI
  split_ifs <;> omega

theorem le_clampI {lo hi v : Int} (h : lo ≤ hi) : lo ≤ clampI lo hi v := by
  unfold clampI
  split_ifs <;> omega

/-- A half-up quotient does not depend on the unit both its terms are counted in. -/
theorem divHalfUp_mul_mul {c : Nat} (a : Int) (b : Nat) (hc : 0 < c) :
    divHalfUp (a * c) (b * c) = divHalfUp a b := by
  have hc' : (0 : Int) < c := by exact_mod_cast hc
  calc divHalfUp (a * c) (b * c)
      = ((2 * a + b) * c) / (((2 * b : Nat) : Int) * c) := by
        unfold divHalfUp
        push_cast
        ring_nf
    _ = divHalfUp a b := Int.mul_ediv_mul_of_pos_left _ _ hc'

theorem forceUnit_pos {range : Nat} (h : range < 4) : 0 < forceUnit range := by
  interval_cases range <;> decide

/-- On every range the code is T[31:8] / 64 rounded half up, then saturated: the range's unit cancels. -/
theorem dacCode_forcePos {range : Nat} (h : range < 4) (t : Word) :
    dacCode range (forcePos range t) = clampI (-131072) 131071 ((force24 t + 32) / 64) := by
  have hu := forceUnit_pos h
  obtain ⟨c, hc⟩ := Int.eq_ofNat_of_zero_le hu.le
  have hc0 : 0 < c := by omega
  have hden : (64 * (c : Int)).toNat = 64 * c := by omega
  have hround : divHalfUp (force24 t) 64 = (force24 t + 32) / 64 := by
    unfold divHalfUp
    omega
  rw [dacCode, forcePos, hc, hden, divHalfUp_mul_mul _ _ hc0, hround]

/-- T[31:8], signed, is the floor of T / 256. -/
theorem force24_eq_toInt_ediv (t : Word) : force24 t = t.toInt / 256 := by
  have ht := t.isLt
  rw [force24, toI, BitVec.toInt_eq_toNat_cond]
  split_ifs <;> omega

theorem le_force24 (t : Word) : -8388608 ≤ force24 t := by
  have hlo := t.le_toInt
  rw [force24_eq_toInt_ediv]
  omega

/-- Settles O57: the range's unit cancels, so the code is the clamp of the floor of (T[31:8] + 32) / 64, and only the upper bound of
the clamp is ever met. -/
theorem forceTargetCode : Obligations.ForceTargetCode := by
  intro range t u hr k q
  have hq : q = clampI (-131072) 131071 ((k + 32) / 64) := dacCode_forcePos hr t
  have hk : k = t.toInt / 256 := force24_eq_toInt_ediv t
  have hlo : -8388608 ≤ k := le_force24 t
  refine ⟨fun hu => ?ignoresLowByte, fun hlt => ?rounds, fun hge => ?saturates, ?bounded⟩
  case ignoresLowByte =>
    have h24 : force24 u = k := congrArg (toI 24) hu
    rw [dacCode_forcePos hr u, h24, hq]
  case rounds =>
    have hcode : q = (k + 32) / 64 := hq.trans (clampI_of_mem (by omega) (by omega))
    omega
  case saturates => exact hq.trans (clampI_of_ge (by omega) (by omega))
  case bounded => exact hq ▸ le_clampI (by omega)

end Sys2Proof.Machine
end

section
/-! The fields of a little-endian record, read back (R10), and the DETAIL of a change-log entry (R478). -/

namespace Sys2Proof.Machine

theorem bits_lt (v lo w : Nat) : bits v lo w < 2 ^ w := Nat.mod_lt _ (Nat.two_pow_pos w)

theorem satInc_lt (w n : Nat) : satInc w n < 2 ^ w := by
  have hw := Nat.two_pow_pos w
  unfold satInc
  split <;> omega

theorem testBit_bits (v lo w i : Nat) : (bits v lo w).testBit i = (decide (i < w) && v.testBit (lo + i)) := by
  rw [bits, Nat.testBit_mod_two_pow, Nat.testBit_div_two_pow, Nat.add_comm i lo]

theorem bits_mod_two_pow {n lo w : Nat} (v : Nat) (h : lo + w ≤ n) : bits (v % 2 ^ n) lo w = bits v lo w := by
  refine Nat.eq_of_testBit_eq fun i => ?_
  rw [testBit_bits, testBit_bits, Nat.testBit_mod_two_pow]
  by_cases hi : i < w
  · simp [hi, show lo + i < n by omega]
  · simp [hi]

theorem bits_ofNat {n lo w : Nat} (v : Nat) (h : lo + w ≤ n) : bits (BitVec.ofNat n v).toNat lo w = bits v lo w := by
  rw [BitVec.toNat_ofNat, bits_mod_two_pow v h]

/-- A multiple of 2^n added above does not show below bit n. -/
theorem bits_add_of_dvd {n lo w b : Nat} (a : Nat) (hb : 2 ^ n ∣ b) (h : lo + w ≤ n) : bits (a + b) lo w = bits a lo w := by
  obtain ⟨q, rfl⟩ := hb
  rw [← bits_mod_two_pow _ h, Nat.add_mul_mod_self_left, bits_mod_two_pow _ h]

/-- Above an a that ends below bit n, b stands from bit n on. -/
theorem bits_add_mul_two_pow {n a : Nat} (b k w : Nat) (ha : a < 2 ^ n) : bits (a + b * 2 ^ n) (n + k) w = bits b k w := by
  rw [bits, bits, Nat.pow_add, ← Nat.div_div_eq_div_mul, Nat.add_mul_div_right _ _ (Nat.two_pow_pos n), Nat.div_eq_of_lt ha,
    Nat.zero_add]

/-- What lies below bit n does not show from bit n on. -/
theorem bits_add_of_lt {n lo a b : Nat} (w : Nat) (ha : a < 2 ^ n) (hb : 2 ^ n ∣ b) (h : n ≤ lo) : bits (a + b) lo w = bits b lo w := by
  obtain ⟨q, rfl⟩ := hb
  obtain ⟨k, rfl⟩ := Nat.exists_eq_add_of_le h
  have hz := bits_add_mul_two_pow q k w (Nat.two_pow_pos n)
  rw [Nat.zero_add] at hz
  rw [Nat.mul_comm, bits_add_mul_two_pow q k w ha, hz]

/-- The bit at which a field starts, and the one behind it. -/
def Fld.start (f : Fld) : Nat := 8 * f.off + f.lo
def Fld.stop (f : Fld) : Nat := f.start + f.w

theorem mkRec_cons (f : Fld) (t : List Fld) : mkRec (f :: t) = f.v % 2 ^ f.w * 2 ^ f.start + mkRec t := rfl

theorem field_lt (f : Fld) : f.v % 2 ^ f.w * 2 ^ f.start < 2 ^ f.stop := by
  rw [Fld.stop, Nat.add_comm, Nat.pow_add]
  exact Nat.mul_lt_mul_of_pos_right (Nat.mod_lt _ (Nat.two_pow_pos _)) (Nat.two_pow_pos _)

theorem two_pow_dvd_mkRec {n : Nat} {l : List Fld} (h : ∀ f ∈ l, n ≤ f.start) : 2 ^ n ∣ mkRec l := by
  induction l with
  | nil => exact dvd_zero _
  | cons f t ih =>
    simp only [List.forall_mem_cons] at h
    exact dvd_add (dvd_mul_of_dvd_right (Nat.pow_dvd_pow 2 h.1) _) (ih h.2)

/-- A record whose fields stand in order, none over another, reads back each of them. -/
theorem bits_mkRec {l : List Fld} (hl : l.Pairwise (fun f g => f.stop ≤ g.start)) {g : Fld} (hg : g ∈ l) {k w : Nat} (h : k + w ≤ g.w) :
    bits (mkRec l) (g.start + k) w = bits g.v k w := by
  induction l with
  | nil => cases hg
  | cons f t ih =>
    obtain ⟨hft, ht⟩ := List.pairwise_cons.1 hl
    have hd : 2 ^ f.stop ∣ mkRec t := two_pow_dvd_mkRec hft
    rw [mkRec_cons]
    obtain rfl | hgt := List.mem_cons.1 hg
    · rw [bits_add_of_dvd _ hd (by unfold Fld.stop; omega), ← bits_mod_two_pow g.v h]
      simpa using bits_add_mul_two_pow (g.v % 2 ^ g.w) k w (Nat.two_pow_pos g.start)
    · rw [bits_add_of_lt w (field_lt f) hd (Nat.le_add_right_of_le (hft g hgt)), ih ht hgt]

/-- Bytes 24 to 47 of an entry are its DETAIL (R478). -/
theorem bits_entry_detail (x : ClogStaged) (boot lseq prev : Nat) {lo w : Nat} (h1 : 192 ≤ lo) (h2 : lo + w ≤ 384) :
    bits (x.entry boot lseq prev).toNat lo w = bits x.detail (lo - 192) w := by
  obtain ⟨k, rfl⟩ := Nat.exists_eq_add_of_le h1
  rw [ClogStaged.entry, bits_ofNat _ (by omega), Nat.add_sub_cancel_left]
  exact bits_mkRec (g := ⟨24, 0, 192, x.detail⟩) (by simp [Fld.start, Fld.stop]) (by simp) (by simpa using by omega)

end Sys2Proof.Machine
end

section
/-! The GENESIS entry of CLOG_ARCHIVE, from its command to its programming (R481, R482). -/

namespace Sys2Proof.Machine

/-- A copy of an entry goes to the PF's log queue or onto the ring: no unit changes. -/
@[simp] theorem units_copyEntry (s : State) (e : BitVec 512) : (s.copyEntry e).units = s.units := by
  unfold State.copyEntry
  split
  · exact units_sendFrame _ _
  · extract_lets c put
    have hput : ∀ (u : State) (c : LogCopy), (put u c).units = u.units := by
      intro u c
      simp only [put]
      split
      · rfl
      · split
        · rfl
        · split <;> simp
    rw [hput, hput]

theorem trust_of_units {s t : State} (h : s.units = t.units) : s.trust = t.trust :=
  show s.units.trust = t.units.trust from congrArg State.trust h

/-- An entry that is staged and then taken leaves the state as it was. -/
theorem unstage_stage {s : State} (e : ClogStaged) (hst : s.clog.staging = []) (hb : s.logs.bank1 = []) :
    { s.stage e with clog := { (s.stage e).clog with staging := [] }, logs := (s.stage e).logs.took 1 } = s := by
  have hc : { s.clog with staging := [] } = s.clog := by rw [← hst]
  have hl : ({ s.logs with bank1 := s.logs.bank1 ++ [1] } : Logs).took 1 = s.logs := by
    simp only [Logs.took, hb, List.nil_append, List.erase_cons_head]
    rw [← hb]
  simp only [State.stage, hl, hc]

/-- The programming of a GENESIS entry that nothing is staged before: the log is archived, and CLOG_ARCHIVE ends OK. -/
theorem entryDone_of_archive {s : State} {e : ClogStaged} {r : Req} (hr : s.node.inReset = false) (hpf : s.node.pfStage = .none)
    (hst : s.clog.staging = []) (hb : s.logs.bank1 = []) (hw : e.why = .archive r) :
    exec (.changeLogEntryDone true) (s.stage e) = .next ((s.archived e).finish r .ok 0) := by
  have hc : (s.stage e).clog.staging = [e] := by simp [State.stage, hst]
  have hgo : ((s.stage e).node.inReset || (s.stage e).node.pfStage ≠ PfStage.none || !(s.stage e).logs.turn 1) = false := by
    simp [State.stage, Logs.turn, hr, hb, hpf]
  show execChangeLogEntryDone true (s.stage e) = _
  unfold execChangeLogEntryDone
  simp only [hc, hgo, Bool.false_eq_true, if_false, if_true, unstage_stage e hst hb, hw, State.afterEntry]

/-- The GENESIS entry sets UNLOGGED to zero (R482). -/
theorem archived_unlogged (s : State) (e : ClogStaged) : (s.archived e).trust.unlogged = 0 := by
  unfold State.archived
  rw [trust_of_units (units_copyEntry _ _), modTrust_trust]

theorem admits_of_actsNow {p : CmdSpec} {r : Req} {s t : State} (h : p.actsNow r s = some t) : ∃ w, p.admits r s = some (w, t) := by
  unfold CmdSpec.actsNow at h
  split at h
  · rename_i w u ha
    split at h
    · cases h
      exact ⟨w, ha⟩
    · cases h
  · cases h

/-- An admitted command: no condition refuses it, and its data is translated from the state its checks are made in. -/
theorem checks_of_admits {p : CmdSpec} {r : Req} {s t : State} {w : Who} (h : p.admits r s = some (w, t)) :
    pickStatus (p.checks r s) = none ∧ (s.taken r).mapData r (p.data r (s.taken r)) = (t, true) := by
  unfold CmdSpec.admits at h
  split at h
  · cases h
  · split at h
    · rename_i hp hm
      cases h
      exact ⟨hp, hm⟩
    · cases h

/-- CLOG_ARCHIVE acts with nothing staged, and names the LSEQ of the newest entry (R481). -/
theorem clogArchive_guards {r : Req} {s t : State} (h : clogArchiveSpec.actsNow r s = some t) :
    t.node.inReset = false ∧ t.clog.staging = [] ∧ r.u 20 0 32 + 1 = t.clog.nextLseq := by
  obtain ⟨w, ha⟩ := admits_of_actsNow h
  obtain ⟨hp, hm⟩ := checks_of_admits ha
  obtain rfl : s.taken r = t := congrArg Prod.fst hm
  obtain ⟨-, hrefuse⟩ := List.forall_mem_append.1 (pickStatus_none.1 hp)
  have hnamed := hrefuse _ List.mem_cons_self
  simp only [Bool.or_eq_false_iff, Bool.not_eq_false', List.isEmpty_iff, decide_eq_false_iff_not, not_not] at hnamed
  obtain ⟨⟨⟨-, hst⟩, hlseq⟩, -⟩ := hnamed
  exact ⟨admits_reset ha, hst, hlseq⟩

/-- CLOG_ARCHIVE with no area worn stages the GENESIS entry, whose DETAIL is laid out as R482 says. -/
theorem perform_clogArchive {r : Req} {s : State} (h : s.clog.worn = false) :
    ∃ e, clogArchiveSpec.perform r s = s.stage e ∧ e.why = .archive r
      ∧ e.detail = r.u 20 0 32 + satInc 32 s.trust.archiveCnt * 2 ^ 32 + s.trust.unlogged * 2 ^ 64 + s.trust.legalCnt * 2 ^ 96 := by
  simp only [CmdSpec.perform, clogArchiveSpec, h, Bool.false_eq_true, if_false, if_true]
  exact ⟨_, rfl, rfl, rfl⟩

/-- Four counts side by side, 32 bits apart, read back; the last one is cut to its 32 bits. -/
theorem bits_four_words {a b c : Nat} (d : Nat) (ha : a < 2 ^ 32) (hb : b < 2 ^ 32) (hc : c < 2 ^ 32) :
    let v := a + b * 2 ^ 32 + c * 2 ^ 64 + d * 2 ^ 96
    bits v 0 32 = a ∧ bits v 32 32 = b ∧ bits v 64 32 = c ∧ bits v 96 32 = d % 2 ^ 32 := by
  simp only [bits]
  omega

/-- Settles O60: the command stages an entry whose DETAIL is the four counts side by side, bytes 24 to 47 of an entry read its DETAIL
back, and the programming of the entry clears UNLOGGED. -/
theorem genesisEntry : Obligations.GenesisEntry := by
  intro r s t ht hworn hpf hb hul
  obtain ⟨hr, hst, hlseq⟩ := clogArchive_guards ht
  obtain ⟨e, hstage, hwhy, hdet⟩ := perform_clogArchive (r := r) hworn
  have hcmd : exec (.clogArchive r) s = .next (t.stage e) := by
    rw [← hstage, ← run_of_actsNow ht]
    rfl
  refine ⟨e, (t.archived e).finish r .ok 0, hcmd, hwhy, fun boot lseq prev => ?detail, entryDone_of_archive hr hpf hst hb hwhy, ?cleared⟩
  case detail =>
    obtain ⟨h24, h28, h32, h36⟩ := bits_four_words t.trust.legalCnt (bits_lt r.entry.toNat (8 * 20 + 0) 32)
      (satInc_lt 32 t.trust.archiveCnt) hul
    simp (disch := omega) only [bits_entry_detail, hdet]
    exact ⟨(congrArg (· + 1) h24).trans hlseq, h28, h32, h36⟩
  case cleared =>
    rw [trust_of_units (units_finish _ _ _ _), archived_unlogged]

end Sys2Proof.Machine
end

section
/-! The signed distance of wrapping counts (R589): the balanced residue of their difference. -/

namespace Sys2Proof.Machine

/-- The two's complement value of the low w bits is the residue modulo 2^w of least magnitude. -/
theorem toI_mod_two_pow {w : Nat} (hw : 0 < w) (n : Nat) : toI w (n % 2 ^ w) = (n : Int).bmod (2 ^ w) := by
  have hhalf := Nat.two_pow_pred_mul_two hw
  rw [toI, Int.bmod_def, Int.natCast_mod]
  generalize 2 ^ w = m at hhalf ⊢
  split_ifs <;> omega

/-- The 2^w that keeps the difference from going below zero does not show. -/
theorem wrapDiff_eq_bmod {w : Nat} (hw : 0 < w) (a b : Nat) : wrapDiff w a b = ((a : Int) - b).bmod (2 ^ w) := by
  have hb : b % 2 ^ w ≤ a + 2 ^ w := (Nat.mod_lt b (Nat.two_pow_pos w)).le.trans (Nat.le_add_left ..)
  calc wrapDiff w a b
      = ((a : Int) + (2 ^ w : Nat) - (b : Int) % (2 ^ w : Nat)).bmod (2 ^ w) := by
        rw [wrapDiff, toI_mod_two_pow hw, Int.ofNat_sub hb, Int.natCast_add, Int.natCast_mod]
    _ = ((a : Int) - b).bmod (2 ^ w) := by
        rw [Int.sub_emod_bmod, add_sub_right_comm, Int.add_bmod_right]

/-- R589: the signed difference is the one value of its range that is congruent to a - b. -/
theorem wrapDiff_eq_iff {w : Nat} (hw : 0 < w) (a b : Nat) (d : Int) :
    wrapDiff w a b = d ↔ -(2 ^ (w - 1) : Int) ≤ d ∧ d ≤ 2 ^ (w - 1) - 1 ∧ (2 ^ w : Int) ∣ d - ((a : Int) - b) := by
  have hhalf : (2 : Int) ^ (w - 1) * 2 = 2 ^ w := pow_sub_one_mul hw.ne' 2
  rw [wrapDiff_eq_bmod hw, Int.bmod_eq_iff (Nat.two_pow_pos w)]
  push_cast
  omega

/-- Settles O56: the range and the congruence pin the signed difference down, so a true distance in that range is the signed
difference. -/
theorem wrappingCounts : Obligations.WrappingCounts := by
  intro w a b hw
  obtain ⟨hlo, hhi, hdvd⟩ := (wrapDiff_eq_iff hw a b _).1 rfl
  refine ⟨hlo, hhi, Int.emod_eq_zero_of_dvd hdvd, fun d hdlo hdhi hd => ?_⟩
  exact (wrapDiff_eq_iff hw a b d).2 ⟨hdlo, hdhi, dvd_sub_comm.1 (Int.dvd_of_emod_eq_zero hd)⟩

end Sys2Proof.Machine
end

section
/-! The words of a stove's instructions (R280, R281): the fields of a word in each format, and the instruction they decode to. -/

namespace Sys2Proof

/-- The fields of a word in format R, read back. -/
theorem fields_wordR {op a b c x : Nat} (hop : op < 64) (ha : a < 32) (hb : b < 32) (hc : c < 32) (hx : x < 2048) :
    wordR op a b c x < 2 ^ 32 ∧ wordR op a b c x / 2 ^ 26 % 64 = op ∧ wordR op a b c x / 2 ^ 21 % 32 = a
    ∧ wordR op a b c x / 2 ^ 16 % 32 = b ∧ wordR op a b c x / 2 ^ 11 % 32 = c ∧ wordR op a b c x / 512 % 4 = x / 512 := by
  unfold wordR
  omega

/-- The fields of a word in format I, read back. -/
theorem fields_wordI {op a b imm : Nat} (hop : op < 64) (ha : a < 32) (hb : b < 32) (hi : imm < 65536) :
    wordI op a b imm < 2 ^ 32 ∧ wordI op a b imm / 2 ^ 26 % 64 = op ∧ wordI op a b imm / 2 ^ 21 % 32 = a
    ∧ wordI op a b imm / 2 ^ 16 % 32 = b ∧ wordI op a b imm % 2 ^ 16 = imm := by
  unfold wordI
  omega

/-- An instruction that every word with its fields decodes to is the one its word in format R decodes to. -/
theorem roundTrip_wordR {op a b c x : Nat} {i : Instr} (hop : op < 64) (ha : a < 32) (hb : b < 32) (hc : c < 32) (hx : x < 2048)
    (h : ∀ w, w / 2 ^ 26 % 64 = op → w / 2 ^ 21 % 32 = a → w / 2 ^ 16 % 32 = b → w / 2 ^ 11 % 32 = c → w / 512 % 4 = x / 512 →
      ∃ sv, stoveDecode sv w = i) :
    wordR op a b c x < 2 ^ 32 ∧ ∃ sv, stoveDecode sv (wordR op a b c x) = i := by
  obtain ⟨hlt, h1, h2, h3, h4, h5⟩ := fields_wordR hop ha hb hc hx
  exact ⟨hlt, h _ h1 h2 h3 h4 h5⟩

/-- The same in format I. -/
theorem roundTrip_wordI {op a b imm : Nat} {i : Instr} (hop : op < 64) (ha : a < 32) (hb : b < 32) (hi : imm < 65536)
    (h : ∀ w, w / 2 ^ 26 % 64 = op → w / 2 ^ 21 % 32 = a → w / 2 ^ 16 % 32 = b → w % 2 ^ 16 = imm → ∃ sv, stoveDecode sv w = i) :
    wordI op a b imm < 2 ^ 32 ∧ ∃ sv, stoveDecode sv (wordI op a b imm) = i := by
  obtain ⟨hlt, h1, h2, h3, h4⟩ := fields_wordI hop ha hb hi
  exact ⟨hlt, h _ h1 h2 h3 h4⟩

/-- Settles O52: the fields of a word are those it is made of, format by format, and the opcode finds the instruction again. -/
theorem stoveWordsRoundTrip : Obligations.StoveWordsRoundTrip := by
  intro i w hwf hw hloop hill
  unfold stoveWord at hw
  split at hw <;> simp only [Option.some.injEq, reduceCtorEq] at hw <;> subst hw <;>
    simp only [Instr.wf, Bool.and_eq_true, decide_eq_true_eq] at hwf
  -- h_63 is the illegal word, h_57 FCMP with its relation in x; h_65 to h_67 are the loop steps, which the statement leaves out.
  case h_65 => exact absurd rfl (hloop _ _ _).1
  case h_66 => exact absurd rfl (hloop _ _ _).2.1
  case h_67 => exact absurd rfl (hloop _ _ _).2.2
  case h_63 =>
    obtain rfl := hill _ _ rfl
    refine roundTrip_wordR ?_ ?_ ?_ ?_ ?_ fun w hop _ _ _ _ => ?_ <;> try omega
    unfold stoveDecode
    rw [hop]
    exact ⟨_, rfl⟩
  case h_57 =>
    refine roundTrip_wordR ?_ ?_ ?_ ?_ ?_ fun w hop ha hb hc hx => ?_ <;> try omega
    unfold stoveDecode
    rw [hop, ha, hb, hc, hx, Nat.mul_div_cancel_left _ (by decide)]
    exact ⟨_, rfl⟩
  case h_14 | h_15 | h_16 | h_17 | h_18 | h_19 | h_20 | h_21 | h_22 | h_23 | h_24 | h_25 | h_26 | h_27 | h_28 | h_29
    | h_30 | h_31 | h_36 | h_41 | h_42 | h_43 | h_44 | h_45 | h_61 | h_62 =>
    refine roundTrip_wordI ?_ ?_ ?_ ?_ fun w hop ha hb hi => ?_ <;> try omega
    unfold stoveDecode
    rw [hop, ha, hb, hi]
    exact ⟨_, rfl⟩
  case h_1 | h_2 | h_3 | h_4 | h_5 | h_6 | h_7 | h_8 | h_9 | h_10 | h_11 | h_12 | h_13 | h_32 | h_33 | h_34 | h_35 |
    h_37 | h_38 | h_39 | h_40 | h_46 | h_47 | h_48 | h_49 | h_50 | h_51 | h_52 | h_53 | h_54 | h_55 | h_56
    | h_58 | h_59 | h_60 | h_64 =>
    refine roundTrip_wordR ?_ ?_ ?_ ?_ ?_ fun w hop ha hb hc hx => ?_ <;> try omega
    unfold stoveDecode
    rw [hop, ha, hb, hc]
    exact ⟨_, rfl⟩

/-- Settles O53: each word decodes by computation. -/
theorem stoveWordSamples : Obligations.StoveWordSamples := by
  unfold Obligations.StoveWordSamples
  refine ⟨?_, ?_, ?_, ?_, ?_, ?_, ?_, ?_⟩ <;> rfl

end Sys2Proof
end

section
/-! The front of the queue, and the state at reset. -/

namespace Sys2Proof.Machine

/-- Settles O1. -/
theorem stepRunsFront : Obligations.StepRunsFront := fun _ _ _ => rfl

theorem tile_reset (n : Nat) : State.reset.tile n = {} := rfl
theorem stove_reset (sv : Nat) : State.reset.stove sv = {} := rfl

/-- Settles O55: the reset state lists no unit, so that each reads as its default. -/
theorem resetState : Obligations.ResetState := by
  refine ⟨by decide, by decide, by decide, by decide, by decide, by decide, rfl, fun n => ?_, fun sv k => ?_⟩
  · rw [tile_reset]
    decide
  · rw [stove_reset]
    refine ⟨rfl, ?_, ?_, rfl, rfl⟩
    · have h : (({} : Stove).regs.getD k 0) = 0 :=
        (List.getD_eq_getElem?_getD ..).trans (List.getElem?_getD_replicate_default_eq _ 32 k)
      rw [Stove.reg, h]
      simp
    · have h : (({} : Stove).accs.getD (k % 4) 0) = 0 :=
        (List.getD_eq_getElem?_getD ..).trans (List.getElem?_getD_replicate_default_eq _ 4 (k % 4))
      rw [Stove.acc, h]
      rfl

end Sys2Proof.Machine
end

section
/-! Host commands by their table entry, and what the checks of one that is not held back make of it (R388, R401, R605). -/

namespace Sys2Proof.Machine

/-- A host command runs its entry of the table. -/
theorem exec_of_commandOf {i : Instr} {r : Req} {p : CmdSpec} (h : commandOf i = some (r, p)) (s : State) :
    exec i s = .next (p.run r s) := by
  unfold commandOf at h
  split at h
  case h_89 => cases h
  all_goals
    cases h
    rfl

/-! ### The status that stands first (R605) -/

theorem Status.rank_injective : Function.Injective Status.rank := by
  intro x y
  cases x <;> cases y <;> decide

theorem pickStatus_cons_true (x : Status) (l : List (Bool × Status)) :
    pickStatus ((true, x) :: l) = match pickStatus l with
      | none => some x
      | some y => if y.rank < x.rank then some y else some x := rfl

/-- The status picked is that of a condition that holds, and none that holds stands before it. -/
theorem pickStatus_some {l : List (Bool × Status)} {y : Status} (h : pickStatus l = some y) :
    (∃ c ∈ l, c.1 = true ∧ c.2 = y) ∧ ∀ c ∈ l, c.1 = true → y.rank ≤ c.2.rank := by
  induction l generalizing y with
  | nil => cases h
  | cons c t ih =>
    obtain ⟨b, x⟩ := c
    cases b with
    | false =>
      obtain ⟨⟨c, hc, hy⟩, hle⟩ := ih h
      exact ⟨⟨c, List.mem_cons_of_mem _ hc, hy⟩, by simpa using hle⟩
    | true =>
      rw [pickStatus_cons_true] at h
      cases ht : pickStatus t with
      | none =>
        rw [ht] at h
        cases h
        have hnone := pickStatus_none.1 ht
        refine ⟨⟨_, List.mem_cons_self, rfl, rfl⟩, fun c hc h1 => ?_⟩
        obtain rfl | hc := List.mem_cons.1 hc
        · exact le_rfl
        · exact absurd h1 (by simp [hnone c hc])
      | some z =>
        obtain ⟨⟨c, hc, hz⟩, hle⟩ := ih ht
        simp only [ht] at h
        split at h <;> cases h
        · refine ⟨⟨c, List.mem_cons_of_mem _ hc, hz⟩, fun c hc h1 => ?_⟩
          obtain rfl | hc := List.mem_cons.1 hc
          · exact Nat.le_of_lt ‹_›
          · exact hle c hc h1
        · refine ⟨⟨_, List.mem_cons_self, rfl, rfl⟩, fun c hc h1 => ?_⟩
          obtain rfl | hc := List.mem_cons.1 hc
          · exact le_rfl
          · have := hle c hc h1
            omega

/-- The status that stands first among those of the conditions that hold is the one picked. -/
theorem pickStatus_eq_some {l : List (Bool × Status)} {x : Status} (hm : ∃ c ∈ l, c.1 = true ∧ c.2 = x)
    (hle : ∀ c ∈ l, c.1 = true → x.rank ≤ c.2.rank) : pickStatus l = some x := by
  obtain ⟨c, hc, h1, rfl⟩ := hm
  cases hp : pickStatus l with
  | none => exact absurd (pickStatus_none.1 hp c hc) (by simp [h1])
  | some y =>
    obtain ⟨⟨d, hd, hd1, rfl⟩, hmin⟩ := pickStatus_some hp
    exact congrArg some (Status.rank_injective (le_antisymm (hmin c hc h1) (hle d hd hd1)))

/-- BAD_PARAM stands before every other status. -/
theorem pickStatus_badParam {l : List (Bool × Status)} (h : ∃ c ∈ l, c.1 = true ∧ c.2 = .badParam) : pickStatus l = some .badParam :=
  pickStatus_eq_some h (fun c _ _ => by cases c.2 <;> decide)

/-! ### The checks of a request that starts -/

/-- The conditions that BAD_PARAM answers are judged before the data is translated. -/
def badParams (l : List (Bool × Status)) : List (Bool × Status) := l.filter (fun c => c.2 = .badParam)

theorem pickStatus_badParams_some {l : List (Bool × Status)} (h : ∃ c ∈ l, c.1 = true ∧ c.2 = .badParam) :
    pickStatus (badParams l) = some .badParam := by
  obtain ⟨c, hc, h1, h2⟩ := h
  exact pickStatus_badParam ⟨c, List.mem_filter.2 ⟨hc, by simpa using h2⟩, h1, h2⟩

theorem pickStatus_badParams_none {l : List (Bool × Status)} (h : ∀ c ∈ l, c.1 = true → c.2 ≠ .badParam) :
    pickStatus (badParams l) = none := by
  refine pickStatus_none.2 fun c hc => ?_
  obtain ⟨hc, h2⟩ := List.mem_filter.1 hc
  cases h1 : c.1 with
  | false => rfl
  | true => exact absurd (by simpa using h2) (h c hc h1)

/-- What a request that starts comes to: BAD_PARAM by its fields, then by its data, then the status that stands first, then its action. -/
theorem run_of_starts_eq {p : CmdSpec} {r : Req} {s : State} (h : p.starts r s = true) :
    p.run r s = match pickStatus (badParams (p.checks r s)) with
      | some x => (s.taken r).finish r x 0
      | none => match (s.taken r).mapData r (p.data r (s.taken r)) with
        | (u, false) => u.finish r .badParam 0
        | (u, true) => match pickStatus (p.checks r s) with
          | some x => (p.refused r x u).finish r x 0
          | none => p.accept r (((s.taken r).who r).getD { right := 0, sess := 0, serial := 0 }) u := by
  rw [run_of_starts h, CmdSpec.checked]
  have hm : ((s.taken r).isManager && decide (r.origin = .ring) && decide (r.u 4 0 6 ≠ 0) && decide (p.node = .forward)) = false := by
    simp only [CmdSpec.starts, Bool.and_eq_true, Bool.not_eq_true'] at h
    exact h.2
  rw [if_neg (by rw [hm]; decide)]
  rfl

theorem run_of_badParam {p : CmdSpec} {r : Req} {s : State} (h : p.starts r s = true)
    (hc : ∃ c ∈ p.checks r s, c.1 = true ∧ c.2 = .badParam) : p.run r s = (s.taken r).finish r .badParam 0 := by
  rw [run_of_starts_eq h, pickStatus_badParams_some hc]

theorem run_of_untranslated {p : CmdSpec} {r : Req} {s u : State} (h : p.starts r s = true)
    (hc : ∀ c ∈ p.checks r s, c.1 = true → c.2 ≠ .badParam) (hu : (s.taken r).mapData r (p.data r (s.taken r)) = (u, false)) :
    p.run r s = u.finish r .badParam 0 := by
  rw [run_of_starts_eq h, pickStatus_badParams_none hc]
  simp only [hu]

theorem run_of_refused {p : CmdSpec} {r : Req} {s u : State} {x : Status} (h : p.starts r s = true)
    (hc : ∀ c ∈ p.checks r s, c.1 = true → c.2 ≠ .badParam) (hu : (s.taken r).mapData r (p.data r (s.taken r)) = (u, true))
    (hx : pickStatus (p.checks r s) = some x) : p.run r s = (p.refused r x u).finish r x 0 := by
  rw [run_of_starts_eq h, pickStatus_badParams_none hc]
  simp only [hu, hx]

/-- Settles O46: the checks that BAD_PARAM answers come first, then the data, then the status of lowest rank. -/
theorem commandsRefused : Obligations.CommandsRefused := by
  intro i r p s hi hs t checks
  rw [exec_of_commandOf hi]
  refine ⟨fun hc => by rw [run_of_badParam hs hc], fun hc => ⟨fun u hu => by rw [run_of_untranslated hs hc hu], fun u x hu hx hle => ?_⟩⟩
  rw [run_of_refused hs hc hu (pickStatus_eq_some hx hle)]

/-- No command but SESSION_OPEN changes anything by being refused (R471). -/
theorem refused_of_commandOf {i : Instr} {r : Req} {p : CmdSpec} (h : commandOf i = some (r, p)) (hop : p.opcode ≠ 0x0B01) (x : Status)
    (u : State) : p.refused r x u = u := by
  unfold commandOf at h
  split at h
  case h_89 => cases h
  all_goals
    cases h
    first | rfl | exact absurd rfl hop

theorem opcode_of_starts {p : CmdSpec} {r : Req} {s : State} (h : p.starts r s = true) : r.opcode = p.opcode := by
  simp only [CmdSpec.starts, Bool.and_eq_true, decide_eq_true_eq] at h
  exact h.1.1.1.1.1.2

/-- Settles O47: a completion, the fetch and the translation of data change no unit, and no refusal of these commands does. -/
theorem refusalsChangeNothing : Obligations.RefusalsChangeNothing := by
  intro i r p s hi hop hs hc
  refine ⟨_, exec_of_commandOf hi s, ?_⟩
  have hu := units_mapData (s.taken r) r (p.data r (s.taken r))
  rw [units_taken] at hu
  by_cases hbad : ∃ c ∈ p.checks r s, c.1 = true ∧ c.2 = .badParam
  · rw [run_of_badParam hs hbad, units_finish, units_taken]
  · have hnot : ∀ c ∈ p.checks r s, c.1 = true → c.2 ≠ .badParam := fun c hm h1 h2 => hbad ⟨c, hm, h1, h2⟩
    obtain ⟨⟨c, hm, h1⟩, hd⟩ := hc.resolve_left hbad
    cases hx : pickStatus (p.checks r s) with
    | none => exact absurd (pickStatus_none.1 hx c hm) (by simp [h1])
    | some x =>
      rw [run_of_refused hs hnot (Prod.ext rfl hd) hx, units_finish,
        refused_of_commandOf hi (by rw [← opcode_of_starts hs]; exact hop), hu]

/-! ### A request that waits, and one for a worker (R390, R432) -/

theorem isWorker_of_isManager {s : State} (h : s.isManager = true) : s.isWorker = false := by
  simp only [State.isManager, State.isWorker, decide_eq_true_eq, decide_eq_false_iff_not] at h ⊢
  omega

/-- A request of the command's own opcode is held back by what is in hand, by a waiting one of its queue, by FENCE, or by the staging of
the change log. -/
theorem held_iff {p : CmdSpec} {r : Req} {s : State} (hop : r.opcode = p.opcode) :
    p.held r s = true ↔ (r.origin = .ring ∧ ∃ e ∈ s.host.waiting, e.1.origin = .ring ∧ e.1.qid = r.qid)
      ∨ (∃ n ∈ (if r.u 4 0 6 = 0 ∨ r.origin ≠ .ring then p.names r else queueNames p r), n ∈ s.namesInHand)
      ∨ (r.b 6 0 = true ∧ s.queueInHand r.qid = true) ∨ 16 ≤ s.clog.staging.length := by
  simp [CmdSpec.held, hop, or_assoc]

/-- A request that is held back waits, with the rights it holds. -/
theorem run_of_held {p : CmdSpec} {r : Req} {s : State} (hreset : s.node.inReset = false) (hw : s.isWorker = false ∨ r.origin ≠ .ring)
    (hturn : s.outOfTurn r = false) (hclaim : s.claim r = r) (hh : p.held r s = true) :
    p.run r s = { s with host := { s.host with
      fetched := s.host.fetched.erase (r.qid, r.entry)
      waiting := s.host.waiting ++ [(r, if r.u 4 0 6 = 0 ∨ r.origin ≠ .ring then p.names r else queueNames p r)]
      rights := s.host.rights ++
        (if r.origin ≠ .ring ∨ (r.qid, r.entry) ∈ s.host.fetched then [] else [((r.qid, r.entry), s.roleNow r)]) } } := by
  have hgo : (s.node.inReset || (s.isWorker && decide (r.origin = .ring)) || s.outOfTurn r) = false := by
    rcases hw with hw | hw <;> simp [hreset, hturn, hw]
  rw [run_eq p r s hclaim, if_neg (by rw [hgo]; decide), if_pos hh]
  by_cases hr : (r.qid, r.entry) ∈ s.host.fetched
  · simp [hr]
  · by_cases ho : r.origin = .ring
    · simp [hr, ho, State.holdRights]
      rfl
    · simp [hr, ho]

/-- A request for a worker that nothing holds back is forwarded. -/
theorem run_of_away {p : CmdSpec} {r : Req} {s : State} (hreset : s.node.inReset = false) (hturn : s.outOfTurn r = false)
    (hclaim : s.claim r = r) (hm : s.isManager = true) (ho : r.origin = .ring) (hn : r.u 4 0 6 ≠ 0) (hp : p.node = .forward)
    (hh : p.held r s = false) :
    p.run r s = (s.taken r).forward p r (((s.taken r).who r).getD { right := 0, sess := 0, serial := 0 }) := by
  have hgo : (s.node.inReset || (s.isWorker && decide (r.origin = .ring)) || s.outOfTurn r) = false := by
    simp [hreset, hturn, isWorker_of_isManager hm]
  have hmt : (s.taken r).isManager = true := hm
  rw [run_eq p r s hclaim, if_neg (by rw [hgo]; decide), if_neg (by rw [hh]; decide), CmdSpec.checked]
  simp [hmt, ho, hn, hp]

/-- The manager's own checks of a command for a worker find nothing (R47, R388, R522). -/
theorem pickStatus_away {p : CmdSpec} {r : Req} {s new : State} {n : Nat} (hchecks : ∀ c ∈ s.headerRefusals p r ++ p.away r s, c.1 = false)
    (hbudget : p.budget = false ∨ s.awayOver n new = false) :
    pickStatus (s.headerRefusals p r ++ p.away r s ++ [(p.budget && s.awayOver n new, .budget)]) = none := by
  refine pickStatus_none.2 fun c hc => ?_
  obtain hc | hc := List.mem_append.1 hc
  · exact hchecks c hc
  · rw [List.mem_singleton.1 hc]
    rcases hbudget with hb | hb <;> simp [hb]

theorem forward_untranslated {p : CmdSpec} {r : Req} {s u : State} {w : Who}
    (hchecks : ∀ c ∈ s.headerRefusals p r ++ p.away r s, c.1 = false)
    (hbudget : p.budget = false ∨ s.awayOver (r.u 4 0 6) (p.act r (s.asNode (r.u 4 0 6))).st = false)
    (hu : s.mapData r (p.data r s) = (u, false)) : s.forward p r w = u.finish r .badParam 0 := by
  simp only [State.forward, pickStatus_away hchecks hbudget, hu]

theorem forward_sent {p : CmdSpec} {r : Req} {s u : State} {w : Who} (hchecks : ∀ c ∈ s.headerRefusals p r ++ p.away r s, c.1 = false)
    (hbudget : p.budget = false ∨ s.awayOver (r.u 4 0 6) (p.act r (s.asNode (r.u 4 0 6))).st = false)
    (hu : s.mapData r (p.data r s) = (u, true)) :
    s.forward p r w =
      let x := if p.budget then u.tellRates (p.act r (s.asNode (r.u 4 0 6))).st.reads else u
      let v := x.sendAcked .cmd (r.u 4 0 6)
        (mkRec ([⟨0, 0, 8, r.fn⟩, ⟨1, 0, 8, w.right⟩, ⟨16, 0, 512, r.entry.toNat⟩] ++ x.operands r (p.data r s) 80))
      { v with ring := { v.ring with forwarded := v.ring.forwarded ++
        [{ tag := v.ring.tag, node := r.u 4 0 6, req := r, names := queueNames p r,
           deadline := v.now + v.ring.commandWait * 1000000000 }] } } := by
  simp only [State.forward, pickStatus_away hchecks hbudget, hu]

/-- Settles O48: a request held back is put with the waiting ones; one for a worker passes the manager's checks, and goes out in a frame. -/
theorem commandsWaitOrTravel : Obligations.CommandsWaitOrTravel := by
  intro i r p s hi hreset hop hturn hclaim names behind fenced
  rw [exec_of_commandOf hi]
  refine ⟨fun hw hwait => ?waits, ?travels⟩
  case waits => rw [run_of_held hreset hw hturn hclaim ((held_iff hop).2 hwait)]
  case travels =>
    intro hm ho hn hp hbehind hfree hfence hroom t new hchecks hbudget
    have hh : p.held r s = false := by
      rw [← Bool.not_eq_true, held_iff hop]
      rintro (h | ⟨n, hn, h⟩ | h | h)
      · exact hbehind h
      · exact hfree n hn h
      · exact hfence h
      · omega
    rw [run_of_away hreset hturn hclaim hm ho hn hp hh]
    refine ⟨fun u hu => ?_, fun u w hw hu => ?_⟩
    · rw [forward_untranslated hchecks hbudget hu]
    · rw [forward_sent hchecks hbudget hu, hw]
      rfl

end Sys2Proof.Machine
end

section
/-! The frames of the commands that read a record, and of those that set one tile. -/

namespace Sys2Proof.Machine

/-- A command that acts at once acts on the units as they stood. -/
theorem units_of_actsNow {p : CmdSpec} {r : Req} {s t : State} (h : p.actsNow r s = some t) : t.units = s.units := by
  obtain ⟨w, ha⟩ := admits_of_actsNow h
  obtain ⟨-, hm⟩ := checks_of_admits ha
  have hu := units_mapData (s.taken r) r (p.data r (s.taken r))
  rw [hm, units_taken] at hu
  exact hu

/-- A command whose action changes no unit changes none with its completion. -/
theorem units_perform {p : CmdSpec} {r : Req} {s : State} (h : (p.act r s).st.units = s.units) : (p.perform r s).units = s.units := by
  unfold CmdSpec.perform
  dsimp only
  split
  · exact h
  · rw [units_finish, h]

/-- A record read's action writes its record out, and changes no unit. -/
theorem units_act_of_isStatusRead {i : Instr} {r : Req} {p : CmdSpec} (hi : commandOf i = some (r, p)) (hread : isStatusRead i = true)
    (s : State) : (p.act r s).st.units = s.units := by
  unfold commandOf at hi
  split at hi <;> cases hi <;> try cases hread
  case h_35 => exact units_writeResult { s with fresh := s.fresh + 1 } _ _ _ _
  case h_53 => simp [queueStatusSpec, apply_ite State.units]
  case h_56 =>
    have hfree : (if s.isWorker = true then (0, s) else s.free).2.units = s.units := by split <;> rfl
    have hclear : ∀ (u : State) (f : Ring → Ring), (u.modRing f).units = u.units := fun _ _ => rfl
    simp [ringStatusSpec, apply_ite ActRes.st, apply_ite State.units, hfree, hclear]
  all_goals exact units_writeResult s _ _ _ _

/-- Settles O49: what a record read does is to write its record out and to complete. -/
theorem statusReadsChangeNothing : Obligations.StatusReadsChangeNothing := by
  intro i r p s hi hread t ht
  refine ⟨p.perform r t, by rw [exec_of_commandOf hi, run_of_actsNow ht], ?_⟩
  rw [units_perform (units_act_of_isStatusRead hi hread t), units_of_actsNow ht]

/-! ### The commands of one tile -/

/-- What a command of one tile, number n, leaves: the other tiles and every other unit as they were, and in `due` at most one entry. -/
def tileFrame (i : Instr) (r : Req) (t u : State) : Prop :=
  { u.units with tiles := [], due := [] } = { t.units with tiles := [], due := [] }
  ∧ (u.due = t.due ∨ ∃ a b c d, i = .feConfig r ∧ u.due = t.due ++ [.fe (r.u 16 0 16) a b c d])
  ∧ ∀ n, n ≠ r.u 16 0 16 → u.tile n = t.tile n

theorem tileFrame_refl (i : Instr) (r : Req) (t : State) : tileFrame i r t t := ⟨rfl, .inl rfl, fun _ _ => rfl⟩

theorem tileFrame_modTile {i : Instr} {r : Req} {t u : State} (h : tileFrame i r t u) (f : Tile → Tile) :
    tileFrame i r t (u.modTile (r.u 16 0 16) f) :=
  ⟨h.1, h.2.1, fun n hn => (tile_modTile_ne u f hn).trans (h.2.2 n hn)⟩

theorem tileFrame_ite {i : Instr} {r : Req} {t u v : State} (c : Prop) [Decidable c] (hu : tileFrame i r t u) (hv : tileFrame i r t v) :
    tileFrame i r t (if c then u else v) := by
  split
  · exact hu
  · exact hv

/-- The frame speaks of units alone. -/
theorem tileFrame_of_units {i : Instr} {r : Req} {t u v : State} (hv : v.units = u.units) (h : tileFrame i r t u) : tileFrame i r t v := by
  have hdue : v.due = u.due := show v.units.due = u.units.due from congrArg State.due hv
  have htile : ∀ n, v.tile n = u.tile n := fun n => show v.units.tile n = u.units.tile n from congrArg (fun s => State.tile s n) hv
  exact ⟨by rw [hv]; exact h.1, hdue ▸ h.2.1, fun n hn => (htile n).trans (h.2.2 n hn)⟩

/-- The action of a command of one tile ends with it, and keeps the frame. -/
theorem tileFrame_perform {p : CmdSpec} {i : Instr} {r : Req} {t : State} (h : tileFrame i r t (p.act r t).st) :
    tileFrame i r t (p.perform r t) := by
  unfold CmdSpec.perform
  dsimp only
  split
  · exact h
  · exact tileFrame_of_units (units_finish _ _ _ _) h

/-- The block answers what the action of a command leaves, at once or behind its entry. -/
theorem frames_of_perform {p : CmdSpec} {i : Instr} {r : Req} {s : State} {F : State → State → Prop} (hi : commandOf i = some (r, p))
    (hs : r.opcode = p.opcode → specOf r = some p) (hF : ∀ t, F t (p.perform r t)) : p.Frames i r s F := by
  constructor
  · intro t ht
    exact ⟨_, by rw [exec_of_commandOf hi, run_of_actsNow ht], hF t⟩
  · intro e t ht
    exact ⟨_, entryDone_of_actsLogged (hs (opcode_of_actsLogged ht)) ht, hF _⟩

/-- Settles O50: each of them changes its tile by one update after another; FE_CONFIG enters its effect for the next draught edge. -/
theorem tileCommandsChangeOneTile : Obligations.TileCommandsChangeOneTile := by
  intro i r p s hi htile
  have hmod := fun (t : State) f => tileFrame_modTile (tileFrame_refl i r t) f
  have key : (r.opcode = p.opcode → specOf r = some p) ∧ ∀ t, tileFrame i r t (p.act r t).st := by
    unfold commandOf at hi
    split at hi <;> cases hi <;> try cases htile
    case h_2 => exact ⟨specOf_feConfigSpec, fun t => ⟨rfl, .inr ⟨_, _, _, _, rfl, rfl⟩, fun _ _ => rfl⟩⟩
    case h_9 => exact ⟨specOf_seqSlotsSpec, fun t => hmod t _⟩
    case h_15 => exact ⟨specOf_tcResetSpec, fun t => hmod t _⟩
    case h_18 => exact ⟨specOf_filtCoefSpec, fun t => hmod t _⟩
    case h_19 => exact ⟨specOf_filtAdmitSpec, fun t => hmod t _⟩
    case h_23 =>
      have hzero := fun (t : State) c [Decidable c] f g => tileFrame_ite (i := .filtDcb r) (r := r) (t := t) c
        (tileFrame_modTile (hmod t f) g) (hmod t f)
      exact ⟨specOf_filtDcbSpec, fun t => tileFrame_ite _ (tileFrame_modTile (hzero t _ _ _) _) (hzero t _ _ _)⟩
    case h_32 => exact ⟨specOf_forceConfigSpec, fun t => hmod t _⟩
    case h_33 => exact ⟨specOf_forceTargetSpec, fun t => tileFrame_ite _ (hmod t _) (hmod t _)⟩
    case h_34 =>
      refine ⟨specOf_forceRestartSpec, fun t => ?_⟩
      rw [forceRestartSpec, apply_ite ActRes.st]
      exact tileFrame_ite _ (hmod t _) (hmod t _)
  exact frames_of_perform hi key.1 (fun t => tileFrame_perform (key.2 t))

end Sys2Proof.Machine
end

section
/-! Force paths: the bounds of the slew generator, and FORCE_RESTART beside a retry. -/

namespace Sys2Proof.Machine

/-! ### The slew generator (R128, R129) -/

theorem natAbs_towardZero_le (v : Int) (x : Nat) : (towardZero v x).natAbs ≤ v.natAbs := by
  unfold towardZero
  split <;> omega

theorem natAbs_towardZero_sub_le (v : Int) (x : Nat) : (towardZero v x - v).natAbs ≤ x := by
  unfold towardZero
  split <;> omega

theorem sgn_cases (i : Int) : sgn i = -1 ∨ sgn i = 0 ∨ sgn i = 1 := by
  unfold sgn
  split
  · simp
  · split <;> simp

/-- A rate within its bound that is pushed by one step, and cut off at the bound. -/
theorem clampI_push (vm x : Nat) (v d : Int) (hv : v.natAbs ≤ vm) :
    (clampI (-vm) vm (v + sgn d * x)).natAbs ≤ vm ∧ (clampI (-vm) vm (v + sgn d * x) - v).natAbs ≤ x := by
  rcases sgn_cases d with h | h | h <;> rw [h] <;> unfold clampI <;> split <;> (try split) <;> omega

/-- The rate an update gives the generator on its way, before a landing (R128). -/
def slewRate (vmax acc : Nat) (k d v : Int) : Int :=
  let adt := (acc : Int) * 3125 * k
  if v ≠ 0 && sgn d ≠ sgn v then towardZero v adt
  else if (d.natAbs : Int) * acc ≤ 4 * v * v + v.natAbs * 25000 * k * acc then towardZero v adt
  else clampI (-((vmax : Int) * 6400)) ((vmax : Int) * 6400) (v + sgn d * adt)

/-- An update leaves a generator at rest where it is; else it takes the new rate, and lands where its target is within reach. -/
theorem slewUpdate_eq (vmax acc : Nat) (k tgt pos v : Int) :
    slewUpdate vmax acc k tgt pos v =
      if tgt - pos = 0 && v = 0 then (pos, v)
      else
        let v1 := slewRate vmax acc k (tgt - pos) v
        if sgn (tgt - pos) = sgn v1 && (tgt - pos).natAbs ≤ (v1.natAbs : Int) * 25000 * k
            && (v1.natAbs : Int) ≤ 2 * ((acc : Int) * 3125 * k) then (tgt, 0)
        else (pos + v1 * 25000 * k, v1) := rfl

/-- The new rate stays within v_max, and is at most one step away from the old one. -/
theorem slewRate_bounds (vmax acc k : Nat) (d v : Int) (hv : v.natAbs ≤ vmax * 6400) :
    (slewRate vmax acc k d v).natAbs ≤ vmax * 6400 ∧ (slewRate vmax acc k d v - v).natAbs ≤ acc * 3125 * k := by
  have hbrake := And.intro ((natAbs_towardZero_le v (acc * 3125 * k)).trans hv) (natAbs_towardZero_sub_le v (acc * 3125 * k))
  have hpush := clampI_push (vmax * 6400) (acc * 3125 * k) v d hv
  push_cast at hbrake hpush
  unfold slewRate
  split
  · exact hbrake
  · split
    · exact hbrake
    · exact hpush

/-- An update of the generator: its rate stays within v_max, and changes by one step at most but for a landing. -/
theorem slewUpdate_bounds (vmax acc k : Nat) (tgt pos v : Int) (hv : v.natAbs ≤ vmax * 6400) :
    (slewUpdate vmax acc k tgt pos v).2.natAbs ≤ vmax * 6400
    ∧ (((slewUpdate vmax acc k tgt pos v).2 - v).natAbs ≤ acc * 3125 * k
      ∨ (slewUpdate vmax acc k tgt pos v = (tgt, 0) ∧ v.natAbs ≤ 3 * (acc * 3125 * k))) := by
  obtain ⟨hmax, hdelta⟩ := slewRate_bounds vmax acc k (tgt - pos) v hv
  rw [slewUpdate_eq]
  dsimp only
  split
  · exact ⟨hv, .inl (by simp)⟩
  · split
    case isTrue hland =>
      have hslow : ((slewRate vmax acc k (tgt - pos) v).natAbs : Int) ≤ 2 * ((acc * 3125 * k : Nat) : Int) := by
        push_cast
        simpa using (Bool.and_eq_true_iff.mp hland).2
      exact ⟨Nat.zero_le _, .inr ⟨rfl, by omega⟩⟩
    case isFalse => exact ⟨hmax, .inl hdelta⟩

/-- An update of a force path that drives: the generator's bounds, a freeze in current limit apart. -/
theorem step_bounds (f : Force) (k : Nat) (hs : f.slew = true) (hv : f.v.natAbs ≤ f.vmax * 6400) :
    (f.step k).v.natAbs ≤ f.vmax * 6400
    ∧ (((f.step k).v - f.v).natAbs ≤ f.acc * 3125 * k
      ∨ ((f.step k).v = 0 ∧ f.phase = .limit ∧ (f.step k).pos = f.pos)
      ∨ ((f.step k).v = 0 ∧ (f.step k).pos = (if f.ramp then 0 else forcePos f.range f.target)
          ∧ f.v.natAbs ≤ 3 * (f.acc * 3125 * k))) := by
  unfold Force.step
  split
  case isTrue hlim => exact ⟨Nat.zero_le _, .inr (.inl ⟨rfl, hlim, rfl⟩)⟩
  split
  · have hadt : (f.acc : Int) * 3125 * k = ((f.acc * 3125 * k : Nat) : Int) := by push_cast; rfl
    rw [hadt]
    exact ⟨(natAbs_towardZero_le _ _).trans hv, .inl (natAbs_towardZero_sub_le _ _)⟩
  case isFalse hhold =>
    have hgoal : f.goal = if f.ramp then 0 else forcePos f.range f.target := by
      unfold Force.goal
      cases hr : f.ramp <;> simp_all
    rw [hgoal]
    obtain ⟨hmax, hdelta | ⟨hland, hland'⟩⟩ := slewUpdate_bounds f.vmax f.acc k (if f.ramp then 0 else forcePos f.range f.target) f.pos f.v hv
    · exact ⟨hmax, .inl hdelta⟩
    · exact ⟨hmax, .inr (.inr ⟨congrArg Prod.snd hland, congrArg Prod.fst hland, hland'⟩)⟩

@[simp] theorem force_modForce (s : State) (n : Nat) (f : Force → Force) : ((s.modForce n f).tile n).force = f (s.tile n).force := by
  simp [State.modForce]

/-- Settles O59: an update that steps the generator obeys `step_bounds`, and every other one leaves its rate. -/
theorem generatorBounds : Obligations.GeneratorBounds := by
  intro n s t f g k tgt hs hv he
  change execForceUpdate n s = .next t at he
  unfold execForceUpdate at he
  dsimp only at he
  split at he
  · cases he
  split at he
  · cases he
    exact ⟨hv, .inl (by simp [f, g])⟩
  · cases he
    simp only [g, tgt, force_modForce]
    split
    · exact ⟨hv, .inl (by simp [f, Force.take])⟩
    · have hk : (if f.mode = .forceSense then (2 : Int) else 1) = (k : Int) := by simp only [k]; split <;> rfl
      have hstep := step_bounds { f.take s.node.clock with updEdge := s.edge + 1 } k hs hv
      rw [← hk] at hstep
      have htarget : ∀ h : Force, ∀ c : Int, (h.step c).target = h.target := by
        intro h c
        unfold Force.step
        repeat' split
        all_goals rfl
      rw [htarget]
      exact hstep

/-! ### FORCE_RESTART (R151) -/

/-- What FORCE_RESTART leaves in its tile's force path. -/
theorem force_restart (r : Req) (t : State) :
    ((forceRestartSpec.perform r t).tile (r.u 16 0 16)).force =
      (let f := (t.tile (r.u 16 0 16)).force
       if t.forceOff (r.u 16 0 16) then { f with phase := .fenceLost, v := 0, retry := 0, closedAt := none }
       else { f with phase := f.reclose, v := 0, retry := 0, closedAt := some t.now }) := by
  have hfinish : ∀ (u : State) x v n, (u.finish r x v).tile n = u.tile n := fun u x v n =>
    show (u.finish r x v).units.tile n = u.units.tile n by rw [units_finish]
  simp only [forceRestartSpec, CmdSpec.perform]
  split <;> simp [hfinish]

theorem reclose_ne_latched (f : Force) : f.reclose ≠ .latched := by
  unfold Force.reclose
  split <;> simp

/-- Settles O58: both a restart and a retry close at the frozen position in the phase `Force.reclose` names. -/
theorem forceRestart : Obligations.ForceRestart := by
  intro r s
  refine frames_of_perform rfl specOf_forceRestartSpec (fun t => ?_)
  intro n f g
  have hg : g = _ := force_restart r t
  cases hoff : t.forceOff n
  · have hclose : g = { f with phase := f.reclose, v := 0, retry := 0, closedAt := some t.now } := by rw [hg]; simp [n, hoff, f]
    rw [hclose]
    refine ⟨reclose_ne_latched f, rfl, rfl, nofun, fun _ v hv hnow hdue hn _ _ => ?_⟩
    refine ⟨v.modForce n (fun f => { f with phase := f.reclose, v := 0, retry := f.retry + 1, closedAt := some v.now }), ?_, ?_⟩
    · show execForceRetry n v = _
      simp [execForceRetry, forceRow, hv, hdue, Nat.not_le.mpr hn]
    · simp only [force_modForce, hv, hnow]
      rfl
  · have hopen : g = { f with phase := .fenceLost, v := 0, retry := 0, closedAt := none } := by rw [hg]; simp [n, hoff, f]
    rw [hopen]
    exact ⟨nofun, rfl, rfl, fun _ => ⟨rfl, by simp [Force.driving]⟩, nofun⟩

end Sys2Proof.Machine
end

section
/-! One rule for each stove instruction that issues: the register or accumulator it writes, its flags, cycles and next pc. -/

namespace Sys2Proof.Machine

/-! ### What the shapes of instructions leave -/

theorem yields_mod (s : State) (sv : Nat) (x : Run) (a r cyc : Nat) : s.yields sv x a (r % 2 ^ 32) cyc = s.yields sv x a r cyc := by
  simp only [State.yields, Stove.setReg_mod]

@[simp] theorem yieldsFlags_plain (s : State) (sv : Nat) (x : Run) (a r cyc : Nat) :
    s.yieldsFlags sv x a (plain r) cyc = s.yields sv x a r cyc := yields_mod s sv x a r cyc

section
variable {s : State} {sv a b c imm op cyc : Nat} {i : Instr} {x : Run}

/-- An instruction that writes a register takes the value and the flags of its function. -/
theorem setA_issues {ok : Nat → Bool} {f : Stove → Nat × Nat} (h : s.issues sv i x) (hk : ∀ w, stoveDecode sv w = i → ok w = true) :
    svStep sv cyc ok (setA sv a f) s = .next (s.yieldsFlags sv x a (f (s.stove sv)) cyc) := svStep_issues h hk

theorem svR3_issues {f : Nat → Nat → Nat × Nat} (h : s.issues sv i x) (hk : ∀ w, stoveDecode sv w = i → isR op a b c w = true) :
    svR3 op cyc sv a b c f s = .next (s.yieldsFlags sv x a (f ((s.stove sv).reg b) ((s.stove sv).reg c)) cyc) := svStep_issues h hk

theorem svI_issues {f : Nat → Nat → Nat × Nat} (h : s.issues sv i x) (hk : ∀ w, stoveDecode sv w = i → isI op a b imm w = true) :
    svI op sv a b imm f s = .next (s.yieldsFlags sv x a (f ((s.stove sv).reg b) imm) 1) := svStep_issues h hk

theorem svPick_issues {mx : Bool} (h : s.issues sv i x) (hk : ∀ w, stoveDecode sv w = i → isR op a b c w = true) :
    svPick op mx sv a b c s = .next (s.free.2.yieldsFlags sv x a (fpPick mx ((s.stove sv).reg b) ((s.stove sv).reg c) s.free.1) 1) :=
  svStep_issues h hk

theorem svScale_issues {f : Nat → Nat × Nat} (h : s.issues sv i x) (hk : ∀ w, stoveDecode sv w = i → isI op a b imm w = true) :
    svScale op sv a b imm f s = .next (if 63 < imm then s.free.2.yields sv x a s.free.1 1
      else s.yieldsFlags sv x a (f ((s.stove sv).reg b)) 1) := by
  rw [svScale, svStep_issues h hk]
  by_cases hn : 63 < imm <;> simp only [hn, if_true, if_false] <;> rfl

theorem fromPort_issues {f : InPort → Nat} (h : s.issues sv i x) (hk : ∀ w, stoveDecode sv w = i → isAI op a imm w = true) :
    let p := tget {} (s.stove sv).ports (imm % 16)
    svStep sv 1 (isAI op a imm) (fromPort sv a imm f) s = .next (if p.bound.isSome then s.yields sv x a (f p) 1 else s.trapRun sv 7) := by
  dsimp only
  rw [svStep_issues h hk, fromPort]
  cases hp : (tget {} (s.stove sv).ports (imm % 16)).bound with
  | none => simp
  | some q =>
    simp only [Option.isNone_some, Option.isSome_some, if_true]
    exact congrArg Host.Outcome.next (yieldsFlags_plain s sv x a _ 1)

theorem svBranch_issues {p : Nat → Nat → Bool} (h : s.issues sv i x) (hk : ∀ w, stoveDecode sv w = i → isI op a b imm w = true) :
    svBranch op sv a b imm p s = .next (s.retires sv x 0 1
      (if p ((s.stove sv).reg a) ((s.stove sv).reg b) then target x imm else (x.pc + 4) % 2 ^ 32)) := by
  rw [svBranch, svStep_issues h hk]
  dsimp only
  split <;> rfl

theorem svMacc_issues {k : Int} (h : s.issues sv i x) (hk : ∀ w, stoveDecode sv w = i → isR op a b c w = true) :
    let r := sat72 a ((s.stove sv).acc a + k * (sx32 ((s.stove sv).reg b) * sx32 ((s.stove sv).reg c)))
    svMacc op k sv a b c s = .next ((s.modStove sv (fun v => v.setAcc a r.1)).retires sv x r.2 1 ((x.pc + 4) % 2 ^ 32)) :=
  svStep_issues h hk

end

/-! ### The rules -/

section
variable {s : State} {sv a b c imm : Nat} {x : Run}

theorem exec_svAdd (h : s.issues sv (.svAdd sv a b c) x) :
    exec (.svAdd sv a b c) s = .next (s.yields sv x a ((s.stove sv).reg b + (s.stove sv).reg c) 1) := by
  change execSvAdd sv a b c s = _
  rw [execSvAdd, svR3_issues h (decoded_svAdd sv), yieldsFlags_plain]

theorem exec_svSub (h : s.issues sv (.svSub sv a b c) x) :
    exec (.svSub sv a b c) s = .next (s.yields sv x a ((s.stove sv).reg b + 2 ^ 32 - (s.stove sv).reg c) 1) := by
  change execSvSub sv a b c s = _
  rw [execSvSub, svR3_issues h (decoded_svSub sv), yieldsFlags_plain]

theorem exec_svAdds (h : s.issues sv (.svAdds sv a b c) x) :
    exec (.svAdds sv a b c) s = .next (s.yieldsFlags sv x a (sat32 (sx32 ((s.stove sv).reg b) + sx32 ((s.stove sv).reg c))) 1) := by
  change execSvAdds sv a b c s = _
  rw [execSvAdds, svR3_issues h (decoded_svAdds sv)]

theorem exec_svSubs (h : s.issues sv (.svSubs sv a b c) x) :
    exec (.svSubs sv a b c) s = .next (s.yieldsFlags sv x a (sat32 (sx32 ((s.stove sv).reg b) - sx32 ((s.stove sv).reg c))) 1) := by
  change execSvSubs sv a b c s = _
  rw [execSvSubs, svR3_issues h (decoded_svSubs sv)]

theorem exec_svAnd (h : s.issues sv (.svAnd sv a b c) x) :
    exec (.svAnd sv a b c) s = .next (s.yields sv x a ((s.stove sv).reg b &&& (s.stove sv).reg c) 1) := by
  change execSvAnd sv a b c s = _
  rw [execSvAnd, svR3_issues h (decoded_svAnd sv), yieldsFlags_plain]

theorem exec_svOr (h : s.issues sv (.svOr sv a b c) x) :
    exec (.svOr sv a b c) s = .next (s.yields sv x a ((s.stove sv).reg b ||| (s.stove sv).reg c) 1) := by
  change execSvOr sv a b c s = _
  rw [execSvOr, svR3_issues h (decoded_svOr sv), yieldsFlags_plain]

theorem exec_svXor (h : s.issues sv (.svXor sv a b c) x) :
    exec (.svXor sv a b c) s = .next (s.yields sv x a ((s.stove sv).reg b ^^^ (s.stove sv).reg c) 1) := by
  change execSvXor sv a b c s = _
  rw [execSvXor, svR3_issues h (decoded_svXor sv), yieldsFlags_plain]

theorem exec_svShl (h : s.issues sv (.svShl sv a b c) x) :
    exec (.svShl sv a b c) s = .next (s.yields sv x a ((s.stove sv).reg b * 2 ^ ((s.stove sv).reg c % 32)) 1) := by
  change execSvShl sv a b c s = _
  rw [execSvShl, svR3_issues h (decoded_svShl sv), shl32, yieldsFlags_plain]

theorem exec_svShr (h : s.issues sv (.svShr sv a b c) x) :
    exec (.svShr sv a b c) s = .next (s.yields sv x a ((s.stove sv).reg b / 2 ^ ((s.stove sv).reg c % 32)) 1) := by
  change execSvShr sv a b c s = _
  rw [execSvShr, svR3_issues h (decoded_svShr sv), shr32, yieldsFlags_plain]

theorem exec_svSra (h : s.issues sv (.svSra sv a b c) x) :
    exec (.svSra sv a b c) s = .next (s.yields sv x a (toU 32 (sx32 ((s.stove sv).reg b) / (2 ^ ((s.stove sv).reg c % 32) : Nat))) 1) := by
  change execSvSra sv a b c s = _
  rw [execSvSra, svR3_issues h (decoded_svSra sv), sra32, yieldsFlags_plain]

theorem exec_svMul (h : s.issues sv (.svMul sv a b c) x) :
    exec (.svMul sv a b c) s = .next (s.yields sv x a (toU 32 (sx32 ((s.stove sv).reg b) * sx32 ((s.stove sv).reg c))) 1) := by
  change execSvMul sv a b c s = _
  rw [execSvMul, svR3_issues h (decoded_svMul sv), yieldsFlags_plain]

theorem exec_svMulh (h : s.issues sv (.svMulh sv a b c) x) :
    exec (.svMulh sv a b c) s = .next (s.yields sv x a (toU 32 (sx32 ((s.stove sv).reg b) * sx32 ((s.stove sv).reg c) / 4294967296)) 1) := by
  change execSvMulh sv a b c s = _
  rw [execSvMulh, svR3_issues h (decoded_svMulh sv), yieldsFlags_plain]

theorem exec_svAddi (h : s.issues sv (.svAddi sv a b imm) x) :
    exec (.svAddi sv a b imm) s = .next (s.yields sv x a (toU 32 ((((s.stove sv).reg b : Nat) : Int) + sx16 imm)) 1) := by
  change execSvAddi sv a b imm s = _
  rw [execSvAddi, svI_issues h (decoded_svAddi sv), yieldsFlags_plain]

theorem exec_svAndi (h : s.issues sv (.svAndi sv a b imm) x) :
    exec (.svAndi sv a b imm) s = .next (s.yields sv x a ((s.stove sv).reg b &&& imm) 1) := by
  change execSvAndi sv a b imm s = _
  rw [execSvAndi, svI_issues h (decoded_svAndi sv), yieldsFlags_plain]

theorem exec_svOri (h : s.issues sv (.svOri sv a b imm) x) :
    exec (.svOri sv a b imm) s = .next (s.yields sv x a ((s.stove sv).reg b ||| imm) 1) := by
  change execSvOri sv a b imm s = _
  rw [execSvOri, svI_issues h (decoded_svOri sv), yieldsFlags_plain]

theorem exec_svLui (h : s.issues sv (.svLui sv a imm) x) :
    exec (.svLui sv a imm) s = .next (s.yields sv x a (imm * 65536) 1) := by
  change execSvLui sv a imm s = _
  rw [execSvLui, setA_issues h (decoded_svLui sv), yieldsFlags_plain]

theorem exec_svShli (h : s.issues sv (.svShli sv a b imm) x) :
    exec (.svShli sv a b imm) s = .next (s.yields sv x a ((s.stove sv).reg b * 2 ^ (imm % 32)) 1) := by
  change execSvShli sv a b imm s = _
  rw [execSvShli, svI_issues h (decoded_svShli sv), shl32, yieldsFlags_plain]

theorem exec_svShri (h : s.issues sv (.svShri sv a b imm) x) :
    exec (.svShri sv a b imm) s = .next (s.yields sv x a ((s.stove sv).reg b / 2 ^ (imm % 32)) 1) := by
  change execSvShri sv a b imm s = _
  rw [execSvShri, svI_issues h (decoded_svShri sv), shr32, yieldsFlags_plain]

theorem exec_svSrai (h : s.issues sv (.svSrai sv a b imm) x) :
    exec (.svSrai sv a b imm) s = .next (s.yields sv x a (toU 32 (sx32 ((s.stove sv).reg b) / (2 ^ (imm % 32) : Nat))) 1) := by
  change execSvSrai sv a b imm s = _
  rw [execSvSrai, svI_issues h (decoded_svSrai sv), sra32, yieldsFlags_plain]

theorem exec_svSin (h : s.issues sv (.svSin sv a imm) x) :
    let p := tget {} (s.stove sv).ports (imm % 16)
    exec (.svSin sv a imm) s = .next (if p.bound.isSome then s.yields sv x a (p.word.toNat) 1 else s.trapRun sv 7) := by
  change execSvSin sv a imm s = _
  rw [execSvSin, fromPort_issues h (decoded_svSin sv)]

theorem exec_svSseq (h : s.issues sv (.svSseq sv a imm) x) :
    let p := tget {} (s.stove sv).ports (imm % 16)
    exec (.svSseq sv a imm) s = .next (if p.bound.isSome then s.yields sv x a (p.seq) 1 else s.trapRun sv 7) := by
  change execSvSseq sv a imm s = _
  rw [execSvSseq, fromPort_issues h (decoded_svSseq sv)]

theorem exec_svStim (h : s.issues sv (.svStim sv a imm) x) :
    let p := tget {} (s.stove sv).ports (imm % 16)
    exec (.svStim sv a imm) s = .next (if p.bound.isSome then s.yields sv x a (if bitAt imm 4 then p.time / 2 ^ 32 else p.time) 1 else s.trapRun sv 7) := by
  change execSvStim sv a imm s = _
  rw [execSvStim, fromPort_issues h (decoded_svStim sv)]

/-- CLAMP, of an even c; an odd one has no stated result. -/
theorem exec_svClamp (h : s.issues sv (.svClamp sv a b c) x) :
    let r := fun (k : Nat) => sx32 ((s.stove sv).reg k)
    exec (.svClamp sv a b c) s = .next (if c % 2 = 0 then s.yields sv x a (toU 32 (min (max (r b) (r c)) (r (c + 1)))) 1
      else s.free.2.yields sv x a s.free.1 1) := by
  change execSvClamp sv a b c s = _
  rw [execSvClamp, svStep_issues h (decoded_svClamp sv)]
  by_cases hc : c % 2 = 0 <;> simp only [hc, if_true, if_false] <;> rfl

theorem exec_svRlim (h : s.issues sv (.svRlim sv a b c) x) :
    exec (.svRlim sv a b c) s = .next (s.yieldsFlags sv x a (sat32 (sx32 ((s.stove sv).reg a) + clampI (-max 0 (sx32 ((s.stove sv).reg c))) (max 0 (sx32 ((s.stove sv).reg c))) (sx32 ((s.stove sv).reg b) - sx32 ((s.stove sv).reg a)))) 1) := by
  change execSvRlim sv a b c s = _
  rw [execSvRlim, setA_issues h (decoded_svRlim sv)]

/-- CRC, of the two polynomials that have a number. -/
theorem exec_svCrc (h : s.issues sv (.svCrc sv a b imm) x) :
    let v := s.stove sv
    exec (.svCrc sv a b imm) s = .next (
      if imm = 0 then s.yields sv x a (crc32cRaw (v.reg a) (leBytes (v.reg b) 4)) 1
      else if imm = 1 then s.yields sv x a (tirwinRaw (v.reg a) (leBytes (v.reg b) 4)) 1
      else s.free.2.yields sv x a s.free.1 1) := by
  change execSvCrc sv a b imm s = _
  rw [execSvCrc, svStep_issues h (decoded_svCrc sv)]
  by_cases h0 : imm = 0
  · simp only [h0, if_true, Nat.zero_le]
    rfl
  by_cases h1 : imm = 1
  · simp only [h1, if_true, le_refl, one_ne_zero, if_false]
    rfl
  · have h2 : ¬ imm ≤ 1 := by omega
    simp only [h0, h1, h2, if_false]
    rfl

theorem exec_svArd (h : s.issues sv (.svArd sv a b imm) x) :
    exec (.svArd sv a b imm) s = .next (if 63 < imm then s.free.2.yields sv x a s.free.1 1
      else s.yieldsFlags sv x a (sat32 (divHalfUp ((s.stove sv).acc b) (2 ^ imm))) 1) := by
  change execSvArd sv a b imm s = _
  rw [execSvArd, svStep_issues h (decoded_svArd sv)]
  by_cases hn : 63 < imm <;> simp only [hn, if_true, if_false] <;> rfl

theorem exec_svSrr (h : s.issues sv (.svSrr sv a imm) x) :
    exec (.svSrr sv a imm) s = .next (match (s.stove sv).sysRead x imm with
      | some r => s.yields sv x a r 1
      | none => s.free.2.yields sv x a s.free.1 1) := by
  change execSvSrr sv a imm s = _
  rw [execSvSrr, svStep_issues h (decoded_svSrr sv)]
  cases (s.stove sv).sysRead x imm <;> rfl

theorem exec_svFadd (h : s.issues sv (.svFadd sv a b c) x) :
    exec (.svFadd sv a b c) s = .next (s.yieldsFlags sv x a ((fpOf ((s.stove sv).reg b)).add (fpOf ((s.stove sv).reg c))) 1) := by
  change execSvFadd sv a b c s = _
  rw [execSvFadd, svR3_issues h (decoded_svFadd sv)]

theorem exec_svFsub (h : s.issues sv (.svFsub sv a b c) x) :
    exec (.svFsub sv a b c) s = .next (s.yieldsFlags sv x a ((fpOf ((s.stove sv).reg b)).add (fpOf ((s.stove sv).reg c)).negate) 1) := by
  change execSvFsub sv a b c s = _
  rw [execSvFsub, svR3_issues h (decoded_svFsub sv)]

theorem exec_svFmul (h : s.issues sv (.svFmul sv a b c) x) :
    exec (.svFmul sv a b c) s = .next (s.yieldsFlags sv x a ((fpOf ((s.stove sv).reg b)).mul (fpOf ((s.stove sv).reg c))) 1) := by
  change execSvFmul sv a b c s = _
  rw [execSvFmul, svR3_issues h (decoded_svFmul sv)]

theorem exec_svFdiv (h : s.issues sv (.svFdiv sv a b c) x) :
    exec (.svFdiv sv a b c) s = .next (s.yieldsFlags sv x a ((fpOf ((s.stove sv).reg b)).div (fpOf ((s.stove sv).reg c))) 8) := by
  change execSvFdiv sv a b c s = _
  rw [execSvFdiv, svR3_issues h (decoded_svFdiv sv)]

theorem exec_svFma (h : s.issues sv (.svFma sv a b c) x) :
    exec (.svFma sv a b c) s = .next (s.yieldsFlags sv x a ((fpOf ((s.stove sv).reg a)).fma (fpOf ((s.stove sv).reg b)) (fpOf ((s.stove sv).reg c))) 1) := by
  change execSvFma sv a b c s = _
  rw [execSvFma, setA_issues h (decoded_svFma sv)]

theorem exec_svFsqrt (h : s.issues sv (.svFsqrt sv a b) x) :
    exec (.svFsqrt sv a b) s = .next (s.yieldsFlags sv x a (fpOf ((s.stove sv).reg b)).sqrt 8) := by
  change execSvFsqrt sv a b s = _
  rw [execSvFsqrt, setA_issues h (decoded_svFsqrt sv)]

theorem exec_svFmin (h : s.issues sv (.svFmin sv a b c) x) :
    exec (.svFmin sv a b c) s = .next (s.free.2.yieldsFlags sv x a (fpPick false ((s.stove sv).reg b) ((s.stove sv).reg c) s.free.1) 1) := by
  change execSvFmin sv a b c s = _
  rw [execSvFmin, svPick_issues h (decoded_svFmin sv)]

theorem exec_svFmax (h : s.issues sv (.svFmax sv a b c) x) :
    exec (.svFmax sv a b c) s = .next (s.free.2.yieldsFlags sv x a (fpPick true ((s.stove sv).reg b) ((s.stove sv).reg c) s.free.1) 1) := by
  change execSvFmax sv a b c s = _
  rw [execSvFmax, svPick_issues h (decoded_svFmax sv)]

theorem exec_svFabs (h : s.issues sv (.svFabs sv a b) x) :
    exec (.svFabs sv a b) s = .next (s.yields sv x a (fpWithSign ((s.stove sv).reg b) false) 1) := by
  change execSvFabs sv a b s = _
  rw [execSvFabs, setA_issues h (decoded_svFabs sv), yieldsFlags_plain]

theorem exec_svFneg (h : s.issues sv (.svFneg sv a b) x) :
    exec (.svFneg sv a b) s = .next (s.yields sv x a (fpWithSign ((s.stove sv).reg b) (!bitAt ((s.stove sv).reg b) 31)) 1) := by
  change execSvFneg sv a b s = _
  rw [execSvFneg, setA_issues h (decoded_svFneg sv), yieldsFlags_plain]

theorem exec_svFcvtsw (h : s.issues sv (.svFcvtsw sv a b imm) x) :
    exec (.svFcvtsw sv a b imm) s = .next (if 63 < imm then s.free.2.yields sv x a s.free.1 1 else s.yieldsFlags sv x a (fpFromInt (sx32 ((s.stove sv).reg b)) imm) 1) := by
  change execSvFcvtsw sv a b imm s = _
  rw [execSvFcvtsw, svScale_issues h (decoded_svFcvtsw sv)]

theorem exec_svFcvtws (h : s.issues sv (.svFcvtws sv a b imm) x) :
    exec (.svFcvtws sv a b imm) s = .next (if 63 < imm then s.free.2.yields sv x a s.free.1 1 else s.yieldsFlags sv x a (fpToInt ((s.stove sv).reg b) imm) 1) := by
  change execSvFcvtws sv a b imm s = _
  rw [execSvFcvtws, svScale_issues h (decoded_svFcvtws sv)]

end

end Sys2Proof.Machine
end

section
/-! The stove instructions: their results, and the frame of those that write one register and of SW. -/

namespace Sys2Proof.Machine

/-! ### The frame -/

/-- The stove whose run goes on at pc, its cycles and flags counted. -/
def Stove.goOn (v : Stove) (flags cyc pc : Nat) : Stove :=
  { v with sticky := v.sticky ||| flags, run := v.run.map (fun y => { y with pc := pc, cycle := cyc }) }

/-- With no trap selected and the next word in the instruction SRAM, an instruction that is done with goes on at that word. -/
theorem retires_next {u : State} {sv flags cyc : Nat} {x y : Run} (hmask : (u.stove sv).trapMask = 0) (hal : x.pc % 4 = 0)
    (hpc : x.pc + 4 < 65536) (hrun : (u.stove sv).run = some y) :
    ∃ t, u.retires sv x flags cyc ((x.pc + 4) % 2 ^ 32) = t ∧ u.sameButStoves t ∧ (∀ k, k ≠ sv → t.stove k = u.stove k)
      ∧ t.stove sv = (u.stove sv).goOn flags (x.cycle + cyc) (x.pc + 4) := by
  have hmod : (x.pc + 4) % 2 ^ 32 = x.pc + 4 := Nat.mod_eq_of_lt (by omega)
  have hal' : (x.pc + 4) % 4 = 0 := by omega
  refine ⟨(u.modStove sv (fun v => { v with sticky := v.sticky ||| flags })).modStove sv
    (fun v => { v with run := v.run.map (fun y => { y with pc := x.pc + 4, cycle := x.cycle + cyc }) }), ?_, rfl, fun k hk => ?_, ?_⟩
  · rw [hmod]
    simp [State.retires, State.beginFetch, hmask, hrun, hal', hpc]
  · rw [stove_modStove_ne _ _ hk, stove_modStove_ne _ _ hk]
  · simp [Stove.goOn]

@[simp] theorem reg_zero (v : Stove) : v.reg 0 = 0 := rfl

theorem reg_lt (v : Stove) (k : Nat) : v.reg k < 2 ^ 32 := by
  unfold Stove.reg
  split
  · decide
  · exact BitVec.isLt _

theorem reg_setReg_ne (v : Stove) {a k : Nat} (r : Nat) (h : k ≠ a) : (v.setReg a r).reg k = v.reg k := by
  unfold Stove.setReg Stove.reg
  by_cases ha : a = 0 <;> simp [ha, List.getElem?_set_ne (Ne.symm h)]

/-- A register write leaves the rest of its stove. -/
theorem setReg_rest (v : Stove) (a r : Nat) : { v.setReg a r with regs := v.regs } = v := by
  unfold Stove.setReg
  split <;> rfl

/-- What an instruction leaves that writes register a of stove sv. -/
def State.regFrame (s t : State) (sv a : Nat) : Prop :=
  s.sameButStoves t ∧ (∀ k, k ≠ sv → t.stove k = s.stove k)
    ∧ (t.stove sv).reg 0 = 0 ∧ (∀ k, k ≠ a → (t.stove sv).reg k = (s.stove sv).reg k)
    ∧ (t.stove sv).accs = (s.stove sv).accs ∧ (t.stove sv).isram = (s.stove sv).isram ∧ (t.stove sv).dsram = (s.stove sv).dsram

section
variable {s : State} {sv : Nat} {x : Run} (hrun : (s.stove sv).run = some x) (hmask : (s.stove sv).trapMask = 0)
  (hal : x.pc % 4 = 0) (hpc : x.pc + 4 < 65536)
include hrun hmask hal hpc

theorem regFrame_yieldsFlags (a : Nat) (r : Nat × Nat) (cyc : Nat) : s.regFrame (s.yieldsFlags sv x a r cyc) sv a := by
  have hrest := setReg_rest (s.stove sv) a r.1
  generalize hu : s.modStove sv (fun v => v.setReg a r.1) = u
  have hsv : u.stove sv = (s.stove sv).setReg a r.1 := by rw [← hu, stove_modStove]
  rw [← hsv] at hrest
  obtain ⟨t, ht, hsame, hothers, hgo⟩ := retires_next (u := u) (flags := r.2) (cyc := cyc)
    ((congrArg Stove.trapMask hrest :).trans hmask) hal hpc ((congrArg Stove.run hrest :).trans hrun)
  rw [State.yieldsFlags, hu, ht]
  have haccs : (u.stove sv).accs = _ := (congrArg Stove.accs hrest :)
  have hisram : (u.stove sv).isram = _ := (congrArg Stove.isram hrest :)
  have hdsram : (u.stove sv).dsram = _ := (congrArg Stove.dsram hrest :)
  refine ⟨hsame.trans (by rw [← hu]; rfl), fun k hk => ?_, rfl, fun k hk => ?_, hgo ▸ haccs, hgo ▸ hisram, hgo ▸ hdsram⟩
  · rw [hothers k hk, ← hu, stove_modStove_ne _ _ hk]
  · rw [hgo]
    exact (congrArg (Stove.reg · k) hsv).trans (reg_setReg_ne _ _ hk)

theorem regFrame_yields (a r cyc : Nat) : s.regFrame (s.yields sv x a r cyc) sv a :=
  regFrame_yieldsFlags hrun hmask hal hpc a (r, 0) cyc

/-- A value where the spec states no result is taken from a state with the same units. -/
theorem regFrame_free (a : Nat) (r : Nat × Nat) (cyc : Nat) : s.regFrame (s.free.2.yieldsFlags sv x a r cyc) sv a :=
  regFrame_yieldsFlags (s := s.free.2) hrun hmask hal hpc a r cyc

omit hrun hmask hal hpc in
theorem regFrame_ite {c : Prop} [Decidable c] {a : Nat} {t u : State} (ht : s.regFrame t sv a) (hu : s.regFrame u sv a) :
    s.regFrame (if c then t else u) sv a := by
  split
  · exact ht
  · exact hu

end

/-- The instructions of `registerOp` keep the frame. -/
theorem regFrame_of_registerOp {i : Instr} {s : State} {sv a : Nat} {x : Run} (hi : registerOp i = some (sv, a)) (h : s.issues sv i x)
    (hmask : (s.stove sv).trapMask = 0) (hal : x.pc % 4 = 0) (hpc : x.pc + 4 < 65536) :
    ∃ t, exec i s = .next t ∧ s.regFrame t sv a := by
  have hy := regFrame_yields h.2.1 hmask hal hpc a
  have hf := regFrame_yieldsFlags h.2.1 hmask hal hpc a
  have hr := regFrame_free h.2.1 hmask hal hpc a
  unfold registerOp at hi
  split at hi <;> cases hi
  case h_1 => exact ⟨_, exec_svAdd h, hy _ _⟩
  case h_2 => exact ⟨_, exec_svSub h, hy _ _⟩
  case h_3 => exact ⟨_, exec_svAdds h, hf _ _⟩
  case h_4 => exact ⟨_, exec_svSubs h, hf _ _⟩
  case h_5 => exact ⟨_, exec_svAnd h, hy _ _⟩
  case h_6 => exact ⟨_, exec_svOr h, hy _ _⟩
  case h_7 => exact ⟨_, exec_svXor h, hy _ _⟩
  case h_8 => exact ⟨_, exec_svShl h, hy _ _⟩
  case h_9 => exact ⟨_, exec_svShr h, hy _ _⟩
  case h_10 => exact ⟨_, exec_svSra h, hy _ _⟩
  case h_11 => exact ⟨_, exec_svMul h, hy _ _⟩
  case h_12 => exact ⟨_, exec_svMulh h, hy _ _⟩
  case h_13 => exact ⟨_, exec_svAddi h, hy _ _⟩
  case h_14 => exact ⟨_, exec_svAndi h, hy _ _⟩
  case h_15 => exact ⟨_, exec_svOri h, hy _ _⟩
  case h_16 => exact ⟨_, exec_svLui h, hy _ _⟩
  case h_17 => exact ⟨_, exec_svShli h, hy _ _⟩
  case h_18 => exact ⟨_, exec_svShri h, hy _ _⟩
  case h_19 => exact ⟨_, exec_svSrai h, hy _ _⟩
  case h_20 =>
    refine ⟨_, exec_svSrr h, ?_⟩
    split
    · exact hy _ _
    · exact hr (_, 0) _
  case h_21 => exact ⟨_, exec_svClamp h, regFrame_ite (hy _ _) (hr (_, 0) _)⟩
  case h_22 => exact ⟨_, exec_svRlim h, hf _ _⟩
  case h_23 => exact ⟨_, exec_svCrc h, regFrame_ite (hy _ _) (regFrame_ite (hy _ _) (hr (_, 0) _))⟩
  case h_24 => exact ⟨_, exec_svArd h, regFrame_ite (hr (_, 0) _) (hf _ _)⟩
  case h_25 => exact ⟨_, exec_svFadd h, hf _ _⟩
  case h_26 => exact ⟨_, exec_svFsub h, hf _ _⟩
  case h_27 => exact ⟨_, exec_svFmul h, hf _ _⟩
  case h_28 => exact ⟨_, exec_svFma h, hf _ _⟩
  case h_29 => exact ⟨_, exec_svFmin h, hr _ _⟩
  case h_30 => exact ⟨_, exec_svFmax h, hr _ _⟩
  case h_31 => exact ⟨_, exec_svFabs h, hy _ _⟩
  case h_32 => exact ⟨_, exec_svFneg h, hy _ _⟩
  case h_33 => exact ⟨_, exec_svFdiv h, hf _ _⟩
  case h_34 => exact ⟨_, exec_svFsqrt h, hf _ _⟩
  case h_35 => exact ⟨_, exec_svFcvtsw h, regFrame_ite (hr (_, 0) _) (hf _ _)⟩
  case h_36 => exact ⟨_, exec_svFcvtws h, regFrame_ite (hr (_, 0) _) (hf _ _)⟩

/-- SW, in the data SRAM below the loop records. -/
theorem exec_svSw_inside {s : State} {sv a b imm : Nat} {x : Run} (h : s.issues sv (.svSw sv a b imm) x)
    (hlt : dataAddr (s.stove sv) b imm < dLoopBase) (hal : dataAddr (s.stove sv) b imm % 4 = 0) :
    exec (.svSw sv a b imm) s =
      .next ((s.modStove sv (fun v => v.dSet (dataAddr (s.stove sv) b imm) ((s.stove sv).reg a))).goesNext sv x 1) := by
  change execSvSw sv a b imm s = _
  rw [execSvSw, svStep_issues h (decoded_svSw sv)]
  simp only [hal, Nat.not_le.mpr hlt, ne_eq, not_true_eq_false, decide_false, Bool.or_false, Bool.false_eq_true, if_false]
  rfl

/-- Settles O51: the register instructions by their rules, SW by what a store leaves of a memory. -/
theorem stoveFrames : Obligations.StoveFrames := by
  intro i s sv a b imm x v ad hmask hal hpc h
  refine ⟨fun hi => regFrame_of_registerOp hi h hmask hal hpc, ?_⟩
  rintro rfl hlt hal4
  have he := exec_svSw_inside h hlt hal4
  generalize hu : s.modStove sv (fun v => v.dSet (dataAddr (s.stove sv) b imm) ((s.stove sv).reg a)) = u at he
  have hsv : u.stove sv = v.dSet ad (v.reg a) := by rw [← hu, stove_modStove]; rfl
  obtain ⟨t, ht, hsame, hothers, hgo⟩ := retires_next (u := u) (flags := 0) (cyc := 1)
    (by rw [hsv]; exact hmask) hal hpc (y := x) (by rw [hsv]; exact h.2.1)
  rw [he, State.goesNext, ht]
  rw [hsv] at hgo
  refine ⟨t, rfl, hsame.trans (by rw [← hu]; rfl), fun k hk => ?_, ?_⟩
  · rw [hothers k hk, ← hu, stove_modStove_ne _ _ hk]
  · rw [hgo]
    refine ⟨rfl, rfl, rfl, (memGetLE_memSetLE _ _ _ _ _).trans (Nat.mod_eq_of_lt (reg_lt v a)), fun k hk => ?_⟩
    exact memGet_memSetLE_out _ _ _ _ _ _ hk

end Sys2Proof.Machine
end

section
/-! The results of the stove instructions (R281 to R292, R312, R315 to R321). -/

namespace Sys2Proof.Machine

/-- CRC, TINT and the rest whose word may name no result; NOP. -/
theorem exec_svNop {s : State} {sv : Nat} {x : Run} (h : s.issues sv (.svNop sv) x) : exec (.svNop sv) s = .next (s.goesNext sv x 1) := by
  change execSvNop sv s = _
  rw [execSvNop, svStep_issues h (decoded_svNop sv)]
  rfl

/-- An instruction that issues and traps. -/
theorem svStep_traps {sv cyc e : Nat} {ok : Nat → Bool} {eff : Effect} {s : State} {i : Instr} {x : Run} (h : s.issues sv i x)
    (hk : ∀ w, stoveDecode sv w = i → ok w = true) (he : eff s x = .error e) : svStep sv cyc ok eff s = .next (s.trapRun sv e) := by
  rw [svStep_issues h hk, he]

/-- An instruction that issues and is done with. -/
theorem svStep_done {sv cyc : Nat} {t : State} {ok : Nat → Bool} {eff : Effect} {s : State} {i : Instr} {x : Run}
    (h : s.issues sv i x) (hk : ∀ w, stoveDecode sv w = i → ok w = true)
    (he : ∃ r, eff s x = .ok r ∧ r.st.retires sv x r.flags cyc (r.pc.getD ((x.pc + 4) % 2 ^ 32)) = t) :
    svStep sv cyc ok eff s = .next t := by
  obtain ⟨r, hr, rfl⟩ := he
  rw [svStep_issues h hk, hr]

/-- TINT of the values y of its table: a table outside the data SRAM traps, one of a length the spec does not state gives a free
value. -/
theorem exec_svTint {s : State} {sv a b c : Nat} {x : Run} (y : Nat → Int)
    (hy : ∀ i, y i = sx32 ((s.stove sv).dGet ((s.stove sv).reg c + 8 + 4 * i))) (h : s.issues sv (.svTint sv a b c) x) :
    let v := s.stove sv
    let t := v.reg c
    let n := bits (v.dGet (t + 4)) 16 11
    let sh : Nat := 2 ^ bits (v.dGet (t + 4)) 0 5
    let u := sx32 (v.reg b) - sx32 (v.dGet t)
    let i := (u / (sh : Int)).toNat
    exec (.svTint sv a b c) s = .next (if t % 4 = 0 ∧ t + 8 + 4 * n ≤ 65536 then
        if n < 2 ∨ 1024 < n then s.free.2.yields sv x a s.free.1 2
        else s.yieldsFlags sv x a (if u < 0 then sat32 (y 0) else if n - 1 ≤ i then sat32 (y (n - 1))
          else sat32 (y i + divHalfUp ((y (i + 1) - y i) * (u % (sh : Int))) sh)) 2
      else s.trapRun sv 3) := by
  intro v t n sh u i
  obtain rfl : y = fun i => sx32 (v.dGet (t + 8 + 4 * i)) := funext hy
  change execSvTint sv a b c s = _
  rw [execSvTint]
  by_cases hin : t % 4 = 0 ∧ t + 8 + 4 * n ≤ 65536
  · have hin' : ¬ (t % 4 ≠ 0 || 65536 < t + 8 || 65536 < t + 8 + 4 * n) = true := by simp; omega
    rw [if_pos hin]
    by_cases hn : n < 2 ∨ 1024 < n
    · have hn' : (n < 2 || 1024 < n) = true := by simpa using hn
      rw [if_pos hn]
      exact svStep_done h (decoded_svTint sv) ⟨_, (if_neg hin').trans (if_pos hn'), rfl⟩
    · have hn' : ¬ (n < 2 || 1024 < n) = true := by simpa using hn
      rw [if_neg hn]
      exact svStep_done h (decoded_svTint sv) ⟨_, (if_neg hin').trans (if_neg hn'), rfl⟩
  · have hout : (t % 4 ≠ 0 || 65536 < t + 8 || 65536 < t + 8 + 4 * n) = true := by simp; omega
    rw [if_neg hin]
    exact svStep_traps h (decoded_svTint sv) (if_pos hout)

/-- Settles O17, by the rule of each instruction. -/
theorem stoveIntegerOps : Obligations.StoveIntegerOps := by
  refine ⟨fun s sv a b c x => ?_, fun s sv a b imm x => ?_, fun s sv a b c imm x => ?_⟩
  · intro y z
    refine ⟨exec_svNop, fun h => ?_, fun h => ?_, exec_svAdds, exec_svSubs, exec_svAnd, exec_svOr, exec_svXor, fun h => ?_, exec_svShr,
      exec_svSra, exec_svMul, exec_svMulh⟩
    · rw [yields_mod, exec_svAdd h]
    · rw [yields_mod, exec_svSub h]
    · rw [yields_mod, exec_svShl h]
  · intro y p
    refine ⟨exec_svAddi, exec_svAndi, exec_svOri, exec_svLui, fun h => ?_, exec_svShri, exec_svSrai, fun hp h => ?_, fun hp h => ?_,
      fun hp h => ?_, fun hp => ⟨fun h => ?_, fun h => ?_, fun h => ?_⟩⟩
    · rw [yields_mod, exec_svShli h]
    · exact (exec_svSin h).trans (congrArg _ (if_pos hp))
    · rw [yields_mod]
      exact (exec_svSseq h).trans (congrArg _ (if_pos hp))
    · rw [yields_mod]
      exact (exec_svStim h).trans (congrArg _ (if_pos hp))
    · exact (exec_svSin h).trans (congrArg _ (if_neg (by simp [p, hp] at *)))
    · exact (exec_svSseq h).trans (congrArg _ (if_neg (by simp [p, hp] at *)))
    · exact (exec_svStim h).trans (congrArg _ (if_neg (by simp [p, hp] at *)))
  · intro v r t w n sh u i y inside
    have hy : ∀ i, y i = sx32 (v.dGet (t + 8 + 4 * i)) := fun i => by rw [Nat.add_assoc]; rfl
    refine ⟨fun hc h => ?_, fun hc h => ?_, exec_svRlim, fun hin hlo hhi h => ?_, fun hin hout h => ?_, fun hin h => ?_, fun h => ?_,
      fun h => ?_, fun hi h => ?_⟩
    · exact (exec_svClamp h).trans (congrArg _ (if_pos hc))
    · exact (exec_svClamp h).trans (congrArg _ (if_neg (by omega)))
    · exact (exec_svTint y hy h).trans (congrArg _ ((if_pos hin).trans (if_neg (not_or.mpr ⟨not_lt.mpr hlo, not_lt.mpr hhi⟩))))
    · exact (exec_svTint y hy h).trans (congrArg _ ((if_pos hin).trans (if_pos hout)))
    · exact (exec_svTint y hy h).trans (congrArg _ (if_neg hin))
    · exact (exec_svCrc h).trans (congrArg _ (if_pos rfl))
    · exact (exec_svCrc h).trans (congrArg _ ((if_neg one_ne_zero).trans (if_pos rfl)))
    · exact (exec_svCrc h).trans (congrArg _ ((if_neg (by omega)).trans (if_neg (by omega))))

/-- Settles O18, by the word's own rule: an address, a relation, a target. -/
theorem stoveMemoryAndBranches : Obligations.StoveMemoryAndBranches := by
  intro s sv a b imm x v y z ad next there
  refine ⟨fun hlt hal h => ?_, fun hout h => ?_, fun hlt hal h => exec_svSw_inside h hlt hal, fun hout h => ?_, fun h => ?_, fun h => ?_,
    fun h => ?_, fun h => ?_, fun h => ?_, fun h => ?_⟩
  · change execSvLw sv a b imm s = _
    have hin : ¬ (65536 ≤ ad || ad % 4 ≠ 0) = true := by simp [hal]; exact hlt
    rw [execSvLw, ← yieldsFlags_plain]
    exact svStep_done h (decoded_svLw sv) ⟨_, if_neg hin, rfl⟩
  · change execSvLw sv a b imm s = _
    have hout' : (65536 ≤ ad || ad % 4 ≠ 0) = true := by simpa using hout
    rw [execSvLw]
    exact svStep_traps h (decoded_svLw sv) (if_pos hout')
  · change execSvSw sv a b imm s = _
    have hout' : (dLoopBase ≤ ad || ad % 4 ≠ 0) = true := by simpa using hout
    rw [execSvSw]
    exact svStep_traps h (decoded_svSw sv) (if_pos hout')
  · change execSvBeq sv a b imm s = _
    rw [execSvBeq, svBranch_issues h (decoded_svBeq sv)]
    simp only [decide_eq_true_eq]
    rfl
  · change execSvBne sv a b imm s = _
    rw [execSvBne, svBranch_issues h (decoded_svBne sv)]
    simp only [decide_eq_true_eq, ne_eq, ite_not]
    rfl
  · change execSvBlt sv a b imm s = _
    rw [execSvBlt, svBranch_issues h (decoded_svBlt sv)]
    simp only [decide_eq_true_eq]
    rfl
  · change execSvBge sv a b imm s = _
    rw [execSvBge, svBranch_issues h (decoded_svBge sv)]
    simp only [decide_eq_true_eq, ← not_lt, ite_not]
    rfl
  · change execSvJal sv a imm s = _
    rw [execSvJal]
    exact svStep_done h (decoded_svJal sv) ⟨_, rfl, rfl⟩
  · change execSvJr sv a s = _
    rw [execSvJr]
    exact svStep_done h (decoded_svJr sv) ⟨_, rfl, rfl⟩

/-! ### Accumulators and FP32 -/

theorem exec_svMacc {s : State} {sv a b c : Nat} {x : Run} (h : s.issues sv (.svMacc sv a b c) x) :
    let v := s.stove sv
    let r := sat72 a (v.acc a + sx32 (v.reg b) * sx32 (v.reg c))
    exec (.svMacc sv a b c) s = .next ((s.modStove sv (fun w => w.setAcc a r.1)).retires sv x r.2 1 ((x.pc + 4) % 2 ^ 32)) := by
  change execSvMacc sv a b c s = _
  rw [execSvMacc, svMacc_issues h (decoded_svMacc sv), one_mul]

theorem exec_svMsub {s : State} {sv a b c : Nat} {x : Run} (h : s.issues sv (.svMsub sv a b c) x) :
    let v := s.stove sv
    let r := sat72 a (v.acc a - sx32 (v.reg b) * sx32 (v.reg c))
    exec (.svMsub sv a b c) s = .next ((s.modStove sv (fun w => w.setAcc a r.1)).retires sv x r.2 1 ((x.pc + 4) % 2 ^ 32)) := by
  change execSvMsub sv a b c s = _
  rw [execSvMsub, svMacc_issues h (decoded_svMsub sv), neg_one_mul, ← sub_eq_add_neg]

/-- FCMP, of a relation that the word may name. -/
theorem exec_svFcmp {s : State} {sv a b c r : Nat} {x : Run} (h : s.issues sv (.svFcmp sv a b c r) x) :
    let v := s.stove sv
    exec (.svFcmp sv a b c r) s = .next (if r = 3 then s.trapRun sv 1
      else s.yields sv x a (b2n ((fpOf (v.reg b)).cmp r (fpOf (v.reg c)))) 1) := by
  change execSvFcmp sv a b c r s = _
  rw [execSvFcmp, ← yieldsFlags_plain]
  split
  · exact svStep_traps h (decoded_svFcmp sv) rfl
  · exact svStep_done h (decoded_svFcmp sv) ⟨_, rfl, rfl⟩

/-- Settles O19, by the rule of each instruction. -/
theorem stoveAccumulatorsAndFloat : Obligations.StoveAccumulatorsAndFloat := by
  refine ⟨fun s sv a b c imm x => ?_, fun s sv a b c r imm x => ?_⟩
  · intro v m
    refine ⟨exec_svMacc, exec_svMsub, fun h => ?_, fun h => ?_, fun hn h => ?_, fun hn h => ?_⟩
    · change execSvAclr sv a s = _
      rw [execSvAclr]
      exact svStep_done h (decoded_svAclr sv) ⟨_, rfl, rfl⟩
    · change execSvAld sv a b c s = _
      rw [execSvAld]
      exact svStep_done h (decoded_svAld sv) ⟨_, rfl, rfl⟩
    · exact (exec_svArd h).trans (congrArg _ (if_neg (Nat.not_lt.mpr hn)))
    · exact (exec_svArd h).trans (congrArg _ (if_pos hn))
  · intro v f
    refine ⟨exec_svFadd, exec_svFsub, exec_svFmul, exec_svFma, exec_svFdiv, exec_svFsqrt, exec_svFmin, exec_svFmax, exec_svFabs, exec_svFneg,
      fun hr h => ?_, fun h => ?_, fun hn h => ?_, fun hn h => ?_, fun hn => ⟨fun h => ?_, fun h => ?_⟩⟩
    · exact (exec_svFcmp h).trans (congrArg _ (if_neg (Nat.ne_of_lt hr)))
    · exact (exec_svFcmp h).trans (congrArg _ (if_pos rfl))
    · exact (exec_svFcvtsw h).trans (congrArg _ (if_neg (Nat.not_lt.mpr hn)))
    · exact (exec_svFcvtws h).trans (congrArg _ (if_neg (Nat.not_lt.mpr hn)))
    · exact (exec_svFcvtsw h).trans (congrArg _ (if_pos hn))
    · exact (exec_svFcvtws h).trans (congrArg _ (if_pos hn))

/-! ### System registers -/

theorem exec_svSrw {s : State} {sv a imm : Nat} {x : Run} {t : State} (h : s.issues sv (.svSrw sv a imm) x)
    (he : ∃ r, sysWrite sv imm ((s.stove sv).reg a) s x = .ok r
      ∧ r.st.retires sv x r.flags 1 (r.pc.getD ((x.pc + 4) % 2 ^ 32)) = t) : exec (.svSrw sv a imm) s = .next t := by
  change execSvSrw sv a imm s = _
  rw [execSvSrw]
  exact svStep_done h (decoded_svSrw sv) he

theorem decoded_svIllegal (sv w : Nat) (h : stoveDecode sv w = .svIllegal sv 0x3E) : (fOp w = 0x3E && (0x3E : Nat) = 0x3E : Bool) = true := by
  have e := opOf_stoveDecode sv w
  rw [h] at e
  have e' : fOp w = 0x3E := by simpa [fOp, bits, opOf] using e.symm
  simp [e']

/-- A write of LPV and LOOP_STEP are one step of the loop: here one that traps. -/
theorem exec_loopStep_traps {s : State} {sv a e : Nat} {x : Run} (h : s.issues sv (.svSrw sv a 11) x)
    (he : loopStep sv ((s.stove sv).reg a) s x = .error e) :
    exec (.svSrw sv a 11) s = .next (s.trapRun sv e) ∧ exec (.svLoopStep sv a 11) s = .next (s.trapRun sv e) := by
  constructor
  · change execSvSrw sv a 11 s = _
    rw [execSvSrw]
    exact svStep_traps h (decoded_svSrw sv) he
  · change execSvLoopStep sv a 11 s = _
    rw [execSvLoopStep]
    exact svStep_traps h (fun w hw => by simp [decoded_svSrw sv w hw]) he

theorem exec_loopStep_done {s t : State} {sv a : Nat} {x : Run} (h : s.issues sv (.svSrw sv a 11) x)
    (he : ∃ r, loopStep sv ((s.stove sv).reg a) s x = .ok r
      ∧ r.st.retires sv x r.flags 1 (r.pc.getD ((x.pc + 4) % 2 ^ 32)) = t) :
    exec (.svSrw sv a 11) s = .next t ∧ exec (.svLoopStep sv a 11) s = .next t := by
  constructor
  · change execSvSrw sv a 11 s = _
    rw [execSvSrw]
    exact svStep_done h (decoded_svSrw sv) he
  · change execSvLoopStep sv a 11 s = _
    rw [execSvLoopStep]
    exact svStep_done h (fun w hw => by simp [decoded_svSrw sv w hw]) he

/-- A write of LCTL, and the request it names. -/
theorem exec_loopCtl {s t : State} {sv a : Nat} {x : Run} (h : s.issues sv (.svSrw sv a 14) x)
    (he : ∃ r, loopCtl sv ((s.stove sv).reg a) s x = .ok r
      ∧ r.st.retires sv x r.flags 1 (r.pc.getD ((x.pc + 4) % 2 ^ 32)) = t) :
    exec (.svSrw sv a 14) s = .next t
    ∧ ((s.stove sv).reg a = 1 → exec (.svLctlHold sv a 14) s = .next t)
    ∧ ((s.stove sv).reg a = 2 → exec (.svLctlResume sv a 14) s = .next t) := by
  refine ⟨exec_svSrw h he, fun h1 => ?_, fun h2 => ?_⟩
  · change execSvLctlHold sv a 14 s = _
    rw [execSvLctlHold]
    exact svStep_done h (fun w hw => by simp [decoded_svSrw sv w hw, h1]) (h1 ▸ he)
  · change execSvLctlResume sv a 14 s = _
    rw [execSvLctlResume]
    exact svStep_done h (fun w hw => by simp [decoded_svSrw sv w hw, h2]) (h2 ▸ he)

/-- Settles O20: a write of a register by its own rule, a loop step and a request by the case of `loopStep` and `loopCtl` they meet. -/
theorem stoveSystemRegisters : Obligations.StoveSystemRegisters := by
  refine ⟨fun s sv a imm x => ?_, fun s sv a x => ?_⟩
  · intro v y k set
    refine ⟨fun z hz h => ?_, fun hz h => ?_, fun h => exec_svSrw h ⟨_, rfl, rfl⟩, fun h => exec_svSrw h ⟨_, rfl, rfl⟩,
      fun h => exec_svSrw h ⟨_, rfl, rfl⟩, fun h => exec_svSrw h ⟨_, rfl, rfl⟩, fun himm h => exec_svSrw h ⟨{ st := s }, ?_, rfl⟩, fun h => ?_⟩
    · exact (exec_svSrr h).trans (by simp only [v] at hz; rw [hz])
    · exact (exec_svSrr h).trans (by simp only [v] at hz; rw [hz])
    · simp only [List.mem_cons, List.not_mem_nil, or_false, not_or] at himm
      unfold sysWrite
      split <;> simp_all
    · change execSvIllegal sv 0x3E s = _
      rw [execSvIllegal]
      exact svStep_traps h (decoded_svIllegal sv) rfl
  · intro v pv k r serves sp e ff c steps stages lpv
    refine ⟨fun h => ⟨fun hs => ?_, fun hs hk => ?_, fun hs hk hn => ?_, fun hs hk hn => ?_⟩, fun h hp hr => ?_, fun h hp hr hc hb ht => ?_,
      fun h hno => ?_⟩
    · exact exec_loopStep_traps h (if_pos (by simpa using hs))
    · exact exec_loopStep_traps h ((if_neg (by simpa using hs)).trans (if_pos (by simpa using hk)))
    · have hn' : (fpIsNan e.1 || fpIsNan ff) = true := (Bool.or_eq_true _ _).mpr hn
      exact exec_loopStep_done h ⟨_, (if_neg (by simpa using hs)).trans ((if_neg (by simpa using hk)).trans (if_pos hn')), rfl⟩
    · have hn' : ¬ (fpIsNan e.1 || fpIsNan ff) = true := fun h => hn ((Bool.or_eq_true _ _).mp h)
      exact exec_loopStep_done h ⟨_, (if_neg (by simpa using hs)).trans ((if_neg (by simpa using hk)).trans (if_neg hn')), rfl⟩
    · have hhold : (pv = 1 && lrState r = 2) = true := by simp [hp, hr]
      obtain ⟨hw, h1, -⟩ := exec_loopCtl h ⟨_, if_pos hhold, rfl⟩
      exact ⟨hw, h1 hp⟩
    · have hhold : ¬ (pv = 1 && lrState r = 2) = true := by simp [hp]
      have hauto : (pv = 2 && lrState r = 3 && lrField r 16 8 4 = 4 && bitAt (r.getD 7 0) 2 && !(s.tripLow && lrField r 7 3 2 ≠ 0)) = true := by
        have ht' : (s.tripLow && lrField r 7 3 2 ≠ 0) = false := by rcases ht with ht | ht <;> simp [ht]
        simp only [hp, hr, hc, hb, ht', decide_true, Bool.and_self, Bool.not_false]
      obtain ⟨hw, -, h2⟩ := exec_loopCtl h ⟨_, (if_neg hhold).trans (if_pos hauto), rfl⟩
      exact ⟨hw, h2 hp⟩
    · have hhold : ¬ (pv = 1 && lrState r = 2) = true := by simpa using hno.1
      have hauto : ¬ (pv = 2 && lrState r = 3 && lrField r 16 8 4 = 4 && bitAt (r.getD 7 0) 2 && !(s.tripLow && lrField r 7 3 2 ≠ 0)) = true := by
        intro ha
        simp only [Bool.and_eq_true, decide_eq_true_eq, Bool.not_eq_true', Bool.and_eq_false_iff] at ha
        obtain ⟨⟨⟨⟨hp, hr⟩, hc⟩, hb⟩, ht⟩ := ha
        exact hno.2 ⟨hp, hr, hc, hb, ht.imp_right (by simp)⟩
      exact (exec_loopCtl h ⟨_, (if_neg hhold).trans (if_neg hauto), rfl⟩).1

end Sys2Proof.Machine
end

section
/-! The output instructions of a stove, and END (R290 to R292, R318). -/

namespace Sys2Proof.Machine

theorem not_dataRange {y l : Nat} : (!dataRange y l) = true ↔ ¬ (y % 4 = 0 ∧ y + l ≤ 65536) := by
  unfold dataRange
  by_cases h : y % 4 = 0 <;> simp [h]

/-- An effect that needs l bytes at y and a place among its like, before it stages. -/
theorem svStep_range {sv y l e : Nat} {full : Prop} [Decidable full] {ok : Nat → Bool} {eff : Effect} {s t : State} {i : Instr} {x : Run}
    {r : IRes} (h : s.issues sv i x) (hk : ∀ w, stoveDecode sv w = i → ok w = true)
    (he : eff s x = if !dataRange y l then .error 3 else if full then .error e else .ok r)
    (ht : r.st.retires sv x r.flags 1 (r.pc.getD ((x.pc + 4) % 2 ^ 32)) = t) :
    svStep sv 1 ok eff s =
      if ¬ (y % 4 = 0 ∧ y + l ≤ 65536) then .next (s.trapRun sv 3) else if full then .next (s.trapRun sv e) else .next t := by
  split
  case isTrue hr => exact svStep_traps h hk (he.trans (if_pos (not_dataRange.mpr hr)))
  case isFalse hr =>
    have hin := he.trans (if_neg (fun h => hr (not_dataRange.mp h)))
    split
    case isTrue hf => exact svStep_traps h hk (hin.trans (if_pos hf))
    case isFalse hf => exact svStep_done h hk ⟨r, hin.trans (if_neg hf), ht⟩

/-- Settles O21: each effect checks in the order the statement gives, and stages. -/
theorem stoveOutputs : Obligations.StoveOutputs := by
  refine ⟨fun s sv a imm x => ?_, fun s sv x h => ?_⟩
  · intro v y stages traps range prot
    refine ⟨fun h => ?_, fun h => ?_, fun h => ?_, fun hp h => ?_, fun hp h => ?_, fun h => ?_, fun h => ?_, fun h => ?_⟩
    · change execSvFout sv a imm s = _
      rw [execSvFout]
      cases hb : v.forceBind.any (fun e => e.1 = imm % 8)
      · exact svStep_traps h (decoded_svFout sv) (if_pos (by simp only [v] at hb; simp [hb]))
      · exact svStep_done h (decoded_svFout sv) ⟨_, if_neg (by simp only [v] at hb; simp [hb]), rfl⟩
    · change execSvMsg sv a imm s = _
      rw [execSvMsg]
      cases hb : (s.stove sv).msgBind.find? (fun e => e.1 = imm % 16) with
      | none => exact svStep_traps h (decoded_svMsg sv) (by dsimp only; rw [hb])
      | some b => exact svStep_range h (decoded_svMsg sv) (by dsimp only; rw [hb]) rfl
    · change execSvQrec sv a imm s = _
      rw [execSvQrec]
      split
      case isTrue hb => exact svStep_traps h (decoded_svQrec sv) (if_pos hb)
      case isFalse hb => exact svStep_range h (decoded_svQrec sv) (if_neg hb) rfl
    · change execSvTripr sv a s = _
      rw [execSvTripr]
      exact svStep_done h (decoded_svTripr sv) ⟨_, if_neg (not_not.mpr hp), rfl⟩
    · change execSvTripr sv a s = _
      rw [execSvTripr]
      exact svStep_traps h (decoded_svTripr sv) (if_pos hp)
    · change execSvTrg sv s = _
      rw [execSvTrg]
      split
      · exact svStep_traps h (decoded_svTrg sv) (if_pos ‹_›)
      · exact svStep_done h (decoded_svTrg sv) ⟨_, if_neg ‹_›, rfl⟩
    · change execSvEvt sv a s = _
      rw [execSvEvt]
      split
      · exact svStep_traps h (decoded_svEvt sv) (if_pos ‹_›)
      · exact svStep_done h (decoded_svEvt sv) ⟨_, if_neg ‹_›, rfl⟩
    · change execSvPsreq sv a s = _
      rw [execSvPsreq]
      exact svStep_range h (decoded_svPsreq sv) rfl rfl
  · intro g ended looped forced tripped triggered sent recorded told asked
    change execSvEnd sv s = _
    rw [execSvEnd]
    have hend : s.endRun sv x = asked.runEnded sv x.law := by
      simp only [asked, told, recorded, sent, triggered, tripped, State.endRun]
      cases x.staged.trip <;> cases x.staged.evt <;> cases x.staged.psreq <;> rfl
    exact svStep_done h (decoded_svEnd sv) ⟨_, rfl, by rw [hend]; rfl⟩

end Sys2Proof.Machine
end

section
/-! What the host commands of the tiles, the stoves, the meters, the queues and the ring do. -/

namespace Sys2Proof.Machine

/-- Settles O2: each command's action is the stated effect, and an edge of TILE_MODE takes the branch its force path meets. -/
theorem frontEndCommands : Obligations.FrontEndCommands := by
  refine ⟨fun r s => ⟨?_, ?_, ?_, ?_, ?_, ?_, ?_, ?_⟩, fun r s => ⟨?_, ?_⟩⟩
  · exact does_of_perform rfl specOf_devIdentifySpec fun u => rfl
  · exact does_of_perform rfl specOf_feStatusSpec fun u => rfl
  · exact does_of_perform rfl specOf_coreStatusSpec fun u => rfl
  · exact (does_of_perform rfl specOf_feConfigSpec fun u => rfl).2
  · exact (does_of_perform rfl specOf_feGroupConfigSpec fun u => rfl).2
  · exact fun _ _ _ _ _ _ _ _ => ⟨rfl, rfl⟩
  · exact (does_of_perform rfl specOf_feClearCountsSpec fun u => rfl).2
  · exact (does_of_perform rfl specOf_coreClearCountsSpec fun u => rfl).2
  · exact does_of_perform rfl specOf_tileModeSpec fun u => rfl
  · intro n m ramp hop f down e v
    have hstay : ¬ (s.findOp 0x0207 n).isNone = true := by simpa [Option.isSome_iff_ne_none] using hop
    exact ⟨fun hd => (if_neg hstay).trans (if_pos hd), fun hd => (if_neg hstay).trans (if_neg (ne_true_of_eq_false hd))⟩

theorem converting_modSeq (u : State) (n : Nat) (f : Seq → Seq) : ((u.modSeq n f).tile n).converting = (u.tile n).converting := by
  simp [State.modSeq, Tile.converting]

/-- Settles O3: each command's action is the stated effect, split where a tile converts or is deaf. -/
theorem sequencerCommands : Obligations.SequencerCommands := by
  refine ⟨fun r s => ⟨?_, ?_, ?_, ?_, ?_⟩, fun r s => ⟨?_, ?_, ?_, ?_⟩⟩
  · exact does_of_perform rfl specOf_seqStatusSpec fun u => rfl
  · exact (does_of_perform rfl specOf_seqSlotsSpec fun u => rfl).2
  · exact (does_of_perform rfl specOf_seqCommitSpec fun u => by simp only [CmdSpec.perform, seqCommitSpec]; split <;> rfl).2
  · refine does_of_perform rfl specOf_seqArmSpec fun u => ?_
    simp only [CmdSpec.perform, seqArmSpec, converting_modSeq]
    split <;> rfl
  · exact does_of_perform rfl specOf_seqTriggerSpec fun u => by simp only [CmdSpec.perform, seqTriggerSpec]; split <;> rfl
  · exact does_of_perform rfl specOf_tcStatusSpec fun u => rfl
  · exact (does_of_perform rfl specOf_tcResetSpec fun u => rfl).2
  · exact fun h => (does_of_perform rfl specOf_tcConfigSpec fun u => by simp only [CmdSpec.perform, tcConfigSpec, h]; rfl).2
  · exact fun h => (does_of_perform rfl specOf_tcConfigSpec fun u => by simp only [CmdSpec.perform, tcConfigSpec, h]; rfl).2

/-- The act time and edge of a SYNC: one of the ring's acts at a time, or its lead from now. -/
theorem syncActAt_eq (s : State) (r : Req) : s.syncActAt r =
    (let soon := s.edgeAtOrAfter (s.node.clock + 3200)
     let t := r.u 24 0 64
     if r.b 16 2 then
       (if t = 0 then (s.now + r.u 20 0 16 * 1000, s.edgeAtOrAfter (s.node.clock + r.u 20 0 16 * 64000)) else (t, s.edgeAtOrAfter (t * 64)))
     else (max (s.edgeTime soon) t, max soon (s.edgeAtOrAfter (t * 64)))) := by
  unfold State.syncActAt
  dsimp only
  by_cases ht : r.u 24 0 64 = 0
  · simp only [ht, if_true]
  · simp only [ht, if_false]

/-- Settles O4: each command's action is the stated effect; FILT_SYNC acts by its OP. -/
theorem filterCommands : Obligations.FilterCommands := by
  refine ⟨fun r s => ⟨?_, ?_, ?_, ?_, ?_, ?_, ?_, ?_⟩, fun r s => ⟨?_, ?_, ?_, ?_⟩⟩
  · exact does_of_perform rfl specOf_filtStatusSpec fun u => rfl
  · exact does_of_perform rfl specOf_filtDcbReadSpec fun u => rfl
  · exact (does_of_perform rfl specOf_filtConfigSpec fun u => rfl).2
  · exact (does_of_perform rfl specOf_filtPresetSpec fun u => rfl).2
  · exact (does_of_perform rfl specOf_filtCoefSpec fun u => rfl).2
  · exact (does_of_perform rfl specOf_filtAdmitSpec fun u => rfl).2
  · exact (does_of_perform rfl specOf_filtSwapSpec fun u => rfl).1
  · exact does_of_perform rfl specOf_filtDcbSpec fun u => rfl
  · refine fun h => (does_of_perform rfl specOf_filtSyncSpec fun u => ?_).2
    simp only [CmdSpec.perform, filtSyncSpec, h, syncActAt_eq]
    rfl
  · exact fun h => (does_of_perform rfl specOf_filtSyncSpec fun u => by simp only [CmdSpec.perform, filtSyncSpec, h]; rfl).2
  · exact fun h => (does_of_perform rfl specOf_filtSyncSpec fun u => by simp only [CmdSpec.perform, filtSyncSpec, h]; rfl).2
  · exact fun h => does_of_perform rfl specOf_filtSyncSpec fun u => by simp only [CmdSpec.perform, filtSyncSpec, h]; rfl

/-- Settles O5: each command's action is the stated effect, split where the output cannot drive. -/
theorem forceCommands : Obligations.ForceCommands := by
  refine fun r s => ⟨?_, ?_, ?_, ?_, ?_⟩
  · exact (does_of_perform rfl specOf_forceConfigSpec fun u => rfl).2
  · exact does_of_perform rfl specOf_forceTargetSpec fun u => rfl
  · exact (does_of_perform rfl specOf_forceRestartSpec fun u => by simp only [CmdSpec.perform, forceRestartSpec]; split <;> rfl).2
  · exact does_of_perform rfl specOf_forceStatusSpec fun u => rfl
  · exact (does_of_perform rfl specOf_forceLoopbackSpec fun u => rfl).2

/-- Settles O6: each command's action is the stated effect. -/
theorem calibrationCommands : Obligations.CalibrationCommands := by
  refine fun r s => ⟨?_, ?_, ?_, ?_, ?_, ?_⟩
  · exact does_of_perform rfl specOf_calStatusSpec fun u => rfl
  · exact (does_of_perform rfl specOf_calConfigSpec fun u => rfl).2
  · refine does_of_perform rfl specOf_calRunSpec fun u => ?_
    simp only [CmdSpec.perform, calRunSpec, Bool.and_eq_true, decide_eq_true_eq, Bool.not_eq_true', and_assoc, if_true]
  · exact (does_of_perform rfl specOf_calRowBurnSpec fun u => rfl).1
  · exact does_of_perform rfl specOf_calRowReadSpec fun u => rfl
  · exact (does_of_perform rfl specOf_calSubstSpec fun u => rfl).2

/-- Settles O7: each command's action is the stated effect; STOVE_BIND and STOVE_CTRL act by their OP. -/
theorem stoveCommands : Obligations.StoveCommands := by
  refine fun r s => ⟨?_, ?_, ?_, ?_, ?_, ?_, ?_, ?_, ?_, ?_⟩
  · exact does_of_perform rfl specOf_stoveStatusSpec fun u => rfl
  · exact (does_of_perform rfl specOf_stoveLoadSpec fun u => rfl).2
  · exact (does_of_perform rfl specOf_lawConfigSpec fun u => rfl).2
  · refine fun h => (does_of_perform rfl specOf_stoveBindSpec fun u => ?_).2
    simp only [CmdSpec.perform, stoveBindSpec, ne_eq, h, not_false_eq_true, if_true]
    rfl
  · exact fun h => (does_of_perform rfl specOf_stoveBindSpec fun u => by simp only [CmdSpec.perform, stoveBindSpec, h]; rfl).2
  · exact (does_of_perform rfl specOf_stoveConfigSpec fun u => rfl).2
  · exact fun h => (does_of_perform rfl specOf_stoveCtrlSpec fun u => by simp only [CmdSpec.perform, stoveCtrlSpec, h]; rfl).2
  · exact fun h => (does_of_perform rfl specOf_stoveCtrlSpec fun u => by simp only [CmdSpec.perform, stoveCtrlSpec, h]; split <;> rfl).2
  · exact fun h => (does_of_perform rfl specOf_stoveCtrlSpec fun u => by simp only [CmdSpec.perform, stoveCtrlSpec, h]; rfl).2
  · exact fun h => (does_of_perform rfl specOf_stoveCtrlSpec fun u => by simp only [CmdSpec.perform, stoveCtrlSpec, h]; rfl).2

/-- Settles O9: each command's action is the stated effect; METER_CTRL acts by its OP. -/
theorem storeAndMeterCommands : Obligations.StoreAndMeterCommands := by
  refine ⟨fun r s => ⟨?_, ?_, ?_, ?_⟩, fun r s => ⟨?_, ?_, ?_, ?_, ?_⟩⟩
  · exact does_of_perform rfl specOf_psStatusSpec fun u => rfl
  · exact (does_of_perform rfl specOf_psReadSpec fun u => rfl).2
  · exact (does_of_perform rfl specOf_psProgramSpec fun u => rfl).1
  · exact (does_of_perform rfl specOf_psEraseSpec fun u => rfl).1
  · exact does_of_perform rfl specOf_meterReadSpec fun u => rfl
  · exact (does_of_perform rfl specOf_meterPairSpec fun u => rfl).2
  · exact fun h => (does_of_perform rfl specOf_meterCtrlSpec fun u => by simp only [CmdSpec.perform, meterCtrlSpec, h]; rfl).2
  · exact fun h => (does_of_perform rfl specOf_meterCtrlSpec fun u => by simp only [CmdSpec.perform, meterCtrlSpec, h]; rfl).2
  · exact fun h => does_of_perform rfl specOf_meterCtrlSpec fun u => by simp only [CmdSpec.perform, meterCtrlSpec, h]; rfl

/-- Settles O10: each command's action is the stated effect, split where the command completes later. -/
theorem queueCommands : Obligations.QueueCommands := by
  refine fun r s => ⟨?_, ?_, ?_, ?_, ?_⟩
  · exact does_of_perform rfl specOf_queueCreateSpec fun u => by simp only [CmdSpec.perform, queueCreateSpec]; split <;> rfl
  · refine does_of_perform rfl specOf_queueDestroySpec fun u => ?_
    simp only [CmdSpec.perform, queueDestroySpec, Bool.and_eq_true, decide_eq_true_eq]
    split
    · split
      · rfl
      · split <;> rfl
    · rfl
  · exact does_of_perform rfl specOf_queueBindSpec fun u => by simp only [CmdSpec.perform, queueBindSpec]; split <;> rfl
  · exact does_of_perform rfl specOf_queueStatusSpec fun u => rfl
  · exact does_of_perform rfl specOf_lmapInvalSpec fun u => rfl

/-- Settles O11: each command's action is the stated effect; the rate changes of RING_CONFIG follow one another by `State.nextRate`. -/
theorem ringCommands : Obligations.RingCommands := by
  refine fun r s => ⟨?_, ?_, ?_, ?_, ?_⟩
  · refine (does_of_perform (p := ringConfigSpec) rfl specOf_ringConfigSpec fun u => ?_).2
    simp only [CmdSpec.perform, ringConfigSpec]
    generalize (if u.isWorker then 0 else r.u 4 0 6) = n
    generalize (decide (u.ring.slowAt n true = r.b 16 0) && decide (u.ring.slowAt n false = r.b 16 1)) = same
    by_cases hother : n ≠ 0 ∧ (same = true ∨ u.ring.view = 0 ∨ n ∉ u.ring.order)
    · have h : (decide (n ≠ 0) && (same || decide (u.ring.view = 0) || !u.ring.order.contains n)) = true := by
        simpa [or_assoc] using hother
      rw [if_pos h, if_pos hother]
      rfl
    · have h : ¬ (decide (n ≠ 0) && (same || decide (u.ring.view = 0) || !u.ring.order.contains n)) = true := by
        simpa [or_assoc] using hother
      rw [if_neg h, if_neg hother]
      by_cases hnow : same = true ∨ u.isWorker = true ∨ u.ring.view = 0
      · rw [if_pos (show (same || u.isWorker || decide (u.ring.view = 0)) = true by simpa [or_assoc] using hnow), if_pos hnow]
        rfl
      · rw [if_neg (show ¬ (same || u.isWorker || decide (u.ring.view = 0)) = true by simpa [or_assoc] using hnow), if_neg hnow]
        rfl
  · intro o ho n e w
    refine ⟨fun he hw => ?_, fun hplan hbe hbw => ⟨fun he => ?_, fun he hw => ?_⟩⟩
    · rw [State.nextRate, ho]
      exact if_pos (by simp [he, hw, n, e, w])
    · rw [State.nextRate, ho]
      exact (if_neg (by simp [he, n, e])).trans ((if_neg (by simp [hplan, hbe, hbw, n])).trans (if_pos he))
    · rw [State.nextRate, ho]
      exact (if_neg (by simp [hw, n, w])).trans ((if_neg (by simp [hplan, hbe, hbw, n])).trans (if_neg (not_not.mpr he)))
  · refine does_of_perform rfl specOf_ringStatusSpec fun u => ?_
    simp only [CmdSpec.perform, ringStatusSpec]
    cases u.isWorker <;> cases r.b 16 1 <;> rfl
  · refine (does_of_perform (p := ringBypassSpec) rfl specOf_ringBypassSpec fun u => ?_).2
    simp only [CmdSpec.perform, ringBypassSpec]
    split
    · split <;> rfl
    · split
      · next h => rw [if_pos h]; rfl
      · next h => simp only [h, one_ne_zero, if_false, if_true]; rfl
      · next h0 h1 => rw [if_neg h0, if_neg h1]; rfl
  · exact does_of_perform rfl specOf_ringTriggerSpec fun u => rfl

end Sys2Proof.Machine
end

section
/-! What the host commands of hearths, protection, faults and the node do. -/

namespace Sys2Proof.Machine

/-- Settles O13: each command's action is the stated effect. -/
theorem hearthCommands : Obligations.HearthCommands := by
  refine ⟨fun r s => ⟨?_, ?_, ?_, ?_, ?_, ?_, ?_⟩, fun r s => ⟨?_, ?_⟩⟩
  · exact does_of_perform rfl specOf_hearthStatusSpec fun u => rfl
  · exact (does_of_perform rfl specOf_hearthAssignSpec fun u => rfl).2
  · exact (does_of_perform rfl specOf_hearthSharesSpec fun u => rfl).2
  · exact fun h => (does_of_perform rfl specOf_chainGrantSpec fun u => by simp only [CmdSpec.perform, chainGrantSpec, h]; rfl).2
  · exact fun h => (does_of_perform rfl specOf_chainGrantSpec fun u => by simp only [CmdSpec.perform, chainGrantSpec, h]; rfl).2
  · exact fun h => (does_of_perform rfl specOf_hearthSealSpec fun u => by simp only [CmdSpec.perform, hearthSealSpec, h]; rfl).2
  · exact fun h => (does_of_perform rfl specOf_hearthSealSpec fun u => by simp only [CmdSpec.perform, hearthSealSpec, h]; rfl).2
  · exact does_of_perform rfl specOf_clogReadSpec fun u => rfl
  · exact (does_of_perform rfl specOf_clogArchiveSpec fun u => by simp only [CmdSpec.perform, clogArchiveSpec]; split <;> rfl).1

/-- Settles O14: each command's action is the stated effect; SAFE_ARM acts by its OP. -/
theorem protectionCommands : Obligations.ProtectionCommands := by
  refine fun r s => ⟨?_, ?_, ?_, ?_, ?_, ?_, ?_, ?_⟩
  · exact (does_of_perform rfl specOf_safeConfigSpec fun u => rfl).2
  · exact (does_of_perform rfl specOf_safeConnSpec fun u => rfl).2
  · exact fun h => (does_of_perform rfl specOf_safeArmSpec fun u => by simp only [CmdSpec.perform, safeArmSpec, h]; rfl).2
  · refine fun h => (does_of_perform rfl specOf_safeArmSpec fun u => ?_).2
    simp only [CmdSpec.perform, safeArmSpec, h, Bool.or_eq_true, decide_eq_true_eq]
    rfl
  · exact fun h => (does_of_perform rfl specOf_safeArmSpec fun u => by simp only [CmdSpec.perform, safeArmSpec, h]; rfl).2
  · exact fun h => (does_of_perform rfl specOf_safeArmSpec fun u => by simp only [CmdSpec.perform, safeArmSpec, h]; rfl).2
  · refine does_of_perform rfl specOf_safeStatusSpec fun u => ?_
    simp only [CmdSpec.perform, safeStatusSpec]
    cases r.b 17 0 <;> cases r.b 17 1 <;> rfl
  · exact does_of_perform rfl specOf_tirwinPutSpec fun u => rfl

/-- Settles O15: each command's action is the stated effect; FAULT_CONFIG acts by its OP. -/
theorem faultCommands : Obligations.FaultCommands := by
  refine fun r s => ⟨?_, ?_, ?_, ?_, ?_, ?_⟩
  · exact fun h => (does_of_perform rfl specOf_faultConfigSpec fun u => by simp only [CmdSpec.perform, faultConfigSpec, h]; rfl).2
  · exact fun h => (does_of_perform rfl specOf_faultConfigSpec fun u => by simp only [CmdSpec.perform, faultConfigSpec, h]; rfl).2
  · exact fun h => (does_of_perform rfl specOf_faultConfigSpec fun u => by simp only [CmdSpec.perform, faultConfigSpec, h]; rfl).2
  · exact does_of_perform rfl specOf_faultReadSpec fun u => by simp only [CmdSpec.perform, faultReadSpec]; split <;> rfl
  · exact (does_of_perform rfl specOf_faultClearSpec fun u => rfl).2
  · exact (does_of_perform rfl specOf_faultInjectSpec fun u => rfl).2

/-- Settles O16: each command's action is the stated effect; DEV_RESET acts by where it came from. -/
theorem nodeCommands : Obligations.NodeCommands := by
  refine fun r s => ⟨?_, ?_, ?_, ?_, ?_, ?_, ?_⟩
  · exact does_of_perform rfl specOf_evlogReadSpec fun u => rfl
  · refine fun h => (does_of_perform rfl specOf_devResetSpec fun u => ?_).2
    simp only [CmdSpec.perform, devResetSpec, h]
    split <;> rfl
  · refine fun h => (does_of_perform rfl specOf_devResetSpec fun u => ?_).2
    cases ho : r.origin with
    | ring => exact absurd ho h
    | frame _ _ =>
      simp only [CmdSpec.perform, devResetSpec, ho]
      rfl
  · exact (does_of_perform rfl specOf_ageReplanSpec fun u => rfl).2
  · exact does_of_perform rfl specOf_ageStatusSpec fun u => rfl
  · exact does_of_perform rfl specOf_agePlanReadSpec fun u => rfl
  · exact (does_of_perform rfl specOf_ageApplySpec fun u => rfl).2

end Sys2Proof.Machine
end

section
/-! The commands of sessions and secrets. -/

namespace Sys2Proof.Machine

/-! ### What leaves the sessions as they were -/

@[simp] theorem roles_sendFrame (s : State) (f : FrameOut) : (s.sendFrame f).roles = s.roles := by
  unfold State.sendFrame
  dsimp only
  split
  · rfl
  · split
    · rfl
    · split <;> rfl

@[simp] theorem roles_sendAcked (s : State) (t : FrameType) (d b : Nat) : (s.sendAcked t d b).roles = s.roles := by
  rw [← roles_sendFrame s { type := t, dst := some d, aux := (s.ring.tag + 1) % 2 ^ 32, body := b }]
  rfl

@[simp] theorem roles_replaceEvent (s : State) (f q : Nat) (e : EventRec) : (s.replaceEvent f q e).roles = s.roles := by
  unfold State.replaceEvent
  dsimp only
  generalize (if (s.queue q).policy then _ else _) = o
  cases o <;> rfl

@[simp] theorem roles_deliverEvent (s : State) (e : EventRec) : (s.deliverEvent e).roles = s.roles := by
  unfold State.deliverEvent
  dsimp only
  split
  · rfl
  · split
    · rfl
    · split
      · rfl
      · simp

@[simp] theorem roles_raise (s : State) (c h j d : Nat) : (s.raise c h j d).roles = s.roles := by
  unfold State.raise State.raiseHeld
  split <;> simp

@[simp] theorem roles_copyEntry (s : State) (e : BitVec 512) : (s.copyEntry e).roles = s.roles := by
  unfold State.copyEntry
  split
  · exact roles_sendFrame _ _
  · extract_lets c put
    have hput : ∀ (u : State) (c : LogCopy), (put u c).roles = u.roles := by
      intro u c
      simp only [put]
      split
      · rfl
      · split
        · rfl
        · split <;> rfl
    rw [hput, hput]

@[simp] theorem roles_clogAppend (s : State) (e : ClogStaged) : (s.clogAppend e).roles = s.roles := by
  unfold State.clogAppend
  extract_lets c prev x u n
  split
  · exact (roles_raise _ _ _ _ _).trans (roles_copyEntry _ _)
  · split
    · exact (roles_raise _ _ _ _ _).trans (roles_copyEntry _ _)
    · exact roles_copyEntry _ _

theorem units_clogAppend (s : State) (e : ClogStaged) : (s.clogAppend e).units = s.units := by
  unfold State.clogAppend
  extract_lets c prev x u n
  split
  · exact (units_raise _ _ _ _ _).trans (units_copyEntry _ _)
  · split
    · exact (units_raise _ _ _ _ _).trans (units_copyEntry _ _)
    · exact units_copyEntry _ _

@[simp] theorem roles_writeResult (s : State) (r : Req) (a n v : Nat) : (s.writeResult r a n v).roles = s.roles := by
  unfold State.writeResult
  split
  · split <;> rfl
  · simp

/-! ### SESSION_OPEN -/

/-- The handle a session opens under: a free value, neither zero nor the other session's. -/
def State.newHandle (s : State) (other : Option Nat) : Nat :=
  let h := 1 + s.free.1 % (2 ^ 32 - 1)
  if other = some h then 1 + h % (2 ^ 32 - 1) else h

theorem newHandle_pos (s : State) (other : Option Nat) : 0 < s.newHandle other := by
  unfold State.newHandle
  dsimp only
  split <;> omega

theorem newHandle_lt (s : State) (other : Option Nat) : s.newHandle other < 2 ^ 32 := by
  unfold State.newHandle
  dsimp only
  split <;> omega

theorem newHandle_ne (s : State) (other : Option Nat) : other ≠ some (s.newHandle other) := by
  unfold State.newHandle
  dsimp only
  split
  case isTrue h => rw [h]; simp only [ne_eq, Option.some.injEq]; omega
  case isFalse h => exact h

/-- The roles after SESSION_OPEN. -/
theorem act_sessionOpen (r : Req) (s : State) :
    let a := sessionOpenSpec.act r s
    let seq := nextSession s.roles.sessionSeq
    let other := (if r.u 16 0 2 = 1 then s.roles.maker else s.roles.installer).map (fun x => x.handle)
    a.late = false ∧ a.status = .ok ∧ a.result = s.newHandle other ∧ a.st.units = s.units ∧ a.st.roles.sessionSeq = seq
    ∧ (r.u 16 0 2 = 1 → a.st.roles = { s.roles with
        sessionSeq := seq, installer := some ⟨a.result, r.fn, s.now, seq, s.trust.password.isNone⟩, instLock := {} })
    ∧ (r.u 16 0 2 ≠ 1 → a.st.roles = { s.roles with
        sessionSeq := seq, maker := some ⟨a.result, r.fn, s.now, seq, false⟩, makerLock := {}, challenge := none }) := by
  by_cases h : r.u 16 0 2 = 1
  · simp [sessionOpenSpec, h, State.newHandle, State.free, State.modRoles, State.units]
    rfl
  · simp [sessionOpenSpec, h, State.newHandle, State.free, State.modRoles, State.units]
    rfl

theorem perform_of_act {p : CmdSpec} {r : Req} {s : State} (hl : (p.act r s).late = false) (hs : (p.act r s).status = .ok) :
    p.perform r s = (p.act r s).st.finish r .ok (p.act r s).result := by
  simp [CmdSpec.perform, hl, hs]

/-- What SESSION_OPEN does once its entry is in the log. -/
theorem perform_sessionOpen (r : Req) (s : State) :
    ∃ (v : State) (h : Nat), sessionOpenSpec.perform r s = v.finish r .ok h ∧ 0 < h ∧ h < 2 ^ 32
      ∧ v.roles.sessionSeq = nextSession s.roles.sessionSeq
      ∧ (r.u 16 0 2 = 1 → v.roles.installer = some ⟨h, r.fn, v.now, v.roles.sessionSeq, s.trust.password.isNone⟩ ∧ v.roles.instLock = {}
          ∧ v.roles.maker = s.roles.maker ∧ ∀ y, v.roles.maker = some y → y.handle ≠ h)
      ∧ (r.u 16 0 2 ≠ 1 → v.roles.maker = some ⟨h, r.fn, v.now, v.roles.sessionSeq, false⟩
          ∧ v.roles.makerLock = {} ∧ v.roles.challenge = none ∧ v.roles.installer = s.roles.installer
          ∧ ∀ y, v.roles.installer = some y → y.handle ≠ h)
      ∧ v.units = s.units := by
  obtain ⟨hlate, hstatus, hresult, hunits, hseq, hinst, hmaker⟩ := act_sessionOpen r s
  refine ⟨(sessionOpenSpec.act r s).st, (sessionOpenSpec.act r s).result, perform_of_act hlate hstatus, ?_, ?_, hseq, fun h1 => ?_,
    fun h1 => ?_, hunits⟩
  · rw [hresult]; exact newHandle_pos _ _
  · rw [hresult]; exact newHandle_lt _ _
  · have hnow : (sessionOpenSpec.act r s).st.now = s.now := show (sessionOpenSpec.act r s).st.units.now = s.units.now by rw [hunits]
    rw [hnow, hseq, hinst h1]
    refine ⟨rfl, rfl, rfl, fun y hy he => ?_⟩
    rw [hresult, if_pos h1] at he
    exact newHandle_ne s _ (by rw [← he]; exact congrArg (Option.map _) hy)
  · have hnow : (sessionOpenSpec.act r s).st.now = s.now := show (sessionOpenSpec.act r s).st.units.now = s.units.now by rw [hunits]
    rw [hnow, hseq, hmaker h1]
    refine ⟨rfl, rfl, rfl, rfl, fun y hy he => ?_⟩
    rw [hresult, if_neg h1] at he
    exact newHandle_ne s _ (by rw [← he]; exact congrArg (Option.map _) hy)

/-! ### Commands that are ready -/

section
variable {p : CmdSpec} {r : Req} {s u : State} {w : Who}

theorem admits_of_checks (hs : p.starts r s = true) (hw : (s.taken r).who r = some w) (hc : ∀ c ∈ p.checks r s, c.1 = false)
    (hm : (s.taken r).mapData r (p.data r (s.taken r)) = (u, true)) : p.admits r s = some (w, u) := by
  unfold CmdSpec.admits
  simp [hs, hw, hm, pickStatus_none.2 hc]

theorem room_of_used (hused : u.clogUsed < 4080) : p.room r w u = true := by
  unfold CmdSpec.room
  split
  · simpa using hused
  · split
    · simpa using .inl (by omega)
    · simp only [decide_eq_true_eq]
      split <;> omega

theorem actsNow_of_admits (ha : p.admits r s = some (w, u)) (hl : p.logs r w u = false) : p.actsNow r s = some u := by
  simp [CmdSpec.actsNow, ha, hl]

theorem actsLogged_of_admits (ha : p.admits r s = some (w, u)) (hl : p.logs r w u = true) (hroom : p.room r w u = true)
    (hend : p.endLogged = false) (hop : p.opcode ≠ 0x0B0B) (hst : u.clog.staging = []) (hb : u.logs.bank1 = [])
    (hpf : u.node.pfStage = .none) : p.actsLogged r s = some (u.clogEntry r w .ok p (.command r), u) := by
  simp [CmdSpec.actsLogged, ha, hl, hroom, hend, hop, hst, hb, hpf]

end

/-- SESSION_OPEN, entered, and then programmed. -/
theorem entered_sessionOpen {r : Req} {s t : State} {e : ClogStaged} (ht : sessionOpenSpec.actsLogged r s = some (e, t)) :
    exec (.sessionOpen r) s = .next (t.stage e)
      ∧ ∃ (v : State) (h : Nat), exec (.changeLogEntryDone true) (t.stage e) = .next (v.finish r .ok h) ∧ 0 < h ∧ h < 2 ^ 32
        ∧ v.roles.sessionSeq = nextSession t.roles.sessionSeq
        ∧ (r.u 16 0 2 = 1 → v.roles.installer = some ⟨h, r.fn, v.now, v.roles.sessionSeq, t.trust.password.isNone⟩ ∧ v.roles.instLock = {}
            ∧ v.roles.maker = t.roles.maker ∧ ∀ y, v.roles.maker = some y → y.handle ≠ h)
        ∧ (r.u 16 0 2 ≠ 1 → v.roles.maker = some ⟨h, r.fn, v.now, v.roles.sessionSeq, false⟩
            ∧ v.roles.makerLock = {} ∧ v.roles.challenge = none ∧ v.roles.installer = t.roles.installer
            ∧ ∀ y, v.roles.installer = some y → y.handle ≠ h)
        ∧ v.units = t.units := by
  have hdoes : sessionOpenSpec.Does (.sessionOpen r) r s (sessionOpenSpec.perform r) := does_of_perform rfl specOf_sessionOpenSpec fun u => rfl
  obtain ⟨hstage, hdone⟩ := hdoes.2 e t ht
  obtain ⟨v, h, hv, hrest⟩ := perform_sessionOpen r (t.clogAppend e)
  rw [roles_clogAppend, trust_of_units (units_clogAppend t e), units_clogAppend] at hrest
  exact ⟨hstage, v, h, hdone.trans (congrArg _ hv), hrest⟩

/-- SESSION_CLOSE closes the session of its handle. -/
theorem does_sessionClose (r : Req) (s : State) : sessionCloseSpec.Does (.sessionClose r) r s (fun u =>
    (u.modRoles (fun y => { y with
      installer := y.installer.filter (fun z => z.handle ≠ r.u 8 0 32), maker := y.maker.filter (fun z => z.handle ≠ r.u 8 0 32) })).finish
        r .ok 0) :=
  does_of_perform rfl specOf_sessionCloseSpec fun _ => rfl

theorem does_rolePassword (r : Req) (s : State) : rolePasswordSpec.Does (.rolePassword r) r s (fun u =>
    (if r.b 16 0 then (u.modTrust (fun t => { t with password := none })).modRoles (fun x => { x with installer := none })
     else
       let salt := Config.freeVal u.fresh % 2 ^ 128
       { u with fresh := u.fresh + 1 }.modTrust (fun t => { t with
         password := some (salt, passwordDigest salt (Req.bytesAt r 24 (r.u 17 0 6))) })).finish r .ok 0) := by
  refine does_of_perform rfl specOf_rolePasswordSpec fun u => ?_
  simp only [CmdSpec.perform, rolePasswordSpec]
  split <;> rfl

/-- The challenge that MAKER_CHALLENGE hands out, and the state that has recorded it. -/
def State.challenged (u : State) (r : Req) : State :=
  let v := mkRec [⟨0, 0, 128, Config.freeVal u.fresh⟩, ⟨16, 0, 32, satInc 32 u.roles.challengeId⟩, ⟨20, 0, 32, u.node.bootCnt⟩,
    ⟨24, 0, 64, Config.serial⟩, ⟨32, 0, 64, u.now + 600000000000⟩]
  let w := { u with fresh := u.fresh + 1 }.modRoles (fun x => { x with
    challengeId := satInc 32 u.roles.challengeId,
    challenge := some { record := v, id := satInc 32 u.roles.challengeId, expires := u.now + 600000000000 } })
  w.writeResult r (r.u 24 0 64) 64 v

theorem does_makerChallenge (r : Req) (s : State) :
    makerChallengeSpec.Does (.makerChallenge r) r s (fun u => (u.challenged r).finish r .ok 0) :=
  does_of_perform rfl specOf_makerChallengeSpec fun _ => rfl

theorem roles_challenged (u : State) (r : Req) :
    (u.challenged r).roles.challenge.isSome = true ∧ (u.challenged r).roles.challengeId = satInc 32 u.roles.challengeId := by
  simp [State.challenged]

/-- Settles O12: the actions are the stated effects; what SESSION_OPEN leaves stands in `entered_sessionOpen`, and a command that nothing
holds back is admitted, and entered where it must be. -/
theorem sessionCommands : Obligations.SessionCommands := by
  refine ⟨fun r s => ⟨does_sessionClose r s, fun h => ?_, fun h => ?_, does_makerChallenge r s⟩, fun r s e t => entered_sessionOpen,
    fun r s u w => ?_⟩
  · intro e t ht
    obtain ⟨hstage, hdone⟩ := (does_rolePassword r s).2 e t ht
    exact ⟨hstage, hdone.trans (by simp only [h, if_true])⟩
  · intro e t ht
    obtain ⟨hstage, hdone⟩ := (does_rolePassword r s).2 e t ht
    exact ⟨hstage, hdone.trans (by simp only [h, Bool.false_eq_true, if_false])⟩
  intro ready entered
  have hnow : ∀ p, ready p → p.logs r w u = false → p.actsNow r s = some u := fun p ⟨hs, hw, hc, hm, _⟩ hl =>
    actsNow_of_admits (admits_of_checks hs hw hc hm) hl
  have hlogged : ∀ p, ready p → p.logs r w u = true → p.endLogged = false → p.opcode ≠ 0x0B0B →
      p.actsLogged r s = some (u.clogEntry r w .ok p (.command r), u) := fun p ⟨hs, hw, hc, hm, hused, hst, hb, hpf⟩ hl hend hop =>
    actsLogged_of_admits (admits_of_checks hs hw hc hm) hl (room_of_used hused) hend hop hst hb hpf
  refine ⟨fun h => ?_, fun h => ⟨fun h0 => ?_, fun h0 => ?_⟩, fun h => ?_, fun h => ⟨fun h0 => ?_, fun h0 => ?_⟩⟩
  · obtain ⟨hstage, v, k, hdone, hpos, -, -, hinst, hmaker, -⟩ :=
      entered_sessionOpen (hlogged _ h (by simp [CmdSpec.logs, sessionOpenSpec]) rfl (by simp))
    refine ⟨hstage, v, k, hdone, hpos, ?_⟩
    split
    case isTrue h1 => simp [(hinst h1).1]
    case isFalse h1 => simp [(hmaker h1).1]
  · exact (does_sessionClose r s).1 u (hnow _ h (by simp [CmdSpec.logs, sessionCloseSpec, h0]))
  · obtain ⟨hstage, hdone⟩ := (does_sessionClose r s).2 _ _ (hlogged _ h (by simp [CmdSpec.logs, h0]) rfl (by simp))
    exact ⟨hstage, _, hdone⟩
  · obtain ⟨hstage, hdone⟩ := (does_rolePassword r s).2 _ _ (hlogged _ h (by simp [CmdSpec.logs, rolePasswordSpec]) rfl (by simp))
    refine ⟨hstage, _, hdone, ?_⟩
    cases r.b 16 0 <;> simp [State.modTrust, State.modRoles]
  · exact ⟨_, (does_makerChallenge r s).1 u (hnow _ h (by simp [CmdSpec.logs, makerChallengeSpec, h0])), roles_challenged u r⟩
  · obtain ⟨hstage, hdone⟩ := (does_makerChallenge r s).2 _ _ (hlogged _ h (by simp [CmdSpec.logs, h0]) rfl (by simp))
    exact ⟨hstage, _, hdone, (roles_challenged _ r).1⟩

end Sys2Proof.Machine
end

section
/-! Supplies, resets and the power-fail sequence. -/

namespace Sys2Proof.Machine

/-- Settles O22: every event takes the branch that its hypotheses name. -/
theorem supplyResets : Obligations.SupplyResets := by
  refine ⟨fun s rail die role sent => ?_, fun s => ?_⟩
  · intro down lost railOk
    refine ⟨rfl, fun hr h3 hin => ?_, fun hr h3 hout hpf => ?_, fun hr hout h5 hpf => ?_, fun hd hr => ?_, ?_, fun hin hrole => ?_⟩
    · change execSupplyBrownOut rail sent s = _
      rw [execSupplyBrownOut, if_neg (by simp; omega), if_pos hin]
    · change execSupplyBrownOut rail sent s = _
      rw [execSupplyBrownOut, if_neg (by simp; omega), if_neg (by simp [hout])]
      have hrail : ¬ (5 ≤ rail && s.node.pfStage = .none) = true := by
        rcases hpf with h | h
        · simp; omega
        · simp [h]
      refine congrArg (fun u : State => Host.Outcome.next (u.afterReset 2 rail true)) ((if_neg hrail).trans ?_)
      simp only [List.isEmpty_iff]
      rfl
    · change execSupplyBrownOut rail sent s = _
      rw [execSupplyBrownOut, if_neg (by simp; omega), if_neg (by simp [hout])]
      have hrail : (5 ≤ rail && s.node.pfStage = .none) = true := by simp [h5, hpf]
      exact congrArg (fun u : State => Host.Outcome.next (u.afterReset 2 rail true)) (if_pos hrail)
    · intro rest out
      have hrange : ∀ b, exec (.supplyRange die rail b) s = _ := fun b => show execSupplyRange die rail b s = _ by
        rw [execSupplyRange, if_neg (by omega), if_neg (by simp; omega)]
      refine ⟨?_, fun hin => ?_, fun hin => ?_⟩
      · rw [hrange]; rfl
      · exact (hrange false).trans (congrArg Host.Outcome.next (if_pos hin))
      · exact (hrange false).trans (congrArg Host.Outcome.next (if_neg (ne_true_of_eq_false hin)))
    · intro low
      refine ⟨fun hin => ?_, fun hin hpf => ?_, fun hin hpf => ?_⟩
      · exact congrArg Host.Outcome.next (if_pos hin)
      · change Host.Outcome.next (if low.node.inReset then low else low.resetNode 4) = _
        rw [if_neg (by simp [low, hin]), State.resetNode, if_pos hpf]
      · change Host.Outcome.next (if low.node.inReset then low else low.resetNode 4) = _
        rw [if_neg (by simp [low, hin]), State.resetNode, if_neg hpf]
    · change execResetRelease role s = _
      rw [execResetRelease, if_neg (by simp [hin]), Nat.mod_eq_of_lt hrole]
  · intro staged
    refine ⟨fun hin hpf hva => ?_, fun h => ?_, fun c h => ?_, fun c h => ?_, fun h hb => ?_, fun h hb => ?_⟩
    · intro a b c
      change execVa5PowerFail s = _
      rw [execVa5PowerFail, if_neg (by simp [hin, hpf, hva])]
    · change execPowerFailProgramDone s = _
      simp only [execPowerFailProgramDone, h]
      rfl
    · change execPowerFailProgramDone s = _
      simp only [execPowerFailProgramDone, h]
      rfl
    · change execPowerFailReadbackDone s = _
      simp only [execPowerFailReadbackDone, h]
    · change execPowerFailReadbackDone s = _
      simp only [execPowerFailReadbackDone, h, hb, List.isEmpty_nil, if_true]
    · change execPowerFailReadbackDone s = _
      simp only [execPowerFailReadbackDone, h]
      exact if_neg (by simpa using hb)

end Sys2Proof.Machine
end

section
/-! Kindling, the flue bridges and the source of the draught. -/

namespace Sys2Proof.Machine

/-- A walk that sets the entries below n leaves each of them at its value. -/
theorem tget_foldl_range (f : Nat → Nat) (t : Tab Nat) {n i : Nat} (hi : i < n) :
    tget 0 ((List.range n).foldl (fun t j => tset t j (f j)) t) i = f i := by
  induction n with
  | zero => omega
  | succ n ih =>
    rw [List.range_succ, List.foldl_append, List.foldl_cons, List.foldl_nil]
    by_cases h : i = n
    · rw [h, tget_tset_same]
    · rw [tget_tset_ne _ _ _ h, ih (by omega)]

/-- The trim of every island, where all are trimmed in turn. -/
theorem tget_trimIslands {s : State} {n i : Nat} (hi : i < n) :
    tget 0 (s.trimIslands (List.range n)).node.trim i = Config.freeVal (s.fresh + i) % 30001 := by
  have hwalk : (List.range n).foldl (fun t j => tset t ((List.range n).getD j 0) (Config.freeVal (s.fresh + j) % 30001)) s.node.trim
      = (List.range n).foldl (fun t j => tset t j (Config.freeVal (s.fresh + j) % 30001)) s.node.trim :=
    List.foldl_ext _ _ _ fun t j hj => by simp [List.getD, List.mem_range.1 hj]
  simp only [State.trimIslands, List.length_range]
  rw [hwalk]
  exact tget_foldl_range _ _ hi

/-- Settles O23: every event takes the branch that its hypotheses name. -/
theorem kindling : Obligations.Kindling := by
  refine ⟨fun s die chk => ?_, fun s die => ?_, fun s east => ?_⟩
  · dsimp only
    intro hres
    refine ⟨fun hd hk ht hf hfat => ?_, fun t hd hk hu ht hf hfat => ?_, fun hw hp hl ht => ?_, fun ha hfat hl ht => ?_,
      fun t hd h0 hk hb ht hf hr => ?_⟩
    · change execKindleDie die s = _
      have hgo : ¬ (s.node.inReset || (tget {} s.node.kindle die).start.isSome || s.sinceRef < 2000000 * die || s.dieFenced die || (s.faults.fatal && die ≠ 0)) = true := by
        rcases hfat with h | rfl <;> simp [*]
      rw [execKindleDie, if_neg (Nat.not_le.mpr hd)]
      exact if_neg hgo
    · change execKindleUnit die chk s = _
      have hgo : ¬ (s.node.inReset || 44 < (tget {} s.node.kindle die).nextUnit || s.sinceRef < t + kindleOffset (tget {} s.node.kindle die).nextUnit || s.dieFenced die
          || (s.faults.fatal && (tget {} s.node.kindle die).nextUnit ≠ 0)) = true := by
        rcases hfat with h | h
        · simp [hres, hf, ht, h, hu]
        · rw [h] at ht
          simp [hres, hf, ht, h]
      rw [execKindleUnit, if_neg (Nat.not_le.mpr hd)]
      simp only [hk]
      exact if_neg hgo
    · change execKindleLane false s = _
      rw [execKindleLane, if_neg (by simp [hres]), if_neg (by simp)]
      exact if_neg (by simp [hw, hp, hl, ht])
    · change execKindleLane true s = _
      rw [execKindleLane, if_neg (by simp [hres]), if_pos rfl]
      exact if_neg (by simp [ha, hfat, hl, ht])
    · change execFlueBridgeTimeout die s = _
      rw [execFlueBridgeTimeout, if_neg (Nat.not_le.mpr hd)]
      simp only [hk]
      exact if_neg (by simp [hres, h0, hb, ht, hf, hr])
  · dsimp only
    intro hres hd h0 hb hf
    have hthere : ¬ (s.node.dies ≤ die || die = 0) = true := by simp [hd, h0]
    have hgo : ¬ (s.node.inReset || !(tget {} s.node.kindle die).bridgeUp || s.dieFenced die) = true := by simp [hres, hb, hf]
    refine ⟨?_, fun hr => ?_, fun hr => ?_, fun ht hr => ?_⟩
    · change execFlueTransfer die false s = _
      rw [execFlueTransfer, if_neg hthere]
      exact (if_neg hgo).trans (if_pos rfl)
    · change execFlueTransfer die true s = _
      rw [execFlueTransfer, if_neg hthere]
      exact (if_neg hgo).trans ((if_neg nofun).trans (if_neg (ne_true_of_eq_false hr)))
    · change execFlueTransfer die true s = _
      rw [execFlueTransfer, if_neg hthere]
      exact (if_neg hgo).trans ((if_neg nofun).trans (if_pos hr))
    · change execDieKeepaliveTimeout die s = _
      rw [execDieKeepaliveTimeout, if_neg hthere]
      exact if_neg (by simp [hres, hb, hf, ht, hr])
  · intro heldOver lost locked hres
    refine ⟨fun hw hp => ?_, fun hw hp hh ht => ?_, fun hw => ?_, fun hw => ?_, fun hw => ?_, fun hw hl => ?_, fun hw he hl hh => ?_,
      fun ht => ?_⟩
    · change execDclkLoss s = _
      exact if_neg (by simp [hres, hw, hp])
    · change execDclkAbsentTimeout s = _
      exact if_neg (by simp [hres, hw, hp, hh, ht])
    · change execDraughtSourceReturn east s = _
      rw [execDraughtSourceReturn, if_neg (by simp [hres])]
      exact if_pos (show (!s.isWorker) = true by simp [hw])
    · change execDraughtSourceReturn true s = _
      rw [execDraughtSourceReturn, if_neg (by simp [hres])]
      exact (if_neg (show ¬ (!s.isWorker) = true by simp [hw])).trans (if_pos rfl)
    · change execDraughtSourceReturn false s = _
      rw [execDraughtSourceReturn, if_neg (by simp [hres])]
      exact (if_neg (show ¬ (!s.isWorker) = true by simp [hw])).trans (if_neg nofun)
    · change execRecoveredClockLoss east s = _
      rw [execRecoveredClockLoss, if_neg (by simp [hres, hw])]
      have hone : ¬ ((lost s.ring).east.clockLost && (lost s.ring).west.clockLost) = true := by
        rcases hl with h | h <;> rw [h] <;> simp
      cases east <;> exact if_neg hone
    · change execRecoveredClockLoss east s = _
      rw [execRecoveredClockLoss, if_neg (by simp [hres, hw])]
      have hboth : ((lost s.ring).east.clockLost && (lost s.ring).west.clockLost) = true := by rw [he, hl]; rfl
      exact (if_pos hboth).trans (congrArg Host.Outcome.next (if_neg (ne_true_of_eq_false hh)))
    · refine ⟨_, show execOscillatorTrim s = _ from if_neg (by simp [hres, ht]), rfl, fun i hi => ?_, rfl⟩
      exact tget_trimIslands hi

end Sys2Proof.Machine
end

section
/-! The overvoltage switch of a pin and the CMX region. -/

namespace Sys2Proof.Machine

/-- Settles O24: every event takes the branch that its hypotheses name. -/
theorem pinEvents : Obligations.PinEvents := by
  intro s p sub high hthere
  dsimp only
  refine ⟨fun hup hin => ?_, fun hin => ?_, fun hcmx hsw => ⟨fun h hh => ?_, fun hh => ?_⟩, ?_⟩
  · change execOvpOpen ⟨p, sub⟩ high s = _
    rw [execOvpOpen, if_neg (by simp [hthere]), if_neg (by simp [hup, hin])]
  · change execOvpClose ⟨p, sub⟩ s = _
    rw [execOvpClose, if_neg (by simp [hthere]), if_neg (by simp [hin])]
  · change execCmxEntry p true s = _
    rw [execCmxEntry, if_neg (by simp [hthere]), if_neg nofun, if_neg (by simp [hcmx, hsw])]
    dsimp only
    rw [hh]
  · change execCmxEntry p true s = _
    rw [execCmxEntry, if_neg (by simp [hthere]), if_neg nofun, if_neg (by simp [hcmx, hsw])]
    dsimp only
    rw [hh]
  · change execCmxEntry p false s = _
    rw [execCmxEntry, if_neg (by simp [hthere])]
    exact if_pos rfl

end Sys2Proof.Machine
end

section
/-! Calibration at power-up and in service. -/

namespace Sys2Proof.Machine

theorem runPass_valid (s : State) (c seed : Nat) (p : CalPass) :
    (s.runPass c seed p).1.valid = decide ((s.runPass c seed p).1.cause = 0) := rfl

/-- A new seed is never the last one. -/
theorem newSeed_ne (s : State) (c : Nat) : (s.newSeed c).1 ≠ (s.calCore c).lastSeed := by
  simp only [State.newSeed]
  split <;> omega

/-- The cause of an attempt of two passes, from what holds of them: zero where it is sound (R250). -/
def attemptCause (v1 v2 agreed anchored inRange : Bool) (c1 c2 : Nat) : Nat :=
  if !v1 then c1 else if !v2 then c2 else if !agreed then cDISAGREE else if !anchored then cANCHOR else if !inRange then cTRIM else 0

theorem attemptCause_unsound {v1 v2 agreed anchored inRange : Bool} (c1 c2 : Nat) (h : ¬ (v1 ∧ v2 ∧ agreed ∧ anchored ∧ inRange)) :
    attemptCause v1 v2 agreed anchored inRange c1 c2 =
      if v1 = false then c1 else if v2 = false then c2 else if agreed = false then 1 else if anchored = false then 2 else 4 := by
  have hrange : v1 = true → v2 = true → agreed = true → anchored = true → inRange = false := by
    intro h1 h2 h3 h4
    simpa [h1, h2, h3, h4] using h
  unfold attemptCause
  cases v1
  · rfl
  cases v2
  · rfl
  cases agreed
  · rfl
  cases anchored
  · rfl
  · rw [hrange rfl rfl rfl rfl]
    rfl

theorem attemptCause_pos {v1 v2 agreed anchored inRange : Bool} {c1 c2 : Nat} (h : ¬ (v1 ∧ v2 ∧ agreed ∧ anchored ∧ inRange))
    (h1 : v1 = true ∨ c1 ≠ 0) (h2 : v2 = true ∨ c2 ≠ 0) : attemptCause v1 v2 agreed anchored inRange c1 c2 ≠ 0 := by
  rw [attemptCause_unsound c1 c2 h]
  repeat' split
  all_goals simp_all

/-- After an attempt that was not sound: the next one, or after the fourth the failure of the calibration (R250). -/
def State.retried (v : State) (c : Nat) (x : CalRun) (cause : Nat) : State :=
  let w := v.modCal c (fun k => { k with retryCnt := k.retryCnt.bump 16, cause := cause })
  if 4 ≤ x.attempt then (w.calFail c x cause).checkReady else w.nextPass c { x with attempt := x.attempt + 1, passes := [] }

/-- Settles O25: every event takes the branch that its hypotheses name. -/
theorem calibrationPasses : Obligations.CalibrationPasses := by
  refine ⟨fun s die c temp offset gain weights pga found => ?_, fun s c p x hrun hcoarse ht hshape => ?_⟩
  · intro settled k t
    refine ⟨fun t0 hd hk ht hkin htri hf => ?_, fun x hrun hcoarse => ?_, fun hd hres hf ht => ?_⟩
    · change execTriadSettled die s = _
      have hk' : (tget {} s.node.kindle die).start = some t0 := hk
      rw [execTriadSettled, if_neg (Nat.not_le.mpr hd)]
      simp only [hk']
      refine (if_neg ?_).trans ?_
      · have hkin' : (tget {} s.node.kindle die).kindled = true := hkin
        have htri' : (tget {} s.node.kindle die).triadSettled = false := htri
        simp [ht, hkin', htri', hf]
      · exact (apply_ite Host.Outcome.next _ _ _).symm
    · change execCoarseSearchDone c offset gain weights pga found s = _
      simp only [execCoarseSearchDone, hrun]
      exact if_neg (by simp [hcoarse])
    · intro a follow roll
      change execTempCompensation die temp s = _
      rw [execTempCompensation, if_neg (Nat.not_le.mpr hd), if_neg (by simp [hres, hf, ht])]
      have hroll : ∀ (u : State) (n : Nat), roll u n = (
          let g := (u.group (groupOfTile n)).sched
          let k := u.calCore n
          if g.tempStep ≠ 0 && g.rollPeriod ≠ 0 && k.lastCal ≠ 0 && decide (50 * g.tempStep < (temp - k.calTemp).natAbs)
              && !g.demands.contains (.rolling, n) && k.run.isNone && !u.substitutes (groupOfTile n) then
            u.modSched (groupOfTile n) (fun x => { x with demands := x.demands ++ [(.rolling, n)] })
          else u) := by
        intro u n
        simp only [roll, Bool.and_eq_true, decide_eq_true_eq, Bool.not_eq_true', List.contains_eq_mem, decide_eq_false_iff_not,
          Option.isNone_iff_eq_none, and_assoc]
      rw [show roll = _ from funext fun u => funext (hroll u)]
  · intro out u
    have hgo : ¬ (x.coarse || s.now < x.startedAt + 12000000 || !passShaped p) = true := by simp [hcoarse, ht, hshape]
    refine ⟨fun hp => ?_, fun p1 hp => ?_, fun y => ⟨rfl, newSeed_ne s c⟩⟩
    · change execCalPassDone c p s = _
      simp only [execCalPassDone, hrun]
      refine (if_neg hgo).trans ?_
      rw [hp]
      rfl
    · intro p2 a t v sound
      have hv2 : p2.valid = true ∨ p2.cause ≠ 0 := by
        rw [show p2.valid = decide (p2.cause = 0) from rfl, decide_eq_true_eq]
        exact em _
      refine ⟨fun hs => ?_, fun hs hv1 => ?_⟩
      · change execCalPassDone c p s = _
        simp only [execCalPassDone, hrun]
        refine (if_neg hgo).trans ?_
        rw [hp]
        obtain ⟨h1, h2, h3, h4, h5⟩ := hs
        have hcause : attemptCause p1.valid p2.valid (agree (c < 1024) p1 p2) (v.withinAnchors c a (v.calCore c).trims) t.inRange
            p1.cause p2.cause = 0 := by rw [h1, h2, h3, h4, h5]; rfl
        exact if_pos hcause
      · intro cause w
        change execCalPassDone c p s = _
        simp only [execCalPassDone, hrun]
        refine (if_neg hgo).trans ?_
        rw [hp]
        have hcause := attemptCause_unsound p1.cause p2.cause hs
        have hpos := attemptCause_pos hs hv1 hv2
        exact (if_neg hpos).trans
          ((apply_ite Host.Outcome.next _ _ _).symm.trans (congrArg (fun k => Host.Outcome.next (v.retried c x k)) hcause))

end Sys2Proof.Machine
end

section
/-! The handover of a tile to its reserve core and back, the rolling step, and the burn of a row. -/

namespace Sys2Proof.Machine

theorem substitutes_iff {s : State} {g : Nat} :
    s.substitutes g = true ↔ ∃ m, (s.group g).sched.use = .substituting m := by
  rw [State.substitutes]
  cases (s.group g).sched.use <;> simp

/-- Settles O26: every event takes the branch that its hypotheses name. -/
theorem reserveCores : Obligations.ReserveCores := by
  refine ⟨fun s g n => ?_, fun s g n die => ?_⟩
  · intro k freed hg huse
    have hthere : ¬ s.nGroups ≤ g := Nat.not_le.mpr hg
    refine ⟨fun hall hm => ?_, fun hall hm => ?_, fun hk ht => ?_⟩
    · intro a b
      change execTrackingDone g s = _
      rw [execTrackingDone, if_neg hthere]
      simp only [huse]
      exact (if_neg (by simp [hall])).trans ((if_pos hm).trans (apply_ite Host.Outcome.next _ _ _).symm)
    · intro a
      change execTrackingDone g s = _
      rw [execTrackingDone, if_neg hthere]
      simp only [huse]
      exact (if_neg (by simp [hall])).trans (if_neg (by simp [hm]))
    · change execHandoverTimeout g s = _
      rw [execHandoverTimeout, if_neg hthere]
      simp only [huse]
      exact if_neg (by simpa [ht] using hk)
  · intro x freed ends p due step c rolls timed passed hg
    have hthere : ¬ s.nGroups ≤ g := Nat.not_le.mpr hg
    have hpassed : s.rollPasses g c = true ↔ passed := by
      simp only [State.rollPasses, Bool.or_eq_true, Bool.and_eq_true, Bool.not_eq_true', decide_eq_true_eq, List.contains_iff_mem,
        substitutes_iff, or_assoc]
      simp only [passed, x, Bool.or_eq_true, or_assoc]
    have hguard (hres : s.node.inReset = false) (hp : p ≠ 0) (hdue : due ≤ s.now) (hcore : s.coreDown (1024 + g) = false) :
        ¬ (s.node.inReset || decide (s.rollPeriod g = 0) || decide (s.now < s.rollDue g) || s.coreDown (1024 + g)) = true := by
      have hp' : s.rollPeriod g ≠ 0 := hp
      have hdue' : s.rollDue g ≤ s.now := hdue
      simp [hres, hcore, hp', hdue']
    refine ⟨fun huse hall => ⟨fun hm => ?_, fun hm hf => ?_, fun hm hf => ?_⟩, fun hres => ?_, fun ⟨hres, hp, hdue, hcore⟩ hpass => ?_,
      fun ⟨hres, hp, hdue, hcore⟩ hpass => ?_, fun row img hd hb => ?_⟩
    · change execHandBackDone g s = _
      rw [execHandBackDone, if_neg hthere]
      have huse' : (s.group g).sched.use = .handingBack n := huse
      simp only [huse']
      exact (if_neg (by simp [hall])).trans (if_pos hm)
    · change execHandBackDone g s = _
      rw [execHandBackDone, if_neg hthere]
      have huse' : (s.group g).sched.use = .handingBack n := huse
      simp only [huse', hf]
      exact (if_neg (by simp [hall])).trans ((if_neg (by simp [hm])).trans (if_neg (by omega)))
    · intro u
      change execHandBackDone g s = _
      rw [execHandBackDone, if_neg hthere]
      have huse' : (s.group g).sched.use = .handingBack n := huse
      simp only [huse']
      exact (if_neg (by simp [hall])).trans ((if_neg (by simp [hm])).trans (if_pos (by omega)))
    · change execFaultSubstitution g s = _
      rw [execFaultSubstitution, if_neg hthere, if_neg (by simp [hres])]
    · change execRollingStep g s = _
      rw [execRollingStep, if_neg hthere]
      exact (if_neg (hguard hres hp hdue hcore)).trans (if_pos (hpassed.mpr hpass))
    · change execRollingStep g s = _
      rw [execRollingStep, if_neg hthere]
      exact (if_neg (hguard hres hp hdue hcore)).trans (if_neg fun h => hpass (hpassed.mp h))
    · intro burnt taken asked
      have hdie : ¬ s.node.dies ≤ die := Nat.not_le.mpr hd
      constructor
      · change execRowBurnDone die true s = _
        rw [execRowBurnDone, if_neg hdie]
        simp only [hb]
        rfl
      · change execRowBurnDone die false s = _
        rw [execRowBurnDone, if_neg hdie]
        simp only [hb]
        rfl

end Sys2Proof.Machine
end

section
/-! Conversions, the sequencer's runs, triggers and commits. -/

namespace Sys2Proof.Machine

/-- Settles O27: the conversion at the edge of the sequencer's next word takes the branch that its tile's state names. -/
theorem conversions : Obligations.Conversions := by
  intro s n e bad r q forced t slot d x due hn hreset
  have hthere : ¬ s.nTiles ≤ n := Nat.not_le.mpr hn
  refine ⟨fun hmeas hsilent => ⟨fun hat => ?_, fun hat => ?_⟩, fun hphase ⟨hconv, hnext, hedge, hcommit, hsync⟩ => ?_⟩
  · change execConversion n r q forced bad s = _
    rw [execConversion, if_neg hthere]
    exact (if_neg (by simp [hreset])).trans ((if_pos (by simp [hsilent, show (s.tile n).force.phase = .measuring from hmeas])).trans
      (congrArg Host.Outcome.next (if_pos hat)))
  · change execConversion n r q forced bad s = _
    rw [execConversion, if_neg hthere]
    exact (if_neg (by simp [hreset])).trans ((if_pos (by simp [hsilent, show (s.tile n).force.phase = .measuring from hmeas])).trans
      (congrArg Host.Outcome.next (if_neg (Nat.not_le.mpr hat))))
  · have hstart : exec (.conversion n r q forced bad) s =
        if s.silent n then .next (s.missConversion n slot d e (s.edgeTime e))
        else if s.holds n d then
          .next ((((s.convertedFor n 0 forced).modTile n (fun y => { y with
            core := { y.core with slots := tmod {} t.core.slots slot (fun x => { x with lost := false, outOvr := false }) },
            cal := { y.cal with staleCnt := if y.cal.stale then y.cal.staleCnt.add 26 1 else y.cal.staleCnt } })).rawOut n slot d
              (rawWord x.lastCode (fSTL + fGAP * b2n x.lost)) e (s.edgeTime e) bad).seqAdvance n e)
        else .next ((s.convert n slot d e (s.edgeTime e) (s.edgeClock e) r q forced bad).seqAdvance n e) := by
      change execConversion n r q forced bad s = _
      rw [execConversion, if_neg hthere]
      have hnext' : (s.tile n).seq.next = some e := hnext
      have hwait : ¬ ((decide ((s.tile n).force.phase = .measuring) && !s.silent n) = true) := by
        rcases hphase with h | h
        · simp [show (s.tile n).force.phase ≠ .measuring from h]
        · simp [h]
      refine (if_neg (by simp [hreset])).trans ((if_neg hwait).trans ?_)
      simp only [hnext']
      refine (if_neg ?_).trans rfl
      have hconv' : (s.tile n).converting = true := hconv
      simp only [Bool.or_eq_true, not_or, Bool.not_eq_true]
      refine ⟨⟨⟨by simp [hconv'], by simpa using hedge⟩, ?_⟩, ?_⟩
      · cases hc : s.commitEdge n with
        | none => rfl
        | some c => simpa using hcommit c hc
      · cases hp : s.sync.pending with
        | none => rfl
        | some p => simpa using hsync p hp
    refine ⟨fun hsilent => ?_, fun hsilent hholds => ?_, fun hsilent hholds => ?_⟩
    · rw [hstart, if_pos hsilent]
    · rw [hstart, if_neg (ne_true_of_eq_false hsilent), if_pos hholds]
    · rw [hstart, if_neg (ne_true_of_eq_false hsilent), if_neg (ne_true_of_eq_false hholds)]

/-- Settles O28: each event of the sequencer takes the branch that its hypotheses name. -/
theorem sequencerEvents : Obligations.SequencerEvents := by
  intro s n e t waits
  refine ⟨fun c hn hcommit hat hdue => ?_, fun m rest htrig => ?_, fun hn hwaits hmode harmed hdue => ?_,
    fun hn hwaits hmode htrig hdue => ?_, fun hn hended => ?_⟩
  · change execSeqCommitEffective n s = _
    rw [execSeqCommitEffective, if_neg (Nat.not_le.mpr hn)]
    have hcommit' : (s.tile n).seq.commit = some c := hcommit
    simp only [hcommit', hat]
    exact if_pos hdue
  · intro u y f x
    have harrive : exec .triggerArrival s = .next (
        if decide (y.seq.mode ≠ .triggered) || decide (y.seq.trigSrc ≠ m.src) then u
        else if y.deaf then u.modSeq m.tile (fun q => { q with trigMiss := q.trigMiss.bump 16 })
        else u.modSeq m.tile (fun q => { q with
          trigger := some f.1, trigAt := x.at_, trigTimed := x.timed, trigCnt := q.trigCnt.bump 32,
          lateTrig := if f.2 then q.lateTrig.bump 16 else q.lateTrig })) := by
      change execTriggerArrival s = _
      rw [execTriggerArrival, htrig]
      rfl
    rw [harrive]
    refine ⟨fun h => ?_, fun hmode hsrc hdeaf => ?_, fun hmode hsrc hdeaf => ?_⟩
    · rw [if_pos (by simpa using h)]
    · rw [if_neg (by simp [hmode, hsrc]), if_pos hdeaf]
    · rw [if_neg (by simp [hmode, hsrc]), if_neg (ne_true_of_eq_false hdeaf)]
  · obtain ⟨hconv, hnext, hended⟩ := hwaits
    change execRunStart n s = _
    rw [execRunStart]
    have hmode' : (s.tile n).seq.mode = .burst := hmode
    simp only [hmode']
    exact (if_neg (Nat.not_le.mpr hn)).trans ((if_neg (by
      simp [show (s.tile n).converting = true from hconv, show (s.tile n).seq.next = none from hnext,
        show (s.tile n).seq.ended = false from hended])).trans
      (if_pos (by simpa [show (s.tile n).seq.armed = true from harmed] using hdue)))
  · obtain ⟨hconv, hnext, hended⟩ := hwaits
    change execRunStart n s = _
    rw [execRunStart]
    have hmode' : (s.tile n).seq.mode = .triggered := hmode
    have htrig' : (s.tile n).seq.trigger = some e := htrig
    simp only [hmode', htrig']
    exact (if_neg (Nat.not_le.mpr hn)).trans ((if_neg (by
      simp [show (s.tile n).converting = true from hconv, show (s.tile n).seq.next = none from hnext,
        show (s.tile n).seq.ended = false from hended])).trans (if_pos hdue))
  · change execRunEnd n s = _
    rw [execRunEnd, if_neg (Nat.not_le.mpr hn), if_neg (by simpa using hended)]

end Sys2Proof.Machine
end

section
/-! The lanes of the filters, the swaps of their banks, the flush intervals, and SYNC. -/

namespace Sys2Proof.Machine

theorem swapped_eq (ch : Chain) (time : Nat) : ch.swapped time = ch.swap.any (fun t => t ≤ time) := by
  rw [Chain.swapped]
  cases ch.swap <;> rfl

@[simp] theorem sync_sendTriggers (s : State) (src at64 : Nat) (p : Nat → Seq → Bool) :
    (s.sendTriggers src at64 p).sync = s.sync := rfl

@[simp] theorem isWorker_sendTriggers (s : State) (src at64 : Nat) (p : Nat → Seq → Bool) :
    (s.sendTriggers src at64 p).isWorker = s.isWorker := rfl

/-- A pin edge whose draught edge no 0.5 ns around it leaves open takes no free value. -/
theorem syncPinEdge_next {sub : Nat} {s : State} (hreset : s.node.inReset = false) (hlocked : s.node.everLocked = true)
    (hbefore : s.edgeAtOrAfter (s.node.clock + sub % 3125 + 1888) = s.edgeAtOrAfter (s.node.clock + sub % 3125 + 1920))
    (hafter : s.edgeAtOrAfter (s.node.clock + sub % 3125 + 1952) = s.edgeAtOrAfter (s.node.clock + sub % 3125 + 1920)) :
    let e := s.edgeAtOrAfter (s.node.clock + sub % 3125 + 1920)
    let u := s.sendTriggers 1 (s.edgeClock e - 1920) (fun _ _ => true)
    let ring := u.sync.scope && u.isManager
    let lead := if ring then u.sync.lead * 1000 else 0
    exec (.syncPinEdge sub) s = if u.sync.pending.isSome then .next u.syncMissed
      else if u.isWorker || !u.sync.armed then .next u
      else .next ({ u with sync := { u.sync with armed := u.sync.armed && !u.sync.oneShot } }.schedule e
        (u.edgeAtOrAfter (u.edgeClock e + lead * 64)) (u.edgeTime e + lead) ring none) := by
  intro e u ring lead
  change execSyncPinEdge sub s = _
  rw [execSyncPinEdge, if_neg (ne_true_of_eq_false hreset), if_neg (by simp [hlocked])]
  have hopen : ¬ (decide (s.edgeAtOrAfter (s.node.clock + sub % 3125 + 1920 - 32) ≠ e)
      || decide (s.edgeAtOrAfter (s.node.clock + sub % 3125 + 1920 + 32) ≠ e)) = true := by
    simpa [e] using ⟨hbefore, hafter⟩
  have hfree : (if (decide (s.edgeAtOrAfter (s.node.clock + sub % 3125 + 1920 - 32) ≠ e)
      || decide (s.edgeAtOrAfter (s.node.clock + sub % 3125 + 1920 + 32) ≠ e)) then s.free else (0, s)) = (0, s) := if_neg hopen
  dsimp only
  rw [hfree, if_neg hopen]
  rfl

/-- Settles O29. -/
theorem filterEvents : Obligations.FilterEvents := by
  refine ⟨fun s n c die i q bad => ?_, fun s sub mask fseq ref act => ?_⟩
  · intro ch
    refine ⟨fun j hdie hj hfence hreset => ?_, fun t hn hswap ht hgo => ?_, fun t hn hswap hgo hjobs => ?_, fun hflush => ?_⟩
    · intro key hfirst x bank y u
      change execEngineJob ⟨die, i, bad⟩ s = _
      rw [execEngineJob, if_neg (Nat.not_le.mpr hdie)]
      simp only [hj, swapped_eq]
      exact (if_neg (by simpa using hfirst)).trans (if_neg (by simp [hfence, hreset]))
    · change execSwapInstant n c s = _
      rw [execSwapInstant]
      have hswap' : ((s.tile n).chain c).swap = some t := hswap
      have hgo' : ((s.tile n).chain c).swapGo = false := hgo
      simp only [hswap']
      exact (if_neg (Nat.not_le.mpr hn)).trans (if_pos (by simp [ht, hgo']))
    · change execSwapComplete n c s = _
      rw [execSwapComplete]
      have hswap' : ((s.tile n).chain c).swap = some t := hswap
      have hgo' : ((s.tile n).chain c).swapGo = true := hgo
      simp only [hswap']
      have hnone : s.jobs.any (fun j => decide (j.tile = n) && decide (j.chain = c) && decide (j.time < t)) = false := by
        simpa [and_imp] using hjobs
      exact (if_neg (Nat.not_le.mpr hn)).trans (if_pos (by simp [hnone, hgo']))
    · intro due
      change execFlushExpiry q s = _
      rw [execFlushExpiry]
      dsimp only
      rw [if_neg (by omega)]
      simp only [due, Bool.and_eq_true, decide_eq_true_eq, and_assoc]
  · refine ⟨fun p hp hact hreset => ?_, fun t fn nodes rest hdones ht => ?_, fun hreset hlocked => ?_, fun hreset hlocked => ?_,
      fun hreset halone hfirst => ?_⟩
    · intro hits a b nodes
      change execSyncAct s = _
      rw [execSyncAct, hp]
      exact if_pos (by simp [hact, hreset])
    · change execSyncDone mask s = _
      rw [execSyncDone, hdones]
      cases fn <;> exact if_neg (Nat.not_lt.mpr ht)
    · change execSyncPinEdge sub s = _
      rw [execSyncPinEdge, if_neg (ne_true_of_eq_false hreset), if_pos (by simp [hlocked])]
      rfl
    · intro at64 e hbefore hafter u
      rw [syncPinEdge_next hreset hlocked hbefore hafter]
      refine ⟨fun hp => ?_, fun hw hp => ?_, fun hw hp ha => ?_, fun hw hp ha => ?_⟩
      · exact if_pos hp
      · exact (if_neg (by simp [hp])).trans (if_pos (by simp [hw]))
      · exact (if_neg (by simp [hp])).trans (if_pos (by simp [ha]))
      · exact (if_neg (by simp [hp])).trans ((if_neg (by simp [hw, ha])).trans (by simp only [sync_sendTriggers, ha, Bool.true_and]; rfl))
    · intro u
      have hgoes : ¬ (s.node.inReset || s.isAlone || !s.firstCopy 0 1 fseq) = true := by simp [hreset, halone, hfirst]
      refine ⟨fun h => ?_, fun ht hp => ?_⟩
      · change execRxSync fseq ref act s = _
        rw [execRxSync, if_neg hgoes]
        exact if_pos (by simpa using h)
      · change execRxSync fseq ref act s = _
        rw [execRxSync, if_neg hgoes]
        exact if_neg (by simpa [show (s.noteCopy 0 1 fseq).sync.pending = none from hp] using ht)

end Sys2Proof.Machine
end

section
/-! The short sequence of a force output, the steps of its path, the queue of a die, and the loopback test. -/

namespace Sys2Proof.Machine

/-- A row of the short sequence acts where its condition holds. -/
theorem forceRow_next {n : Nat} {s : State} {ok : Force → Bool} {f : State → State} (hn : n < s.nTiles)
    (h : ok (s.tile n).force = true) : forceRow n s ok f = .next (f s) := by
  rw [forceRow, if_neg (Nat.not_le.mpr hn), if_neg (by simp [h])]

theorem modForce_const (s : State) (n : Nat) (f : Force → Force) : s.modForce n f = s.modForce n (fun _ => f (s.tile n).force) := rfl

theorem step_limit {f : Force} {k : Int} (h : f.phase = .limit) : f.step k = { f with v := 0 } := by rw [Force.step, if_pos h]

theorem step_held {f : Force} {k : Int} (hp : f.phase = .normal) (hh : f.hold = true) (h1 : f.held = 1) (hr : f.ramp = false) :
    f.step k = if f.slew then { f with v := towardZero f.v ((f.acc : Int) * 3125 * k), pos := f.pos + towardZero f.v ((f.acc : Int) * 3125 * k) * 25000 * k }
      else f := by
  rw [Force.step, if_neg (by simp [hp]), if_pos (by simp [hh, h1, hr])]

theorem step_free {f : Force} {k : Int} (hp : f.phase = .normal) (h : f.hold = false ∨ f.held ≠ 1 ∨ f.ramp = true) :
    f.step k = if f.slew then
        { f with pos := (slewUpdate f.vmax f.acc k f.goal f.pos f.v).1, v := (slewUpdate f.vmax f.acc k f.goal f.pos f.v).2 }
      else { f with pos := f.goal, v := 0 } := by
  rw [Force.step, if_neg (by simp [hp]), if_neg (by
    rcases h with h | h | h <;> simp [h])]

/-- An update of the generator, where nothing holds it back, is one step of the force path. -/
theorem forceUpdate_next {s : State} {n : Nat} (hn : n < s.nTiles)
    (hmode : (s.tile n).force.mode = .force ∨ (s.tile n).force.mode = .forceSense ∧ s.edge % 2 = 0)
    (hphase : (s.tile n).force.phase ≠ .measuring) (hedge : (s.tile n).force.updEdge ≠ s.edge + 1) :
    let g := { (s.tile n).force.take s.node.clock with updEdge := s.edge + 1 }
    exec (.forceUpdate n) s = .next (s.modForce n (fun _ =>
      if !(decide (g.phase = .normal) || decide (g.phase = .limit)) || g.closedAt.isSome then g
      else g.step (if (s.tile n).force.mode = .forceSense then 2 else 1))) := by
  intro g
  change execForceUpdate n s = _
  rw [execForceUpdate]
  refine (if_neg (Nat.not_le.mpr hn)).trans ((if_neg ?_).trans rfl)
  rcases hmode with h | ⟨h, he⟩ <;> simp [TileMode.forcing, *]

/-- Settles O30: the rows of the short sequence by their conditions; a step of the path by the phase and the hold of its output. -/
theorem forceEvents : Obligations.ForceEvents := by
  refine ⟨fun s n i => ?_, fun s n w => ?_, fun s die n forced rest sum => ?_⟩
  · intro f hn
    refine ⟨fun hmode hphase => ?_, fun hphase => ?_, fun hphase ht => ?_, fun hmode hphase hrest => ?_, fun hphase ht => ?_,
      fun hphase ht => ?_, fun t hclosed ht hdrive => ?_, fun t hclean ht hdrive => ?_⟩
    · change execLimitEpisodeStart n s = _
      exact forceRow_next hn (by simpa using ⟨hmode, hphase⟩)
    · change execLimitEpisodeEnd n s = _
      exact forceRow_next hn (by simpa using hphase)
    · change execFoldBack n s = _
      exact forceRow_next hn (by simpa using ⟨hphase, ht⟩)
    · change execContention n i s = _
      exact forceRow_next hn (by simpa [and_assoc] using ⟨hmode, hphase, hrest⟩)
    · intro a g b c k d
      have hrow : exec (.hizStep n) s = .next (if g.retry < 8 then b.rampCut n
          else ((d.logEv 0x0605 (d.tileOwner n) n k).report 0x07 n 0).rampCut n) := by
        change execHizStep n s = _
        exact forceRow_next hn (by simpa using ⟨hphase, ht⟩)
      exact ⟨fun h => by rw [hrow, if_pos h], fun h => by rw [hrow, if_neg (Nat.not_lt.mpr h)]⟩
    · change execForceRetry n s = _
      exact forceRow_next hn (by simpa using ⟨hphase, ht⟩)
    · intro a
      change execRetryOk n s = _
      refine forceRow_next hn ?_
      have hclosed' : (s.tile n).force.closedAt = some t := hclosed
      simpa [hclosed'] using ⟨ht, hdrive⟩
    · change execRetryCountReset n s = _
      refine forceRow_next hn ?_
      have hclean' : (s.tile n).force.cleanSince = some t := hclean
      simpa [hclean'] using ⟨ht, hdrive⟩
  · intro f k got a goal steps hn
    refine ⟨fun hmode hphase hedge => ?_, fun hmode hslew hphase hclosed => ?_, fun h => ?_, fun hramp hpos hv => ?_⟩
    · have hstep := forceUpdate_next hn hmode hphase hedge
      have hsteps : ∀ g, (if !(decide (a.phase = .normal) || decide (a.phase = .limit)) || a.closedAt.isSome then a else a.step k) = g → steps g :=
        fun g hg => hg ▸ hstep
      have hgoal : a.goal = goal := rfl
      refine ⟨fun h => hsteps _ ?_, fun hc hp => hsteps _ ?_, fun hc hp hfree hs => hsteps _ ?_, fun hc hp hfree hs => hsteps _ ?_,
        fun hc hp hh h1 hr hs => hsteps _ ?_, fun hc hp hh h1 hr hs => hsteps _ ?_⟩
      · exact if_pos (by rcases h with h | ⟨h, h'⟩ <;> simp [a, *])
      · exact (if_neg (by simp [a, hc, hp])).trans (step_limit (f := a) hp)
      · exact (if_neg (by simp [a, hc, hp])).trans ((step_free (f := a) hp hfree).trans (if_pos hs))
      · exact (if_neg (by simp [a, hc, hp])).trans ((step_free (f := a) hp hfree).trans (if_neg (ne_true_of_eq_false hs)))
      · exact (if_neg (by simp [a, hc, hp])).trans ((step_held (f := a) hp hh h1 hr).trans (if_pos hs))
      · exact (if_neg (by simp [a, hc, hp])).trans ((step_held (f := a) hp hh h1 hr).trans (if_neg (ne_true_of_eq_false hs)))
    · exact if_pos (by simp [hmode, hslew, hphase, hclosed])
    · refine if_neg ?_
      simpa [or_assoc, imp_iff_not_or, Option.isSome_iff_ne_none] using h
    · change execRampDownDone n s = _
      rw [execRampDownDone]
      exact (if_neg (Nat.not_le.mpr hn)).trans (if_neg (by simpa [and_assoc] using ⟨hramp, hpos, hv⟩))
  · intro k u
    refine ⟨fun hdie hq hlast hva5 => ?_, fun b o hb ho => ?_, fun b o errs aborted hb ho => ?_⟩
    · have hslot : exec (.kindleQueueSlot die) s = match u.findOp 0x0207 n with
          | some o => .next { u with due := u.due ++ [EdgeAct.mode n (modeOf (o.req.u 18 0 2)) false] }
          | none => .next (u.resumeTile n) := by
        change execKindleQueueSlot die s = _
        rw [execKindleQueueSlot, if_neg (Nat.not_le.mpr hdie)]
        have hq' : (tget {} s.node.kindle die).queue = n :: rest := hq
        simp only [hq']
        refine (if_neg ?_).trans rfl
        have hlast' : ∀ t, (tget {} s.node.kindle die).lastSlot = some t → t + 25000 ≤ s.now := hlast
        cases hl : (tget {} s.node.kindle die).lastSlot with
        | none => simp [hva5]
        | some t => simpa [hva5] using hlast' t hl
      exact ⟨fun o ho => by rw [hslot, ho], fun ho => by rw [hslot, ho]⟩
    · intro r hat v errs next
      have hlevel : exec (.loopbackLevelDone n ⟨sum, forced⟩) s = if errs.length = r.u 18 0 8 then .next (v.loopbackEnd n errs false)
          else .next { next with loopbacks := tset next.loopbacks n { b with errs := errs, levelAt := next.now } } := by
        change execLoopbackLevelDone n ⟨sum, forced⟩ s = _
        simp only [execLoopbackLevelDone, hb, ho]
        exact if_neg (Nat.not_lt.mpr hat)
      exact ⟨fun h => by rw [hlevel, if_pos h], fun h => by rw [hlevel, if_neg h]⟩
    · intro v
      have ho' : v.findOp 0x0605 n = some o := ho
      simp only [State.loopbackEnd, hb]
      change (match v.findOp 0x0605 n with | none => v | some o => _) = _
      rw [ho']

end Sys2Proof.Machine
end

section
/-! The words that reach a stove's ports, and the stove's runs. -/

namespace Sys2Proof.Machine

/-- The word that the fabric serves next, when it is for the port, is taken off the fabric. -/
theorem portWordArrival_served {s : State} {sv p : Nat} {w : FabricWord} {bad : Bool} (hsv : sv < s.nStoves)
    (hnext : s.fabricNext (sv / 4) = some w) (hstove : w.stove = sv) (hport : w.port = p) :
    let x : InPort := tget {} (s.stove sv).ports p
    let u := { s with fabric := s.fabric.erase w, fabricTurn := tset s.fabricTurn (sv / 4) (keyTile w.src + 1) }
    exec (.portWordArrival sv p bad) s =
      if s.stoveFenced sv || decide (x.bound ≠ some w.src) then .next (u.portMiss w)
      else if bad then .next ((u.portMiss w).report 0x05 (keyTile (x.bound.getD 0)) 0)
      else .next ((List.range 8).foldl (fun s i => s.portLaw sv p i w.time w.seq)
          (u.modStove sv (fun v => { v with ports := tset v.ports p { x with
            word := if x.gapDue then setFlag w.word fGAP else w.word, seq := w.seq, time := w.time, gapDue := false, got := true } }))) := by
  intro x u
  change execPortWordArrival sv p bad s = _
  rw [execPortWordArrival, if_neg (Nat.not_le.mpr hsv)]
  have hserved : (s.fabricNext (sv / 4)).filter (fun w => w.stove = sv && w.port = p) = some w := by
    rw [hnext, Option.filter_some, if_pos (by simp [hstove, hport])]
  rw [hserved]
  rfl

/-- Settles O31. -/
theorem stoveRuns : Obligations.StoveRuns := by
  refine ⟨fun s sv p i w => ?_, fun s sv i n x => ?_⟩
  · intro x u l hsv
    refine ⟨fun hnext hstove hport hlost bad => ?_, fun hnext hstove hport hfence hbound => ⟨?_, ?_⟩, fun t hfirst ht => ?_⟩
    · exact (portWordArrival_served hsv hnext hstove hport).trans (if_pos (by simpa [x] using hlost))
    · exact (portWordArrival_served hsv hnext hstove hport).trans ((if_neg (by simpa [hfence, x] using hbound)).trans (if_pos rfl))
    · exact (portWordArrival_served hsv hnext hstove hport).trans ((if_neg (by simpa [hfence, x] using hbound)).trans (if_neg nofun))
    · change execAlignWaitTimeout sv i s = _
      rw [execAlignWaitTimeout, if_neg (Nat.not_le.mpr hsv)]
      have hfirst' : ((s.stove sv).law i).alignFirst = some t := hfirst
      simp only [hfirst']
      exact if_pos ht
  · intro v u w hsv
    have hthere : ¬ s.nStoves ≤ sv := Nat.not_le.mpr hsv
    refine ⟨fun hidle hfence hrun hfind => ?_, fun hrun hcyc => ?_, fun k off hrun hstall hwin hbank => ?_, fun hrun => ?_⟩
    · intro l
      change execLawRunStart sv s = _
      rw [execLawRunStart, if_neg hthere]
      have hfind' : (List.range 8).find? (fun i => (((s.settle sv).stove sv).law i).pending && (((s.settle sv).stove sv).law i).enable) =
        some i := hfind
      simp only [hfind']
      exact if_neg (by simp [show (s.stove sv).state = .idle from hidle, show (s.stove sv).run = none from hrun, hfence])
    · change execTrapCycles sv n s = _
      rw [execTrapCycles, if_neg hthere]
      have hrun' : (s.stove sv).run = some x := hrun
      simp only [hrun']
      exact if_pos hcyc
    · change execCacheFillDone sv n s = _
      rw [execCacheFillDone, if_neg hthere]
      have hrun' : (s.stove sv).run = some x := hrun
      simp only [hrun', hwin]
      exact if_neg (by simp [hstall, hbank])
    · change execLoopCommandAct sv s = _
      rw [execLoopCommandAct, if_neg hthere, if_neg (by simp [show (s.stove sv).run = none from hrun])]

end Sys2Proof.Machine
end

section
/-! The operations of a bank of the program store, the metering pairs and their records. -/

namespace Sys2Proof.Machine

/-- Some byte of a page is not blank exactly when not all of them are. -/
theorem any_ne_blank_iff {f : Nat → Byte} : (List.range 256).any (fun i => decide (f i ≠ 0xFF)) = true ↔ ¬ ∀ i < 256, f i = 0xFF := by
  simp

theorem ring_foldl_modPair (l : List Nat) (f : Nat → Pair → Pair) (s : State) :
    (l.foldl (fun (s : State) n => s.modPair n (f n)) s).ring = s.ring := by
  induction l generalizing s with
  | nil => rfl
  | cons n l ih => exact ih (s.modPair n (f n))

/-- An instant of a configured pair whose edge has come. -/
theorem pairInstant_due {s : State} {n : Nat} (hn : n < s.nPairs) (hreset : s.node.inReset = false)
    (hfence : s.dieFenced (n / 8) = false) (hedge : s.pairNext (s.pair n) ≤ s.edge) (hconf : (s.pair n).state ≠ .unconfigured) :
    let e := s.pairNext (s.pair n)
    let u := (s.pairBegin n e).modPair n (fun x => { x with lastInstant := some e })
    let q := u.pair n
    let a := if q.win.open_ then u else u.openWindow n e (!u.pairBoundary q e)
    let b := a.modPair n (fun x =>
      let y : Pair := { x with win := { x.win with expected := x.win.expected + 1 } }
      if a.pairMatched y then { y.instantAt e with state := .running }
      else if a.tileOff y.vTile || a.tileOff y.iTile then
        { y with state := .mismatch, mismatches := y.mismatches.bump 32, missing := y.missing.bump 32, win := (y.win.skip wMISMATCH).flag wGAP }
      else { y with state := .mismatch, mismatches := y.mismatches.bump 32, win := y.win.skip wMISMATCH })
    exec (.pairInstant n) s = if q.state = .stopped then .next u
      else if q.frozen then .next (u.modPair n (fun x => { x with missing := x.missing.bump 32 }))
      else if b.pairBoundary q (e + 500) then .next (b.closeWindow n false) else .next b := by
  intro e u q a b
  change execPairInstant n s = _
  rw [execPairInstant, if_neg (Nat.not_le.mpr hn)]
  exact if_neg (by simp [hreset, hfence, hedge, hconf])

/-- Settles O32. -/
theorem storeAndMeterEvents : Obligations.StoreAndMeterEvents := by
  refine ⟨fun s k o rest => ?_, fun s n => ?_⟩
  · intro b blank clear hk hq
    have hthere : ¬ s.noBank k = true := by simpa [State.noBank] using hk
    have hq' : (s.bank k).queue = o :: rest := hq
    refine ⟨fun r hrun hkind hreq => ?_, fun hrun hkind hxip => ?_, fun hrun hkind hxip hblank => ?_, fun hrun hkind hxip hblank => ?_,
      fun t hheld hrun ht => ?_, fun hrun => ⟨?_, ?_⟩⟩
    · intro l
      change execPsOpStart k s = _
      rw [execPsOpStart, if_neg hthere]
      simp only [hq', hreq]
      exact (if_neg (ne_true_of_eq_false hrun)).trans (if_pos hkind)
    · change execPsOpStart k s = _
      rw [execPsOpStart, if_neg hthere]
      simp only [hq']
      exact (if_neg (ne_true_of_eq_false hrun)).trans ((if_neg hkind).trans (if_pos hxip))
    · change execPsOpStart k s = _
      rw [execPsOpStart, if_neg hthere]
      simp only [hq']
      exact (if_neg (ne_true_of_eq_false hrun)).trans ((if_neg (by omega)).trans ((if_neg (ne_true_of_eq_false hxip)).trans
        (if_pos (Bool.and_eq_true_iff.mpr ⟨by simpa using hkind, any_ne_blank_iff.mpr hblank⟩))))
    · change execPsOpStart k s = _
      rw [execPsOpStart, if_neg hthere]
      simp only [hq']
      refine (if_neg (ne_true_of_eq_false hrun)).trans ((if_neg hkind).trans ((if_neg (ne_true_of_eq_false hxip)).trans (if_neg ?_)))
      rw [Bool.and_eq_true, decide_eq_true_eq, any_ne_blank_iff]
      rintro ⟨h1, hfull⟩
      rcases hblank with h | h
      · exact h h1
      · exact hfull h
    · change execXipHoldTimeout k s = _
      rw [execXipHoldTimeout, if_neg hthere]
      have hheld' : (s.bank k).heldSince = some t := hheld
      simp only [hq', hheld']
      exact if_pos (by simpa [show (s.bank k).running = false from hrun] using ht)
    · change execPsOpDone k true s = _
      rw [execPsOpDone, if_neg hthere]
      simp only [hq']
      exact if_neg (by simpa using hrun)
    · change execPsOpDone k false s = _
      rw [execPsOpDone, if_neg hthere]
      simp only [hq']
      exact if_neg (by simpa using hrun)
  · intro p e up u q a b
    refine ⟨fun ⟨hn, hreset, hfence, hedge⟩ hmeter => ?_, fun ⟨hn, hreset, hfence, hedge⟩ hconf hstop hfrozen => ?_,
      fun ⟨hn, hreset, hfence, hedge⟩ hconf hstop hfrozen => ?_, ?_, fun m rest hw hreset hpf hturn => ?_, fun hreset hres hpf hkind => ?_, ?_⟩
    · change execPairStart n s = _
      rw [execPairStart, if_neg (Nat.not_le.mpr hn)]
      exact if_pos (by simpa [hmeter] using hedge)
    · rw [pairInstant_due hn hreset hfence hedge hconf]
      exact (if_neg hstop).trans (if_pos hfrozen)
    · rw [pairInstant_due hn hreset hfence hedge hconf]
      exact (if_neg hstop).trans ((if_neg (ne_true_of_eq_false hfrozen)).trans (apply_ite Host.Outcome.next _ _ _).symm)
    · intro k hreset hpf hrestored hk
      change execPeriodicRecord s = _
      rw [execPeriodicRecord]
      exact if_neg (by simp [hreset, hpf, hrestored, show s.now / 600000000000 ≠ s.meter.lastPeriod from hk])
    · intro t
      have hgo : ¬ (s.node.inReset || decide (s.node.pfStage ≠ .none) || !s.logs.turn 2) = true := by simp [hreset, hpf, hturn]
      constructor
      · change execMeterRecordDone true s = _
        rw [execMeterRecordDone]
        simp only [hw]
        exact (if_neg hgo).trans ((if_neg nofun).trans (apply_ite Host.Outcome.next _ _ _).symm)
      · change execMeterRecordDone false s = _
        rw [execMeterRecordDone]
        simp only [hw]
        exact (if_neg hgo).trans (if_pos rfl)
    · intro m best t
      have hgo : ¬ (s.node.inReset || s.node.meterRestored || decide (s.node.pfStage ≠ .none) || !(tget {} s.node.kindle 0).kindled) = true := by
        simp [hreset, hres, hpf, hkind]
      refine ⟨fun hbest => ?_, fun x hbest => ?_⟩
      · change execMeterRestoreDone s = _
        rw [execMeterRestoreDone, if_neg hgo]
        have hbest' : s.meter.best (meterPages s.node.dies) = none := hbest
        simp only [hbest']
        rfl
      · change execMeterRestoreDone s = _
        rw [execMeterRestoreDone, if_neg hgo]
        have hbest' : s.meter.best (meterPages s.node.dies) = some x := hbest
        simp only [hbest', Option.map_some, Option.getD_some]
        rw [ring_foldl_modPair _ (fun n p => { p with
          regs := x.regs.getD n [0, 0, 0, 0, 0, 0], unsavedLoss := p.unsavedLoss || decide (x.kind ≠ RecordKind.powerFail) || x.lost.contains n })]
        rfl
    · intro arm hreset hturn
      change execPowerFailRegionErased s = _
      rw [execPowerFailRegionErased]
      refine (if_neg (by simp [hreset, hturn])).trans ?_
      have harm (r : PfRegion) : (match r with | .erasing => PfRegion.armed | x => x) = arm r := by cases r <;> rfl
      cases s.meter.regionA <;> cases s.meter.regionB <;> rfl

end Sys2Proof.Machine
end

section
/-! The PCIe link, the resets of its functions, and what the functions' root and admin blocks do. -/

namespace Sys2Proof.Machine

/-- The checks of R367 on an admin block, by their first failure, decide EN, RUN and ERR. -/
theorem admqEnSet_next {s : State} {fn v err : Nat} (hbar : s.barUp fn = true) (hstop : (s.fn fn).admin.stopping = false)
    (hrun : (s.fn fn).admin.run = false)
    (herr : (let a := (s.fn fn).admin
      if a.cmdBase % 4096 ≠ 0 ∨ a.cplBase % 4096 ≠ 0 then 1
      else if a.cmdLog2 < 6 ∨ 12 < a.cmdLog2 ∨ a.cplLog2 < 6 ∨ 12 < a.cplLog2 ∨ a.cplLog2 < a.cmdLog2 then 2
      else if fn ≠ 0 ∧ (s.fn fn).root.en = false then 3 else 0) = err) :
    let a := (s.fn fn).admin
    let b := { a with en := decide (err = 0), run := decide (err = 0), err := err, vec := v % 2048 }
    let u := s.modFn fn (fun x => { x with admin := b })
    exec (.admqEnSet fn v) s = if err ≠ 0 then .next u else .next { u with host := { u.host with
      queues := tset (tset u.host.queues (2 * fn) (adminQueue b false (2 * fn))) (2 * fn + 1) (adminQueue b true (2 * fn + 1)) } } := by
  intro a b u
  change execAdmqEnSet fn v s = _
  rw [execAdmqEnSet]
  refine (if_neg (by simp [hbar, hstop, hrun])).trans ?_
  have hbool : (if decide (a.cmdBase % 4096 ≠ 0) || decide (a.cplBase % 4096 ≠ 0) then 1
      else if decide (a.cmdLog2 < 6) || decide (12 < a.cmdLog2) || decide (a.cplLog2 < 6) || decide (12 < a.cplLog2)
        || decide (a.cplLog2 < a.cmdLog2) then 2
      else if decide (fn ≠ 0) && !(s.fn fn).root.en then 3 else 0) = err := by
    simp only [Bool.or_eq_true, Bool.and_eq_true, Bool.not_eq_true', decide_eq_true_eq, or_assoc, a, ← herr]
  rw [hbool]

/-- Settles O33. -/
theorem hostLinkEvents : Obligations.HostLinkEvents := by
  refine ⟨fun s width rate fn => ?_, fun s num fn v bad x rest => ?_⟩
  · intro here
    refine ⟨fun ⟨hreset, hworker⟩ hdown hperst hlanes htrains hfatal => ?_, fun ⟨hreset, hworker⟩ hup => ⟨?_, ?_⟩,
      fun ⟨hreset, hworker⟩ => ?_, fun ⟨hreset, hworker⟩ => ?_, fun hup => ?_, fun hreset hretrain htrains => ?_,
      fun hup hthere hfn => ?_, fun hup => ?_, fun hreset hbusy => ?_⟩
    · change execPcieLinkUp width rate s = _
      rw [execPcieLinkUp, if_neg]
      simp only [Bool.or_eq_true, not_or]
      exact ⟨by simp [hreset, hworker, hdown, hperst, hlanes, htrains], by rcases hfatal with h | h <;> simp [h]⟩
    · change execDlDown s = _
      rw [execDlDown, if_neg (by simp [hreset, hworker, hup])]
    · change execHotReset s = _
      rw [execHotReset, if_neg (by simp [hreset, hworker, hup])]
    · change execPciePerstNAssert s = _
      rw [execPciePerstNAssert, if_neg (by simp [hreset, hworker])]
    · change execPciePerstNRelease s = _
      rw [execPciePerstNRelease]
      exact if_neg (by simpa using ⟨hreset, hworker⟩)
    · change execLinkRetrainStart s = _
      rw [execLinkRetrainStart, if_neg (by simp [hup])]
    · intro u
      change execLinkRetrainDone width rate s = _
      rw [execLinkRetrainDone, if_neg (by simp [hreset, hretrain, htrains])]
      exact (apply_ite Host.Outcome.next _ _ _).symm
    · change execFlr fn s = _
      rw [execFlr, if_neg (by simp [hup, hthere]), if_neg hfn]
    · change execFlr 0 s = _
      rw [execFlr, if_neg (by simp [hup, State.fnThere]), if_pos rfl]
    · change execFlrDone fn s = _
      rw [execFlrDone, if_neg (by simp [hreset, hbusy])]
  · intro on lived
    refine ⟨fun hup hnum => ?_, fun en hbar hthere hen => ?_, fun hbar hfn => ?_, fun hinv => ?_, fun hbar => ?_, fun hbar hrun hstop => ?_⟩
    · have hgo : ¬ (!s.hostUp || decide (8 < num)) = true := by simpa [hup] using hnum
      have hon : exec (.vfEnable num true bad) s =
          if decide (lived.trust.live = s.trust.live) || !lived.isManager then .next lived
          else .next ((lived.ring.table.filter (fun e => e.2.present)).foldl (fun (s : State) e =>
            s.sendAcked .cmd e.1 (mkRec [⟨2, 0, 8, maskOf 8 lived.trust.live.contains⟩, ⟨3, 0, 8, 1⟩])) lived) := by
        change execVfEnable num true bad s = _
        rw [execVfEnable, if_neg hgo]
        exact if_neg nofun
      refine ⟨fun h => ?_, fun h => ?_, fun h => ?_, fun hl hm => ?_⟩
      · change execVfEnable num false bad s = _
        rw [execVfEnable, if_neg hgo]
        exact (if_pos rfl).trans (if_pos h)
      · change execVfEnable num false bad s = _
        rw [execVfEnable, if_neg hgo]
        exact (if_pos rfl).trans (if_neg (ne_true_of_eq_false h))
      · exact hon.trans (if_pos (by simpa using h))
      · exact hon.trans (if_neg (by simp [hl, hm]))
    · change execFnCtrlEn fn en s = _
      rw [execFnCtrlEn, if_neg]
      rcases hen with h | h <;> simp [h, hbar, hthere]
    · change execTlbInv fn s = _
      rw [execTlbInv, if_neg (by simpa [hbar] using hfn)]
    · intro u
      have hend : exec .invalidationEnd s = if x.viaRoot then .next ((u.flushContexts x.fn).modFn x.fn
          (fun y => { y with root := { y.root with invCnt := (y.root.invCnt + 1) % 256 } })) else .next (u.endOp 0x0905 x.fn .ok 0) := by
        change execInvalidationEnd s = _
        rw [execInvalidationEnd]
        simp only [hinv]
        rfl
      exact ⟨fun h => hend.trans (if_pos h), fun h => hend.trans (if_neg (ne_true_of_eq_false h))⟩
    · intro a err b u
      refine ⟨fun hstop hrun herr => ?_, fun hstop hrun herr => ?_⟩
      · have hset := admqEnSet_next (v := v) (err := err) hbar hstop hrun rfl
        simp only [decide_eq_false herr] at hset
        exact hset.trans (if_pos herr)
      · have hset := admqEnSet_next (v := v) (err := err) hbar hstop hrun rfl
        simp only [decide_eq_true herr] at hset
        exact hset.trans (if_neg (not_not.mpr herr))
    · change execAdmqEnClear fn s = _
      rw [execAdmqEnClear, if_neg (by simp [hbar, hrun, hstop])]

end Sys2Proof.Machine
end

section
/-! The interrupt vectors, the reads with an effect, and the writes of the host registers. -/

namespace Sys2Proof.Machine

theorem vec_modVec (s : State) (fn v : Nat) (f : Vec → Vec) : (s.modVec fn v f).vec fn v = f (s.vec fn v) := tget_tmod_same _ _ _ f

theorem vecHeld_iff {s : State} {fn v : Nat} {masked : Bool} (hm : (s.vec fn v).masked = masked) :
    s.vecHeld fn v = true ↔ masked = true ∨ (s.fn fn).cfg.msixEn = false ∨ (s.fn fn).cfg.msixMask = true
      ∨ (s.fn fn).cfg.master = false ∨ (s.fn fn).cfg.d3hot = true := by
  simp [State.vecHeld, hm, or_assoc]

/-- An RWL write that the session and the room in the log allow acts, and its entry is staged. -/
theorem rwlWrite_may {s : State} {off value : Nat} {f : State → State} (hbar : s.barUp 0 = true) (hopen : s.rwlOpen = true)
    (hroom : s.clogUsed < 4080) :
    s.rwlWrite off value f = (f s).stage {
      action := 0x1000 + 0x100 * (if off < 0x200 then 1 else 2) + off % 256 / 4, status := .ok, role := 1, time := s.now,
      node := s.ring.nodeNo, func := 15, serial := s.rwlSerial,
      detail := value % 2 ^ 32 + s.bar0Read 0 off % 2 ^ 32 * 2 ^ 32, why := .device } := by
  rw [State.rwlWrite, if_neg (by simp [hbar]), if_neg (by simpa [hopen] using hroom)]

theorem rwlWrite_denied {s : State} {off value : Nat} {f : State → State} (hbar : s.barUp 0 = true)
    (h : s.rwlOpen = false ∨ 4080 ≤ s.clogUsed) : s.rwlWrite off value f = s.logEv 0x0D20 15 off 0 := by
  rw [State.rwlWrite, if_neg (by simp [hbar]), if_pos (by simpa using h)]
  rfl

/-- A write that clears some count is an RWL write. -/
theorem writeClear_eq {s : State} {v : Nat} (hv : ¬ (bits v 0 2 = 0 ∧ bits v 8 9 = 0)) :
    s.writeClear v = s.rwlWrite 0x110 v (fun s => s.clearCounts v) := by
  rw [State.writeClear, if_neg]
  intro h
  simp only [Bool.and_eq_true, decide_eq_true_eq] at h
  exact hv h.1

theorem linkUp_of_barUp {s : State} {fn : Nat} (h : s.barUp fn = true) : s.host.linkUp = true := by
  simp only [State.barUp, State.hostUp, Bool.and_eq_true] at h
  tauto

/-- RETRAIN, with the link up and not retraining, is an RWL write. -/
theorem writeLink_retrain {s : State} (hlink : s.host.linkUp = true) (hretrain : s.host.retraining = false) :
    s.writeLink 8 = s.rwlWrite 0x208 8 (fun s => { s with host := { s.host with retraining := true } }) := by
  have hgo : (bitAt 8 3 && s.host.linkUp && !s.host.retraining) = true := by simp [hlink, hretrain]; decide
  have hrate : bits 8 0 3 = 0 := by decide
  rw [State.writeLink]
  simp only [hgo, hrate]
  exact (if_neg (by simp)).trans (by simp)

/-- A write to BAR0 or BAR4 of a function whose BARs answer, by its length and its offset (R359, R363). -/
theorem registerWrite_bar {s : State} {fn bar off value : Nat} {len : WriteLen} (hup : s.barUp fn = true) (hbar : bar = 0 ∨ bar = 4) :
    exec (.registerWrite fn bar off len value) s =
      if len.poisoned then .next (s.aerLog fn 12)
      else if barSize fn bar ≤ off then .next (s.aerLog fn 20)
      else if (decide (len.bytes ≠ 4) && decide (len.bytes ≠ 8)) || decide (off % len.bytes ≠ 0) then .next (s.barError fn)
      else
        let put := fun (s : State) (off v : Nat) => if bar = 0 then s.writeBar0 fn off v else s.writeBar4 fn off v
        .next (if len.bytes = 8 then put (put s off (value % 2 ^ 32)) (off + 4) (value / 2 ^ 32 % 2 ^ 32)
          else put s off (value % 2 ^ 32)) := by
  change execRegisterWrite fn bar off len value s = _
  rw [execRegisterWrite, if_neg (by omega), if_neg]
  rcases hbar with h | h <;> simp [hup, h]

/-- Settles O34. -/
theorem hostRegisters : Obligations.HostRegisters := by
  refine ⟨fun s fn v => ?_, fun s v k => ?_, fun s fn off n value => ?_⟩
  · intro x sent kept held
    refine ⟨fun hup hcause hmod hfirst hpend => ?_, fun hbar hv => ?_, fun hbar => ⟨?_, ?_⟩, fun hbar => ?_⟩
    · have htimer : exec (.msixModTimer fn v) s = .next (s.sendVec fn v) := by
        change execMsixModTimer fn v s = _
        rw [execMsixModTimer]
        exact if_neg (by simpa [hup, and_assoc] using ⟨hcause, hmod, hfirst, hpend⟩)
      refine ⟨fun h => htimer.trans (congrArg Host.Outcome.next ?_), fun h => htimer.trans (congrArg Host.Outcome.next ?_)⟩
      · exact if_neg fun hh => h ((vecHeld_iff rfl).mp hh)
      · exact if_pos ((vecHeld_iff rfl).mpr h)
    · intro u
      have hx : (u.vec fn v) = { x with masked := false } := vec_modVec ..
      have hmask : exec (.msixUnmask fn v) s = .next (if (u.vec fn v).pendingBit then u.sendVec fn v else u) := by
        change execMsixUnmask fn v s = _
        rw [execMsixUnmask, if_neg (by simpa [hbar] using hv)]
        rfl
      have hheld : u.vecHeld fn v = true ↔ held false := vecHeld_iff (by rw [hx])
      refine ⟨fun hp => ?_, fun hp h => ?_, fun hp h => ?_⟩
      · rw [hmask, if_neg (by simp [hx, hp])]
      · rw [hmask, if_pos (by simpa [hx] using hp), State.sendVec, if_neg fun hh => h (hheld.mp hh)]
      · rw [hmask, if_pos (by simpa [hx] using hp), State.sendVec, if_pos (hheld.mpr h)]
    · change execDevTimeLoRead fn s = _
      rw [execDevTimeLoRead, if_neg (by simp [hbar])]
    · change execMalformedBarRead fn s = _
      rw [execMalformedBarRead, if_neg (by simp [hbar])]
      rfl
    · change execFaultTimeLoRead s = _
      rw [execFaultTimeLoRead, if_neg (by simp [hbar])]
  · intro may may_not staged clears
    have hclears (c : Nat) (hc : ¬ (bits c 0 2 = 0 ∧ bits c 8 9 = 0)) : clears c (.next (s.writeClear c)) := by
      refine ⟨fun ⟨hbar, hopen, hroom⟩ => congrArg Host.Outcome.next ?_, fun ⟨hbar, h⟩ => congrArg Host.Outcome.next ?_⟩
      · rw [writeClear_eq hc, rwlWrite_may hbar hopen hroom]
        rfl
      · rw [writeClear_eq hc, rwlWrite_denied hbar h]
    refine ⟨hclears 1 (by decide), hclears 2 (by decide), hclears 256 (by decide), fun hk => ?_, fun ⟨hbar, hopen, hroom⟩ hr => ?_,
      fun ⟨hbar, h⟩ hr => ?_, fun hbar hopen => ?_, fun t harm ht => ?_, ?_, fun hbar hclosed => ⟨?_, ?_⟩⟩
    · have hbits : ∀ k < 8, ¬ (bits (512 * 2 ^ k) 0 2 = 0 ∧ bits (512 * 2 ^ k) 8 9 = 0) := by decide
      have hexec : exec (.clrDbVf k) s = .next (s.writeClear (512 * 2 ^ k)) := congrArg Host.Outcome.next (if_pos hk)
      rw [hexec]
      exact hclears _ (hbits k hk)
    · change Host.Outcome.next (s.writeLink 8) = _
      rw [writeLink_retrain (linkUp_of_barUp hbar) hr, rwlWrite_may hbar hopen hroom]
      rfl
    · change Host.Outcome.next (s.writeLink 8) = _
      rw [writeLink_retrain (linkUp_of_barUp hbar) hr, rwlWrite_denied hbar h]
    · change Host.Outcome.next (s.writeArm v) = _
      rw [State.writeArm, if_neg (by simp [hbar]), if_neg (by simp [hopen])]
    · change execResetArmExpiry s = _
      rw [execResetArmExpiry, harm]
      exact if_neg (Nat.not_lt.mpr ht)
    · intro u
      have hbit : bitAt 1 0 = true := by decide
      have hgo (hbar : s.barUp 0 = true) (hopen : s.rwlOpen = true) : exec .resetGo s = .next (if !bitAt 1 0 || s.node.resetArm.isNone then s
          else if 4080 ≤ s.clogUsed then u.rwlDenied 0x1814 else staged u 0xFF03 1 .resetGo) := by
        change Host.Outcome.next (s.writeGo 1) = _
        rw [State.writeGo, if_neg (by simp [hbar]), if_neg (by simp [hopen])]
        rfl
      refine ⟨fun ⟨hbar, hopen, hroom⟩ harm => ?_, fun hbar hopen hroom harm => ?_, fun hbar hopen harm => ?_⟩
      · rw [hgo hbar hopen, if_neg (by simpa [hbit] using Option.isSome_iff_ne_none.mp harm), if_neg (Nat.not_le.mpr hroom)]
      · rw [hgo hbar hopen, if_neg (by simpa [hbit] using Option.isSome_iff_ne_none.mp harm), if_pos hroom]
        rfl
      · rw [hgo hbar hopen, if_pos (by simp [harm])]
    · change Host.Outcome.next (s.writeArm v) = _
      rw [State.writeArm, if_neg (by simp [hbar]), if_pos (by simp [hclosed])]
      rfl
    · change Host.Outcome.next (s.writeGo 1) = _
      rw [State.writeGo, if_neg (by simp [hbar]), if_pos (by simp [hclosed])]
      rfl
  · intro plain bad
    refine ⟨fun bar hup hbar => ⟨?_, fun hoff => ?_, fun hoff hlen => ?_, fun hoff halign => ?_⟩, fun hup hthere hflr => ⟨?_, fun hn halign => ?_⟩,
      fun bar len hbar h => ?_⟩
    · rw [registerWrite_bar hup hbar]
      exact if_pos rfl
    · rw [registerWrite_bar hup hbar]
      exact (if_neg nofun).trans (if_pos hoff)
    · rw [registerWrite_bar hup hbar]
      exact (if_neg nofun).trans ((if_neg (Nat.not_le.mpr hoff)).trans (if_pos (by simpa [plain] using hlen)))
    · intro put
      refine ⟨fun hn => ?_, fun hn => ?_⟩ <;> subst hn
      · rw [registerWrite_bar hup hbar]
        exact (if_neg nofun).trans ((if_neg (Nat.not_le.mpr hoff)).trans ((if_neg (by simp [plain, halign])).trans
          (congrArg Host.Outcome.next (if_neg (by simp [plain])))))
      · rw [registerWrite_bar hup hbar]
        exact (if_neg nofun).trans ((if_neg (Nat.not_le.mpr hoff)).trans ((if_neg (by simp [plain, halign])).trans
          (congrArg Host.Outcome.next (if_pos rfl))))
    · change execRegisterWrite fn 6 off bad value s = _
      rw [execRegisterWrite, if_pos rfl, if_neg (by simp [hup, hthere, hflr]), if_pos rfl]
    · change execRegisterWrite fn 6 off plain value s = _
      rw [execRegisterWrite, if_pos rfl, if_neg (by simp [hup, hthere, hflr]), if_neg nofun, if_neg (by simp [plain, hn, halign])]
    · change execRegisterWrite fn bar off len value s = _
      rw [execRegisterWrite, if_neg hbar, if_pos (by simpa using h)]

end Sys2Proof.Machine
end

section
/-! Doorbells, fetches and entries of the queues. -/

namespace Sys2Proof.Machine

/-- A doorbell of a function whose BARs answer, with the conditions of R370 as they stand in the statement. -/
theorem doorbell_next {s : State} {fn qid index : Nat} {phase full : Bool} {host : List Host.Cell} (hbar : s.barUp fn = true)
    (hqid : qid < 2 ^ 18) :
    let reject := fun (s : State) => s.modFn fn (fun x => { x with dbRej := x.dbRej.bump 16 })
    let u := (s.loadCtx host qid).1
    exec (.doorbell fn qid index phase full host) s =
      if ¬ (s.qidOwner qid = some fn ∧ (s.fn fn).root.en = true ∧ full = true ∧ (s.queue qid).live = true ∧ (s.queue qid).err = 0
        ∧ (qid < 18 → (s.fn fn).admin.run = true)) then .next (reject s)
      else if !(s.loadCtx host qid).2 || !(u.queue qid).bellOk index phase then .next (reject u)
      else .next (u.modQueue qid (fun x => { x with hostIdx := index, hostPhase := phase, dirty := true })) := by
  intro reject u
  change execDoorbell fn qid index phase full host s = _
  rw [execDoorbell, if_neg (by simpa [hbar] using hqid)]
  refine if_congr ?_ rfl rfl
  simp only [Bool.or_eq_true, Bool.and_eq_true, Bool.not_eq_true', decide_eq_true_eq]
  grind

/-- Settles O35. -/
theorem queueEvents : Obligations.QueueEvents := by
  intro s qid index phase host x reject u loaded mapped
  refine ⟨fun fn full hbar hqid => ?_, fun t a hlive hkind hstop hadmin hheld hhand hall htags hcpl hturn hroom hload haddr => ?_,
    fun y entry hread => ?_, fun t a e w hlive hkind hroom hentry hturn hload => ?_, fun hreset hdamp => ?_⟩
  · intro passes
    have hbell := doorbell_next (index := index) (phase := phase) (full := full) (host := host) hbar hqid
    refine ⟨fun hp hl hok => ?_, fun hp h => ?_, fun hp => ?_⟩
    · exact hbell.trans ((if_neg (not_not.mpr hp)).trans (if_neg (by simpa using ⟨hl, hok⟩)))
    · exact hbell.trans ((if_neg (not_not.mpr hp)).trans (if_pos (by simpa using h)))
    · exact hbell.trans (if_pos hp)
  · intro v w
    have hready : s.fetchReady qid = true := by
      simp only [State.fetchReady, Bool.and_eq_true, Bool.or_eq_true, decide_eq_true_eq, Bool.not_eq_true']
      exact ⟨⟨⟨⟨⟨⟨⟨⟨⟨hlive, hkind⟩, hstop⟩, (Nat.lt_or_ge qid 18).symm.imp_right hadmin⟩, hheld⟩, hhand⟩, hall⟩, hcpl⟩, hroom⟩, htags⟩
    change execCommandFetch qid host s = _
    rw [execCommandFetch]
    refine (if_neg (by simp [hready, hturn])).trans ((if_neg (by simpa using hload)).trans ?_)
    have haddr' : (s.loadCtx host qid).1.entryAddr host qid 64 false = .ok (t, a) := haddr
    simp only [haddr']
    cases t <;> rfl
  · intro v r
    refine ⟨fun hup hknown => ?_, fun hup hknown => ?_, ?_⟩
    · change execHostReadCompletion qid entry s = _
      rw [execHostReadCompletion]
      simp only [hread]
      exact (if_neg (by simp [hup])).trans (if_pos hknown)
    · change execHostReadCompletion qid entry s = _
      rw [execHostReadCompletion]
      simp only [hread]
      exact (if_neg (by simp [hup])).trans (if_neg (ne_true_of_eq_false hknown))
    · intro n c a b
      change execCompletionTimeout qid s = _
      rw [execCompletionTimeout]
      simp only [hread]
      rfl
  · intro size haddr htake y by_ z z z
    have hready : s.entryReady qid = true := by
      simp only [State.entryReady, Bool.and_eq_true, decide_eq_true_eq]
      exact ⟨⟨⟨hlive, hkind⟩, hroom⟩, hentry⟩
    have hwait : ¬ (!s.entryReady qid || (decide ((s.queue qid).kind ≠ 2) && !s.turnOf ((s.qidOwner qid).getD 0))) = true := by
      rcases hturn with h | h
      · simp [hready, show (s.queue qid).kind = 2 from h]
      · simp [hready, h]
    change execEntryWrite qid host s = _
    rw [execEntryWrite]
    refine (if_neg hwait).trans ((if_neg (by simpa using hload)).trans ?_)
    have haddr' : (s.loadCtx host qid).1.entryAddr host qid (if (s.queue qid).kind = 1 then 32 else 64) true = .ok (t, a) := haddr
    simp only [haddr']
    cases t with
    | none =>
      have htake' : (s.loadCtx host qid).1.takeEntry qid = some (e, w) := htake
      simp only [htake']
      rfl
    | some t =>
      have htake' : ((s.loadCtx host qid).1.tlbInsert t).takeEntry qid = some (e, w) := htake
      simp only [htake']
      rfl
  · change execDamperTick s = _
    rw [execDamperTick, if_neg (by simpa [hreset] using hdamp)]
    rfl

end Sys2Proof.Machine
end

section
/-! The links of the ring, its plans and moves. -/

namespace Sys2Proof.Machine

theorem isManager_of_isWorker {s : State} (h : s.isWorker = true) : s.isManager = false := by
  simp only [State.isWorker, decide_eq_true_eq] at h
  simp [State.isManager, h]

theorem join_modPort (s : State) (east : Bool) (f : RingPort → RingPort) : (s.modPort east f).ring.join = s.ring.join := by
  cases east <;> rfl

/-- What a link that has trained does at a worker: it ends an insertion. -/
theorem trained_worker {t : State} {a b : Nat} (hm : t.isManager = false) (both : Bool) :
    (let u := t.modRing (fun r => { r with
        bypassClosed := (if t.isManager && both then false else r.bypassClosed), insertedAt := (if both then none else r.insertedAt) })
     (Host.Outcome.next (if u.isManager then u.linkBack a b else u) : Host.Outcome State Fault Refusal)) =
    .next (t.modRing (fun r => { r with insertedAt := if both then none else r.insertedAt })) := by
  refine congrArg Host.Outcome.next ((if_neg (ne_true_of_eq_false hm)).trans ?_)
  simp only [hm, Bool.false_and]
  rfl

/-- A pending plan of a node in the ring takes effect at its switching time. -/
theorem planSwitch_next {s : State} {p : RingPlan} (hon : s.ringOn = true) (hplan : s.ring.plan = some p) (hhold : p.holdEnd = none)
    (ht : p.switchAt ≤ s.now) :
    let t := s.modRing (fun r => { r with
      planSeq := p.seq, order := p.order, avoid := p.avoid, plan := some { p with holdEnd := some (p.switchAt + 20000) },
      downLinks := r.downLinks.filter (fun l => p.avoid.contains l) })
    exec .planSwitch s = if t.isManager && decide (p.why = .heal) then
        .next ((t.modRing (fun r => { r with view := if r.avoid.isEmpty then 1 else 2 })).raise 0x0A03 15 p.seq (p.link.1 + 256 * p.link.2))
      else .next t := by
  intro t
  change execPlanSwitch s = _
  rw [execPlanSwitch]
  simp only [hplan]
  exact if_neg (by simpa [hhold, hon] using ht)

/-- What was held on the old route goes at the end of the hold, and the next move that is due starts. -/
theorem routeHoldEnd_next {s u : State} {p : RingPlan} {e : Nat} (hplan : s.ring.plan = some p) (hhold : p.holdEnd = some e) (ht : e ≤ s.now)
    (hu : (let t := s.releaseAll.modRing (fun r => { r with plan := none })
      if t.isManager then t.afterMove p else t) = u) :
    exec .routeHoldEnd s = match u.ring.movesDue with
      | [] => .next u
      | m :: rest => .next ((u.modRing (fun r => { r with movesDue := rest })).startMove m.1 m.2) := by
  subst hu
  change execRouteHoldEnd s = _
  rw [execRouteHoldEnd]
  simp only [hplan, hhold]
  exact (if_neg (Nat.not_lt.mpr ht)).trans rfl

/-- Settles O36. -/
theorem ringLinks : Obligations.RingLinks := by
  intro s a b cause fseq seq at_ src east d order avoid p
  refine ⟨fun hon hw hopen hlink hfatal hlanes hd hclean => ?_, fun hon hm => ?_, fun hon hlink hjoin => ?_, fun hon => ⟨fun hc => ?_, fun hc => ?_⟩,
    fun hon hw hc => ?_, fun hon hplan hhold ht => ?_, fun e hplan hhold ht => ?_⟩
  · intro t
    have hgo : ¬ (decide (d.length ≠ 16) || !((s.ring.port east).crcTimes.all (fun t => decide (t + 1000000 ≤ s.now)))
        || decide (s.node.ringLanes < if east = true then 4 else 8) || (s.isWorker && s.ring.bypassClosed)
        || decide ((s.ring.port east).link = 2) || s.faults.fatal) = true := by
      have hall : (s.ring.port east).crcTimes.all (fun t => decide (t + 1000000 ≤ s.now)) = true := by simpa using hclean
      have hfew : ¬ s.node.ringLanes < (if east = true then 4 else 8) := by split <;> omega
      simp [hd, hall, hfew, hopen, hlink, hfatal]
    change execLinkUp (if east then 0 else 1) a b d s = _
    rw [execLinkUp, if_neg (by simp [hon]), if_neg (by cases east <;> decide)]
    have hm : t.isManager = false := isManager_of_isWorker (s := t) (by cases east <;> exact hw)
    cases east <;> exact (if_neg hgo).trans (trained_worker hm _)
  · change execLinkUp 2 a b d s = _
    rw [execLinkUp, if_neg (by simp [hon]), if_pos (Nat.le_refl 2), if_pos hm]
  · intro t t1 t2 t3
    change Host.Outcome.next (s.dropLink east a b cause) = _
    rw [State.dropLink, if_neg (by simp [hon, hlink])]
    have hnone : t1.ring.join = none := (join_modPort s east _).trans hjoin
    exact congrArg Host.Outcome.next (by simp only [t3, t2]; rw [hnone]; rfl)
  · change execRxLinkFault src fseq a b s = _
    rw [execRxLinkFault, if_neg (by simp [hon, hc])]
  · change execRxLinkFault src fseq a b s = _
    rw [execRxLinkFault, if_pos (by simp [hc])]
  · intro t
    have hgo : ¬ (!s.ringOn || !s.isWorker || !s.firstCopy 0 1 fseq) = true := by simp [hon, hw, hc]
    refine ⟨fun h => ?_, fun h => ?_⟩
    · change execRxPlan fseq seq at_ order avoid s = _
      rw [execRxPlan, if_neg hgo]
      exact if_pos h
    · change execRxPlan fseq seq at_ order avoid s = _
      rw [execRxPlan, if_neg hgo]
      exact if_neg (Nat.not_le.mpr h)
  · intro t u
    have hswitch := planSwitch_next hon hplan hhold ht
    refine ⟨fun hw => ?_, fun hm hwhy => ?_, fun hm hwhy => ?_⟩
    · exact hswitch.trans (if_neg fun h => ne_true_of_eq_false (isManager_of_isWorker hw) (Bool.and_eq_true_iff.mp h).1)
    · exact hswitch.trans (if_pos (Bool.and_eq_true_iff.mpr ⟨hm, decide_eq_true hwhy⟩))
    · exact hswitch.trans (if_neg (by simp [hwhy]))
  · intro t t1
    have hend := routeHoldEnd_next (u := t1) hplan hhold ht rfl
    exact ⟨fun hm => by rw [hend, hm], fun m rest hm => by rw [hend, hm]⟩

end Sys2Proof.Machine
end

section
/-! Time on the ring. -/

namespace Sys2Proof.Machine

@[simp] theorem port_sendPort (s : State) (type : FrameType) (e east : Bool) (body : Nat) (passing : Bool) :
    (s.sendPort type e body passing).ring.port east = s.ring.port east := by
  rw [State.sendPort]
  cases east <;> split <;> rfl

@[simp] theorem node_sendPort (s : State) (type : FrameType) (e : Bool) (body : Nat) (passing : Bool) :
    (s.sendPort type e body passing).node = s.node := by
  rw [State.sendPort]
  split <;> rfl

@[simp] theorem port_modPort (s : State) (east : Bool) (f : RingPort → RingPort) : (s.modPort east f).ring.port east = f (s.ring.port east) := by
  cases east <;> rfl

theorem port_modPort_other (s : State) (east : Bool) (f : RingPort → RingPort) :
    (s.modPort east f).ring.port (!east) = s.ring.port (!east) := by
  cases east <;> rfl

@[simp] theorem now_modPort (s : State) (east : Bool) (f : RingPort → RingPort) : (s.modPort east f).now = s.now := by
  cases east <;> rfl

/-- The active port where TIME comes fresh on one port alone. -/
theorem active_of_one_fresh {r : Ring} {fresh : RingPort → Bool} {east : Bool} (h : fresh (r.port east) = true)
    (hother : fresh (r.port (!east)) = false) :
    (if fresh r.east && fresh r.west then decide (r.east.hopsDone < r.west.hopsDone) else fresh r.east) = east := by
  cases east <;> simp_all [Ring.port]

/-- TIME on a port is fresh: its last frame is less than 100 us old and its clock is there (R439). -/
def timeFresh (now : Nat) (q : RingPort) : Bool :=
  match q.lastTime with
  | some t => !q.clockLost && decide (now < t + 100000)
  | none => false

/-- A worker that follows the port that TIME came on. -/
theorem follow_active {w : State} {active east : Bool} {e : Int} (h : active = east) :
    (Host.Outcome.next (if active = east then (w.modRing (fun r => { r with activeEast := active })).timeError e
      else w.modRing (fun r => { r with activeEast := active })) : Host.Outcome State Fault Refusal) =
    .next ((w.modRing (fun r => { r with activeEast := east })).timeError e) := by
  rw [if_pos h, h]

/-- Settles O37. -/
theorem ringTime : Obligations.RingTime := by
  intro s east sub res t1 t2 t3 f hon p old
  refine ⟨fun hm hsent => ?_, fun hlink hsent => ?_, ?_, fun hsent => ?_, fun hw hj => ?_, fun hw hlocked heast hwest => ?_⟩
  · intro j g
    change execTimeSend s = _
    rw [execTimeSend]
    refine (if_neg ?_).trans rfl
    cases ht : s.ring.timeSent with
    | none => simp [hon, hm]
    | some t => simpa [hon, hm] using hsent t ht
  · change execDelayReqSend east s = _
    rw [execDelayReqSend]
    refine (if_neg ?_).trans rfl
    have hlink' : (s.ring.port east).link = 2 := hlink
    cases ht : (s.ring.port east).reqSent with
    | none => simp [hon, hlink']
    | some t => simpa [hon, hlink'] using hsent t ht
  · intro t
    change execRxDelayReq east sub res s = _
    rw [execRxDelayReq, if_neg (by simp [hon])]
  · intro t4 d
    change execRxDelayResp east t2 t3 sub s = _
    rw [execRxDelayResp]
    have hsent' : (s.ring.port east).reqSent = some t1 := hsent
    simp only [hsent']
    exact if_neg (by simp [hon])
  · intro tM e t u
    have hrx : exec (.rxTime east sub res f) s =
        if u.ring.state = .listening then
          if f.form && !u.faults.fatal && decide (u.node.ringLanes = 8) then .next u.openBypass
          else .next { u with ring := { u.ring with timeErr := e } }
        else
          let g : TimeFrame := { f with corr := f.corr + p.delay + res, hopsDone := f.hopsDone + 1, last := u.ring.nodeNo }
          let w := u.sendPort .time (!east) (timeBody g) true
          let fresh := timeFresh w.now
          let active := if fresh w.ring.east && fresh w.ring.west then decide (w.ring.east.hopsDone < w.ring.west.hopsDone) else fresh w.ring.east
          .next (if active = east then (w.modRing (fun r => { r with activeEast := active })).timeError e
            else w.modRing (fun r => { r with activeEast := active })) := by
      change execRxTime east sub res f s = _
      rw [execRxTime, if_neg (by simp [hon, hw])]
      simp only [hj, if_true]
      rfl
    refine ⟨fun hl hform hfatal hlanes => ?_, fun hl hother hclock => ?_⟩
    · rw [hrx, if_pos hl, if_pos (by simp [hform, hfatal, hlanes])]
    · intro g
      rw [hrx, if_neg hl]
      have hport : u.ring.port east = { p with lastTime := some s.now, hopsDone := f.hopsDone } := by cases east <;> rfl
      have hnow (b : Nat) : (u.sendPort .time (!east) b true).now = s.now := by
        rw [State.now, node_sendPort]
        cases east <;> rfl
      refine follow_active (active_of_one_fresh ?_ ?_)
      · rw [port_sendPort, hport]
        exact Bool.and_eq_true_iff.mpr ⟨by simp [hclock], decide_eq_true (by rw [hnow]; omega)⟩
      · rw [port_sendPort]
        have hnone : (u.ring.port (!east)).lastTime = none := hother
        simp only [timeFresh, hnone]
  · change execTimeLossTimeout s = _
    rw [execTimeLossTimeout]
    have hstale (q : RingPort) (h : old q) : (match q.lastTime with | some t => decide (t + 100000 ≤ s.now) | none => true) = true := by
      cases hq : q.lastTime <;> simp_all [old]
    refine if_pos (Bool.and_eq_true_iff.mpr ⟨Bool.and_eq_true_iff.mpr ⟨?_, hstale _ heast⟩, hstale _ hwest⟩)
    simp [hon, hw, hlocked]

end Sys2Proof.Machine
end

section
/-! What the ring carries, and the COMMAND class of its frames. -/

namespace Sys2Proof.Machine

theorem alone_of_ringOn {s : State} (h : s.ringOn = true) : s.node.inReset = false ∧ s.isAlone = false := by
  simpa [State.ringOn] using h

/-- A failed frame that this port has counted goes on unless its way ends here. -/
theorem passDamaged_modPort (s : State) (east e : Bool) (f : RingPort → RingPort) (x : FailedFrame) :
    (s.modPort east f).passDamaged e x =
      if x.dst = some s.ring.nodeNo ∨ x.hops = 0 ∨ s.ring.bypassClosed = true then s.modPort east f
      else (s.modPort east f).modRing (fun r => { r with out := ({
        type := (FrameType.ofCode x.cls x.type).getD .damaged, dst := x.dst, aux := x.aux, body := x.body, ring := b2n e, hops := x.hops - 1,
        fseq := x.fseq, at_ := (s.modPort east f).node.clock, passing := true, inverted := true, from_ := some x.src } : FrameOut).queue r.out }) := by
  rw [State.passDamaged]
  refine if_congr ?_ rfl rfl
  cases east <;> simp [State.modPort, or_assoc]

/-- Settles O38. -/
theorem ringTraffic : Obligations.RingTraffic := by
  intro s src fseq channel n body c q new east segs pdu g hon
  obtain ⟨hreset, halone⟩ := alone_of_ringOn hon
  refine ⟨congrArg Host.Outcome.next (if_pos hon), fun hm => congrArg Host.Outcome.next (if_pos (by simp [hon, hm])), fun t ht hnow => ?_,
    fun hm => ?_, fun f v hm hq => ?_, fun hconn => ?_, fun hm => ?_, fun hc => ?_, fun hc => ?_, fun hc => ?_, fun hc => ?_,
    fun hm hthere => ⟨?_, ?_⟩, ?_, fun x => ?_⟩
  · change execPackedSendTimeout s = _
    rw [execPackedSendTimeout, ht]
    exact if_pos hnow
  · change execRxCapture src q (.block g n) s = _
    rw [execRxCapture, if_neg (by simp [hon, hm])]
  · change execRxCapture src q (.record v) s = _
    rw [execRxCapture, if_neg (by simp [hon, hm])]
    simp only [hq]
  · change execRxTirwin src pdu none s = _
    rw [execRxTirwin, if_neg (by simp [hreset, halone])]
    simp only [hconn]
  · change execRxTirwin src pdu (some (c, q)) s = _
    rw [execRxTirwin, if_neg (by simp [hreset, halone])]
    exact if_pos hm
  · change execRxTrigger src fseq channel n s = _
    rw [execRxTrigger, if_neg (by simp [hon, hc])]
  · change execRxTrigger src fseq channel n s = _
    rw [execRxTrigger, if_pos (by simp [hc])]
  · change execRxMessage src fseq channel n s = _
    rw [execRxMessage, if_neg (by simp [hon, hc])]
  · change execRxMessage src fseq channel n s = _
    rw [execRxMessage, if_pos (by simp [hc])]
  · change execRxLog src true body s = _
    rw [execRxLog, if_neg (by simp [hon, hm, hthere])]
    rfl
  · change execRxLog src false body s = _
    rw [execRxLog, if_neg (by simp [hon, hm, hthere])]
    rfl
  · change execUnknownFrameType ⟨east, none⟩ s = _
    rw [execUnknownFrameType, if_neg (by simp [hon])]
  · intro ends o v l w k
    have hfails : exec (.unknownFrameType ⟨east, some x⟩) s = .next (if 16 ≤ l.length then w.dropLink east k.1 k.2 3 else w) := by
      change execUnknownFrameType ⟨east, some x⟩ s = _
      rw [execUnknownFrameType, if_neg (by simp [hon])]
      dsimp only
      rw [passDamaged_modPort]
      rfl
    exact ⟨fun h => by rw [hfails, if_neg (Nat.not_le.mpr h)], fun h => by rw [hfails, if_pos h]⟩

/-- A frame of the COMMAND class that has not come before: its TAG is noted, and it acts by its kind. -/
theorem rxCmd_new {s : State} {src tag : Nat} {c : CmdFrame} (hon : s.ringOn = true) (hopen : s.ring.bypassClosed = false)
    (hfrom : c.kind = 2 ∨ c.kind = 7 ∧ s.isManager = true ∨ c.kind ≠ 7 ∧ s.isWorker = true ∧ src = 0) (hnew : (s.takeTag src tag).2 = true) :
    let t := (s.takeTag src tag).1
    exec (.rxCmd src tag c) s =
      if c.kind = 1 then .next (((List.range 8).filter (fun h => bitAt c.arg h)).foldl (fun s h => s.makeLive [] h) t)
      else if c.kind = 2 then
        let k := c.entry.toNat % 2 ^ 64
        .next (t.setPrompt k src (c.arg = 1 && c.fn = fnOfHearth (t.streamHolder k)))
      else if c.kind = 4 then .next (t.setRate (c.arg % 2 = 0) (some (c.arg < 2)))
      else if c.kind = 5 then
        .next ((t.modShare (c.entry.toNat % 2 ^ 64) true (fun x => { x with nextStep := c.arg % 4 })).postBlock (c.entry.toNat % 2 ^ 64) true)
      else if c.kind = 6 then
        .next { t with ring := { t.ring with spacings := tset t.ring.spacings (c.entry.toNat % 2 ^ 64) c.queue } }
      else if c.kind = 7 then
        .next ((t.queueLost (c.entry.toNat % 2 ^ 18) c.queue).raiseQueueLoss (c.entry.toNat % 2 ^ 18))
      else if c.kind = 8 then .next (t.modQueue (c.entry.toNat % 2 ^ 18) (fun x => x.unship c.queue))
      else match specOf (frameRequest c tag) with
        | some p => .next (p.run (frameRequest c tag) (t.noteFrame c (frameRequest c tag)))
        | none => .next ((t.noteFrame c (frameRequest c tag)).finish (frameRequest c tag) .badParam 0) := by
  intro t
  have htag : s.takeTag src tag = (t, true) := Prod.ext rfl hnew
  change execRxCmd src tag c s = _
  rw [execRxCmd, htag]
  refine (if_neg ?_).trans rfl
  rcases hfrom with h | ⟨h, hm⟩ | ⟨h, hw, h0⟩
  · simp [hon, hopen, h]
  · simp [hon, hopen, h, hm]
  · simp [hon, hopen, h, hw, h0]

/-- Settles O39: a new frame acts by its kind, and a repeated one is answered again. -/
theorem ringCommandFrames : Obligations.RingCommandFrames := by
  intro s src tag cmd status result addr len val time code hearth subject held detail c hon t
  refine ⟨fun hw hopen h0 hnew => ⟨fun hk => ?_, fun hk => ?_, fun hk => ?_, fun hk => ?_, fun hk => ?_, fun hk => ?_⟩,
    fun hm hopen hnew hk => ?_, fun hopen hnew hk => ?_, fun hw hopen h0 hk hold => ?_, fun hm hold => ⟨?_, ?_⟩, fun f hm hnew hf => ?_,
    fun hm hnew => ⟨fun hcode => ?_, ?_⟩, fun hop => ?_, fun u hu => ?_, fun f hf => ?_⟩
  · have hrun := rxCmd_new hon hopen (c := c) (.inr (.inr ⟨by omega, hw, h0⟩)) hnew
    have hkind (n : Nat) (h : n ≠ 0 ∧ n ≠ 3) : ¬ c.kind = n := by omega
    dsimp only at hrun
    rw [if_neg (hkind 1 (by decide)), if_neg (hkind 2 (by decide)), if_neg (hkind 4 (by decide)), if_neg (hkind 5 (by decide)),
      if_neg (hkind 6 (by decide)), if_neg (hkind 7 (by decide)), if_neg (hkind 8 (by decide))] at hrun
    exact ⟨fun p hp => by rw [hrun, hp], fun hp => by rw [hrun, hp]⟩
  · rw [rxCmd_new hon hopen (.inr (.inr ⟨by omega, hw, h0⟩)) hnew]
    simp only [hk]
    rfl
  · rw [rxCmd_new hon hopen (.inr (.inr ⟨by omega, hw, h0⟩)) hnew]
    simp only [hk]
    rfl
  · rw [rxCmd_new hon hopen (.inr (.inr ⟨by omega, hw, h0⟩)) hnew]
    simp only [hk]
    rfl
  · rw [rxCmd_new hon hopen (.inr (.inr ⟨by omega, hw, h0⟩)) hnew]
    simp only [hk]
    rfl
  · rw [rxCmd_new hon hopen (.inr (.inr ⟨by omega, hw, h0⟩)) hnew]
    simp only [hk]
    rfl
  · intro q
    rw [rxCmd_new hon hopen (.inr (.inl ⟨hk, hm⟩)) hnew]
    simp only [hk]
    rfl
  · intro k
    rw [rxCmd_new hon hopen (.inl hk) hnew]
    simp only [hk]
    rfl
  · have htag : s.takeTag src tag = (t, false) := Prod.ext rfl hold
    have hagain : exec (.rxCmd src tag c) s = .next (match t.ring.answered.find? (fun a => a.1 = src && a.2.1 = tag) with
        | some a => t.sendFrame a.2.2
        | none => t) := by
      change execRxCmd src tag c s = _
      rw [execRxCmd, htag]
      refine (if_neg ?_).trans rfl
      by_cases h2 : c.kind = 2 <;> simp [hon, hopen, h2, hk, hw, h0]
    exact ⟨fun a ha => by rw [hagain, ha], fun ha => by rw [hagain, ha]⟩
  · have htag : s.takeTag src tag = (t, false) := Prod.ext rfl hold
    change execRxCpl src tag cmd status result addr len val s = _
    rw [execRxCpl, htag, if_neg (by simp [hon, hm])]
  · have htag : s.takeTag src tag = (t, false) := Prod.ext rfl hold
    change execRxEvent src tag time code hearth subject held detail s = _
    rw [execRxEvent, htag, if_neg (by simp [hon, hm])]
  · have htag : s.takeTag src tag = (t, true) := Prod.ext rfl hnew
    refine ⟨fun st hst => ?_, ?_⟩
    · change execRxCpl src tag cmd status result addr len val s = _
      rw [execRxCpl, htag, if_neg (by simp [hon, hm])]
      simp only [hf, hst]
    · change execRxCpl src tag cmd 0xFF result addr len val s = _
      rw [execRxCpl, htag, if_neg (by simp [hon, hm])]
      have hst : Status.ofCode 0xFF = none := by decide
      simp only [hf, hst]
      rfl
  · have htag : s.takeTag src tag = (t, true) := Prod.ext rfl hnew
    change execRxEvent src tag time code hearth subject held detail s = _
    rw [execRxEvent, htag, if_neg (by simp [hon, hm])]
    exact if_neg hcode
  · have htag : s.takeTag src tag = (t, true) := Prod.ext rfl hnew
    change execRxEvent src tag time 0 hearth subject held detail s = _
    rw [execRxEvent, htag, if_neg (by simp [hon, hm])]
    rfl
  · change execRxAck src tag s = _
    rw [execRxAck, if_neg (by simp [hon])]
    have hop' : (s.modRing (fun r => { r with
      unacked := r.unacked.filter (fun u => !(u.frame.dst = some src && u.frame.aux = tag)) })).findOp 0x0E01 0 = none := hop
    simp only [hop']
  · change execResendTimeout s = _
    rw [execResendTimeout, hu]
    exact if_neg (by simp [hon])
  · change execCommandWaitTimeout s = _
    rw [execCommandWaitTimeout, hf]

end Sys2Proof.Machine
end

section
/-! How the ring forms and nodes join; the timeouts of sessions, lockouts and the change log; heartbeats, expiries and the trip loop. -/

namespace Sys2Proof.Machine

/-- Settles O40. -/
theorem ringJoining : Obligations.RingJoining := by
  intro s tag num w j hon
  refine ⟨fun hw hopen hnew => ?_, fun hm hfull hknown => ?_, fun closed hm hview hrep => ?_, fun t hw hat ht => ?_,
    fun hm hview hplan hjoin a rest hoffers => ?_, fun hjoin h0 ht hbegun => ?_, fun hm hjoin hbegun hplan ht => ?_⟩
  · have htag : s.takeTag 0 tag = ((s.takeTag 0 tag).1, true) := Prod.ext rfl hnew
    refine ⟨?_, fun hn => ?_⟩
    · change execRxNumber tag 0 w s = _
      rw [execRxNumber, if_neg (by simp [hon]), if_pos hw, if_neg (by simp [hopen]), htag]
      rfl
    · change execRxNumber tag num w s = _
      rw [execRxNumber, if_neg (by simp [hon]), if_pos hw, if_neg (by simp [hopen]), htag]
      exact if_neg hn
  · change execRxNumber tag num w s = _
    rw [execRxNumber, if_neg (by simp [hon]), if_neg (by simp [isWorker_of_isManager hm])]
    exact if_pos (by simp [hknown, hfull])
  · intro up hup dead t
    change execFormationEnd closed s = _
    rw [execFormationEnd]
    refine (if_neg ?_).trans ?_
    · rcases hup with h | h
      · have h' : (closed && decide (s.ring.east.link = 2) && decide (s.ring.west.link = 2) && !s.ring.bypassClosed) = true := h
        simp only [h', hon, hm, hview]
        simp
      · simp [hon, hm, hview, h]
    · simp only [hrep, List.isEmpty_nil, Bool.true_or, if_true]
      rfl
  · change execInsertionTimeout s = _
    rw [execInsertionTimeout, hat]
    exact if_pos (by simpa [hw] using ht)
  · change execJoinOffer s = _
    rw [execJoinOffer]
    simp only [hoffers]
    exact if_neg (by simp [hon, hm, hview, hplan, hjoin])
  · intro t
    have hgo : ¬ (!s.ringOn || decide (j.joinAt = 0) || decide (s.now < j.joinAt) || j.begun) = true := by simp [hon, h0, ht, hbegun]
    have hcome : exec .joinTime s = if t.isWorker && t.ring.state = .listening && t.ring.lastA = some j.a && t.ring.lastB = some j.b
        && !t.faults.fatal && t.node.ringLanes = 8 then .next t.openBypass else .next t := by
      change execJoinTime s = _
      rw [execJoinTime]
      simp only [hjoin]
      exact if_neg hgo
    refine ⟨fun hw hstate ha hb hfatal hlanes => hcome.trans (if_pos ?_), fun hm => hcome.trans (if_neg ?_)⟩
    · simp only [Bool.and_eq_true, decide_eq_true_eq, Bool.not_eq_true']
      exact ⟨⟨⟨⟨⟨hw, hstate⟩, ha⟩, hb⟩, hfatal⟩, hlanes⟩
    · have hw : t.isWorker = false := isWorker_of_isManager (s := t) hm
      simp only [hw, Bool.false_and]
      exact nofun
  · change execJoinTimeout s = _
    rw [execJoinTimeout]
    simp only [hjoin]
    exact if_pos (by simpa [hon, hm, hbegun, hplan] using ht)

/-- Settles O41. -/
theorem sessionEvents : Obligations.SessionEvents := by
  intro s x rest keep over_
  refine ⟨rfl, fun hreset => ⟨congrArg Host.Outcome.next (if_neg (ne_true_of_eq_false hreset)),
    congrArg Host.Outcome.next (if_neg (ne_true_of_eq_false hreset))⟩, fun hstage hreset hpf hturn => ?_⟩
  intro t
  have hdone (ok : Bool) : exec (.changeLogEntryDone ok) s =
      if ok then .next ((match x.why with | .archive _ => t.archived x | _ => t.clogAppend x).afterEntry x.why)
      else .next (match x.why.req with
        | some r => (t.report 0x24 0 x.action).finish r .timeout 0
        | none => t.report 0x24 0 x.action) := by
    change execChangeLogEntryDone ok s = _
    rw [execChangeLogEntryDone]
    simp only [hstage]
    exact if_neg (by simp [hreset, hpf, hturn])
  refine ⟨fun hwhy => (hdone true).trans (congrArg Host.Outcome.next ?_), fun r hwhy => (hdone true).trans (congrArg Host.Outcome.next ?_),
    fun r hreq => (hdone false).trans (congrArg Host.Outcome.next ?_), fun hreq => (hdone false).trans (congrArg Host.Outcome.next ?_)⟩
  · cases hx : x.why with
    | archive r => exact absurd hx (hwhy r)
    | _ => rfl
  · rw [hwhy]
    rfl
  · rw [hreq]
  · rw [hreq]

/-- A time that a timer counts from, if it is there, has come. -/
theorem past_of_forall {o : Option Nat} {p now : Nat} (h : ∀ u, o = some u → u + p ≤ now) :
    (match (generalizing := false) o with | some u => decide (u + p ≤ now) | none => true) = true := by
  cases o with
  | none => rfl
  | some u => exact decide_eq_true (h u rfl)

/-- Settles O42. -/
theorem protectionEvents : Obligations.ProtectionEvents := by
  intro s c range t b closed x
  refine ⟨fun hen hdir hper hreset => ?_, fun hhold hen hmute hlast => ?_, fun hen hdir hstate hlate => ?_, ?_, fun hdeb ht hkind hreset => ?_,
    fun hpulse ht => ?_⟩
  · have hgo : ¬ (!(s.conn c).enable || !(s.conn c).dir || decide ((s.conn c).period = 0) || s.node.inReset) = true := by
      have hen' : (s.conn c).enable = true := hen
      have hdir' : (s.conn c).dir = true := hdir
      have hper' : (s.conn c).period ≠ 0 := hper
      simp [hen', hdir', hper', hreset]
    refine ⟨fun hlatch hfwd hpast => ?_, fun h hpast => ?_⟩
    · change execHeartbeatTimer c s = _
      rw [execHeartbeatTimer]
      exact (if_neg hgo).trans ((if_pos (Bool.and_eq_true_iff.mpr ⟨hlatch, hfwd⟩)).trans (if_pos (past_of_forall hpast)))
    · change execHeartbeatTimer c s = _
      rw [execHeartbeatTimer]
      refine (if_neg hgo).trans ((if_neg fun hh => ?_).trans (if_pos (past_of_forall hpast)))
      obtain ⟨h1, h2⟩ := Bool.and_eq_true_iff.mp hh
      rcases h with h | h
      · exact ne_true_of_eq_false h h1
      · exact ne_true_of_eq_false h h2
  · change execPduHoldRelease c s = _
    rw [execPduHoldRelease]
    have hhold' : (s.conn c).holding = some b := hhold
    simp only [hhold']
    refine if_pos ?_
    simp only [Bool.and_eq_true, decide_eq_true_eq, Bool.not_eq_true']
    exact ⟨⟨hen, hmute⟩, hlast⟩
  · intro u y u2
    change execTirwinExpiry c s = _
    rw [execTirwinExpiry]
    refine (if_neg ?_).trans rfl
    simp only [Bool.or_eq_true, decide_eq_true_eq, Bool.not_eq_true', not_or, Bool.not_eq_false, not_lt, not_le, Bool.not_eq_true]
    exact ⟨⟨⟨hen, hdir⟩, hstate⟩, hlate⟩
  · change execTripLoopChange range s = _
    rw [execTripLoopChange]
    by_cases h0 : range = 0
    · simp only [h0, if_true]
    · by_cases h1 : range = 1
      · simp only [h1, if_true]
        rfl
      · simp only [h0, h1, if_false]
  · change execTripLoopDebounce s = _
    rw [execTripLoopDebounce]
    simp only [hdeb]
    exact if_pos (by simpa [hkind, hreset] using ht)
  · change execMinPulseEnd s = _
    rw [execMinPulseEnd]
    exact if_pos (by simpa [hpulse] using ht)

end Sys2Proof.Machine
end

section
/-! The detections and reactions of the fault manager, and the event logs. -/

namespace Sys2Proof.Machine

/-- Settles O43. -/
theorem faultEvents : Obligations.FaultEvents := by
  intro s x k rid die det inst detail more j r rest hreset
  refine ⟨fun hrep => ?_, fun hk hthere => ⟨fun hh => ?_, fun hh => ?_⟩, fun hmem hfirst => ?_, fun t hend ht => ?_, fun hdie => ⟨?_, ?_⟩, ⟨?_, ?_⟩,
    fun hinj ht => ?_, fun hq htrust hrid => ?_, ?_, fun hflash hpf hturn => ?_⟩
  · change execFaultDetection none s = _
    rw [execFaultDetection, hrep]
    exact if_neg (ne_true_of_eq_false hreset)
  · change execFaultDetection (some x) s = _
    rw [execFaultDetection]
    simp only [hk]
    rw [if_neg (by simp [hthere]), if_neg (ne_true_of_eq_false hreset), if_neg (by simp [hh])]
  · change execFaultDetection (some x) s = _
    rw [execFaultDetection]
    simp only [hk]
    rw [if_neg (by simp [hthere]), if_neg (ne_true_of_eq_false hreset), if_pos (by simp [hh])]
  · intro t y u
    change execReactionDone rid s = _
    rw [execReactionDone]
    have hgo : ¬ (!(decide (s.faults.order.head? = some rid) || (decide ((s.faultRec rid).cls = 2) && s.faults.order.contains rid))
        || s.node.inReset) = true := by
      rcases hfirst with h | h <;> simp [hreset, h, hmem]
    refine (if_neg hgo).trans ?_
    simp only [Bool.and_eq_true, decide_eq_true_eq]
    rfl
  · intro y own
    change execShadowEnd rid s = _
    rw [execShadowEnd]
    simp only [hend]
    exact if_neg (Nat.not_lt.mpr ht)
  · change execTripLineSelfTest die true s = _
    rw [execTripLineSelfTest, if_neg (Nat.not_le.mpr hdie), if_pos (by simp)]
  · change execTripLineSelfTest die false s = _
    rw [execTripLineSelfTest, if_neg (Nat.not_le.mpr hdie), if_neg (by simp [hreset])]
  · change execFaultManagerSelfTest true s = _
    rw [execFaultManagerSelfTest, if_neg (ne_true_of_eq_false hreset), if_pos rfl]
  · change execFaultManagerSelfTest false s = _
    rw [execFaultManagerSelfTest, if_neg (ne_true_of_eq_false hreset), if_neg nofun]
  · change execInjectTimeout s = _
    rw [execInjectTimeout, hinj]
    exact if_neg (Nat.not_lt.mpr ht)
  · intro q ram l t
    have hwrite : exec .ramLogWrite s = if t.isWorker then .next (t.sendFrame { type := .log, dst := some 0, aux := 0, body := q.bytes })
        else .next (t.copyRec q.hearth { time := q.time, lseq := q.lseq, source := 0, part := 0, body := q.body }) := by
      change execRamLogWrite s = _
      rw [execRamLogWrite]
      simp only [hq]
      refine (if_neg (by simp [hreset, htrust])).trans ?_
      cases r
      cases hrid
      rfl
    exact ⟨fun hw => hwrite.trans (if_pos hw), fun hw => hwrite.trans (if_neg (ne_true_of_eq_false hw))⟩
  · intro period ht
    change execTokenRefill s = _
    rw [execTokenRefill]
    exact if_neg (by simpa [hreset] using ht)
  · intro flash
    have hgo : ¬ (s.node.inReset || decide (s.node.pfStage ≠ .none) || !s.logs.turn 0) = true := by simp [hreset, hpf, hturn]
    constructor
    · change execFlashLogRecordDone false s = _
      rw [execFlashLogRecordDone]
      simp only [hflash]
      exact (if_neg hgo).trans (if_pos rfl)
    · change execFlashLogRecordDone true s = _
      rw [execFlashLogRecordDone]
      simp only [hflash]
      refine (if_neg hgo).trans ((if_neg nofun).trans ?_)
      simp only [decide_eq_true_eq]
      rfl

/-- Settles O44. -/
theorem ageingEvents : Obligations.AgeingEvents := by
  intro s die i p v x hreset
  refine ⟨fun hdie hper hup hdue => ?_, fun hhour => ?_, fun hready hfatal hnone hat => ?_, fun hplan => ⟨fun hfatal => ?_, fun hfatal hreq => ?_,
    fun r hfatal hreq => ?_⟩, fun hmoves hplan => ?_⟩
  · change execGaugeRead die i v s = _
    rw [execGaugeRead, if_neg (Nat.not_le.mpr hdie)]
    simp only [hper]
    refine if_pos (Bool.and_eq_true_iff.mpr ⟨hup, ?_⟩)
    cases hl : ((s.dieAge die).gauge i).lastRead with
    | none => rfl
    | some t => exact decide_eq_true (hdue t hl)
  · change execHourlyMean s = _
    rw [execHourlyMean]
    exact if_neg (by simpa [hreset] using hhour)
  · change execScheduledReplan s = _
    rw [execScheduledReplan, if_neg (by simpa [hreset, hready, hfatal, hnone] using hat)]
    rfl
  · change execReplanDone s = _
    rw [execReplanDone, hplan]
    exact (if_neg (ne_true_of_eq_false hreset)).trans (if_neg (ne_true_of_eq_false hfatal))
  · change execReplanDone s = _
    rw [execReplanDone, hplan]
    refine (if_neg (ne_true_of_eq_false hreset)).trans ((if_pos hfatal).trans ?_)
    simp only [hreq]
  · change execReplanDone s = _
    rw [execReplanDone, hplan]
    refine (if_neg (ne_true_of_eq_false hreset)).trans ((if_pos hfatal).trans ?_)
    simp only [hreq]
  · have hdue : ¬ (s.node.inReset || s.age.moves.all (fun m => decide (s.now < m.2))) = true := by
      simpa [hreset] using hmoves
    change execFallbackMoveTimeout s = _
    rw [execFallbackMoveTimeout, if_neg hdue]
    have hnone : s.dropFallback.ring.plan = none := hplan
    simp only [hnone]
    have hkeep : s.dropFallback.ring.movesDue.filter (fun m => !(match m.2 with
          | .rate _ _ _ true => true
          | _ => false)) = s.ring.movesDue.filter (fun m => match m.2 with
          | .rate _ _ _ true => false
          | _ => true) := List.filter_congr fun m _ => by split <;> rfl
    exact congrArg₂ (fun m p => (Host.Outcome.next { s.dropFallback with ring := { s.ring with movesDue := m, plan := p } } :
      Host.Outcome State Fault Refusal)) hkeep hplan.symm

/-- Settles O45. -/
theorem emptyQueue : Obligations.EmptyQueue := by
  intro s hq busy
  have hstep : step s = .next s.idle := by rw [step, hq]
  refine ⟨fun hreset => ?_, fun e hreset hpick => ?_, fun hreset hpick => ?_⟩
  · rw [hstep, State.idle, if_pos hreset]
  · have hpick' : s.pickWaiting s.namesStarted [] s.host.waiting = some e := hpick
    rw [hstep, State.idle, if_neg (ne_true_of_eq_false hreset), hpick']
  · intro t u
    have hpick' : s.pickWaiting s.namesStarted [] s.host.waiting = none := hpick
    rw [hstep, State.idle, if_neg (ne_true_of_eq_false hreset), hpick']
    rfl

end Sys2Proof.Machine
end

section
/-! The canonical form of the byte memories, as the updates of a table and of the state leave it. -/

set_option Elab.async false

namespace Sys2Proof.Machine

/-- What is written has p as much as what stood there: then a table has p as before. -/
theorem all_tset_eq {α : Type} {p : α → Bool} {d : α} {t : Tab α} {k : Nat} {w : α} (hd : p d = true) (hw : p w = p (tget d t k)) :
    (tset t k w).all (fun e => p e.2) = t.all (fun e => p e.2) := by
  induction t with
  | nil => simpa [tset, tget, hd] using hw
  | cons e t ih =>
    obtain ⟨j, v⟩ := e
    simp only [tget] at hw
    simp only [tset]
    split
    · rename_i hk
      rw [if_pos hk] at hw
      simp only [List.all_cons, hw]
    · rename_i hk
      rw [if_neg hk] at hw
      split
      · simp only [List.all_cons, hw]
        cases ht : t.all (fun e => p e.2) with
        | false => simp
        | true => simp [of_tget p d t k ht hd]
      · simp only [List.all_cons, ih hw]

theorem all_tmod_eq {α : Type} {p : α → Bool} {d : α} {f : α → α} (hd : p d = true) (hf : ∀ v, p (f v) = p v) (t : Tab α) (k : Nat) :
    (tmod d t k f).all (fun e => p e.2) = t.all (fun e => p e.2) :=
  all_tset_eq hd (hf _)

theorem all_tmod_of {α : Type} {p : α → Bool} {d : α} {f : α → α} (hd : p d = true) (hf : ∀ v, p v = true → p (f v) = true) {t : Tab α}
    (k : Nat) (ht : t.all (fun e => p e.2) = true) : (tmod d t k f).all (fun e => p e.2) = true :=
  all_tset (fun e => p e.2) t k _ ht (hf _ (of_tget p d t k ht hd))

theorem all_map_eq {α : Type} {p : α → Bool} {f : Nat × α → α} (hf : ∀ e, p (f e) = p e.2) (t : Tab α) :
    (t.map (fun e => (e.1, f e))).all (fun e => p e.2) = t.all (fun e => p e.2) := by
  simp [List.all_map, Function.comp_def, hf]

/-- A bank's cells, and the stoves of a seal image, are in canonical form. -/
def PsBank.memOk (b : PsBank) : Bool := memWf 0xFF b.cells
def SealImage.memOk (x : SealImage) : Bool := x.stoves.all (fun v => v.2.memOk)

@[simp] theorem memWf_nil (u : Byte) : memWf u [] = true := rfl

/-- The byte memories of the state, by the three tables they stand in. -/
def memsOk (stoves : Tab Stove) (ps : Tab PsBank) (images : Tab SealImage) : Bool :=
  stoves.all (fun e => e.2.memOk) && images.all (fun e => e.2.memOk) && ps.all (fun e => e.2.memOk)

@[simp] theorem memOk_mk (node host ring trust roles clog faults logs tiles groups pins jobs fabric fabricTurn triggers sync rows loopbacks
    due stoveTab pairTab views meter ps prot age sealImages fresh pending) :
    (State.mk node host ring trust roles clog faults logs tiles groups pins jobs fabric fabricTurn triggers sync rows loopbacks due stoveTab
      pairTab views meter ps prot age sealImages fresh pending).memOk = memsOk stoveTab ps sealImages := by
  simp only [State.memOk]
  rfl

@[simp] theorem memsOk_eta (s : State) : memsOk s.stoveTab s.ps s.sealImages = s.memOk := by
  simp only [State.memOk]
  rfl

@[simp] theorem memOk_ite (c : Prop) [Decidable c] (s t : State) : (if c then s else t).memOk = if c then s.memOk else t.memOk :=
  apply_ite State.memOk c s t

theorem memOk_ite_of {c : Prop} [Decidable c] {s t : State} (hs : s.memOk = true) (ht : t.memOk = true) :
    (if c then s else t).memOk = true := by
  split <;> assumption

@[simp] theorem Stove.memOk_ite (c : Prop) [Decidable c] (v w : Stove) : (if c then v else w).memOk = if c then v.memOk else w.memOk :=
  apply_ite Stove.memOk c v w

/-- An update of a stove that writes neither SRAM leaves its memories. -/
@[simp] theorem Stove.memOk_mk (regs accs sticky lsel lsp lff isram dsram cache state fenced tripReq trapMask trapAction psBank psFirst psCount
    lastCause psBusy psStatus cacheMiss laws ports forceBind msgBind recBind run loopWait tripPend stopping ovrPend trapPend
    gapLoops safeJump dueWrites) :
    (Stove.mk regs accs sticky lsel lsp lff isram dsram cache state fenced tripReq trapMask trapAction psBank psFirst psCount
      lastCause psBusy psStatus cacheMiss laws ports forceBind msgBind recBind run loopWait tripPend stopping ovrPend trapPend
      gapLoops safeJump dueWrites).memOk
      = (memWf 0#8 isram && memWf 0#8 dsram) := by
  simp only [Stove.memOk]
  rfl

@[simp] theorem Stove.memOk_eta (v : Stove) : (memWf 0#8 v.isram && memWf 0#8 v.dsram) = v.memOk := by
  simp only [Stove.memOk]
  rfl

@[simp] theorem PsBank.memOk_mk (cells undef erases corrected lastOp queue running heldSince lastFill) :
    (PsBank.mk cells undef erases corrected lastOp queue running heldSince lastFill).memOk = memWf 255#8 cells := by
  simp only [PsBank.memOk]
  rfl

@[simp] theorem PsBank.memOk_eta (b : PsBank) : memWf 255#8 b.cells = b.memOk := by
  simp only [PsBank.memOk]
  rfl

theorem Stove.memOk_default : ({} : Stove).memOk = true := rfl
theorem PsBank.memOk_default : ({} : PsBank).memOk = true := rfl

@[simp] theorem memsOk_tmod_stove {d : Stove} {f : Stove → Stove} (hd : d.memOk = true) (hf : ∀ v, (f v).memOk = v.memOk) (st : Tab Stove)
    (ps : Tab PsBank) (si : Tab SealImage) (n : Nat) : memsOk (tmod d st n f) ps si = memsOk st ps si := by
  simp only [memsOk, all_tmod_eq hd hf]

@[simp] theorem memsOk_tmod_bank {d : PsBank} {f : PsBank → PsBank} (hd : d.memOk = true) (hf : ∀ b, (f b).memOk = b.memOk) (st : Tab Stove)
    (ps : Tab PsBank) (si : Tab SealImage) (k : Nat) : memsOk st (tmod d ps k f) si = memsOk st ps si := by
  simp only [memsOk, all_tmod_eq hd hf]

@[simp] theorem memsOk_map_stove {f : Nat × Stove → Stove} (hf : ∀ e, (f e).memOk = e.2.memOk) (st : Tab Stove) (ps : Tab PsBank)
    (si : Tab SealImage) : memsOk (st.map (fun e => (e.1, f e))) ps si = memsOk st ps si := by
  simp only [memsOk, all_map_eq hf]

@[simp] theorem memsOk_map_bank {f : Nat × PsBank → PsBank} (hf : ∀ e, (f e).memOk = e.2.memOk) (st : Tab Stove) (ps : Tab PsBank)
    (si : Tab SealImage) : memsOk st (ps.map (fun e => (e.1, f e))) si = memsOk st ps si := by
  simp only [memsOk, all_map_eq hf]

/-- An update of one stove, or of one bank, that leaves its memories, or keeps them canonical. -/
@[simp] theorem memOk_modStove {f : Stove → Stove} (hf : ∀ v, (f v).memOk = v.memOk) (s : State) (n : Nat) :
    (s.modStove n f).memOk = s.memOk :=
  memsOk_tmod_stove Stove.memOk_default hf _ _ _ n

@[simp] theorem memOk_modBank {f : PsBank → PsBank} (hf : ∀ b, (f b).memOk = b.memOk) (s : State) (k : Nat) :
    (s.modBank k f).memOk = s.memOk :=
  memsOk_tmod_bank PsBank.memOk_default hf _ _ _ k

theorem memOk_modStove_of {f : Stove → Stove} (hf : ∀ v, v.memOk = true → (f v).memOk = true) {s : State} (n : Nat)
    (h : s.memOk = true) : (s.modStove n f).memOk = true := by
  simp only [State.memOk, Bool.and_eq_true] at h ⊢
  exact ⟨⟨all_tmod_of Stove.memOk_default hf n h.1.1, h.1.2⟩, h.2⟩

theorem memOk_modBank_of {f : PsBank → PsBank} (hf : ∀ b, b.memOk = true → (f b).memOk = true) {s : State} (k : Nat)
    (h : s.memOk = true) : (s.modBank k f).memOk = true := by
  simp only [State.memOk, Bool.and_eq_true] at h ⊢
  exact ⟨h.1, all_tmod_of PsBank.memOk_default hf k h.2⟩

/-- A fold of operations that leave the memories alone leaves them alone; one of operations that keep them canonical keeps them. -/
@[simp] theorem memOk_foldl {α : Type} {f : State → α → State} (hf : ∀ s x, (f s x).memOk = s.memOk) (l : List α) (s : State) :
    (l.foldl f s).memOk = s.memOk := by
  induction l generalizing s with
  | nil => rfl
  | cons x l ih => rw [List.foldl_cons, ih, hf]

theorem memOk_foldl_of {α : Type} {f : State → α → State} (hf : ∀ s x, s.memOk = true → (f s x).memOk = true) (l : List α) {s : State}
    (h : s.memOk = true) : (l.foldl f s).memOk = true := by
  induction l generalizing s with
  | nil => exact h
  | cons x l ih => exact ih (hf s x h)

end Sys2Proof.Machine
end

section
/-! What a command's meaning answers. -/

set_option Elab.async false

namespace Sys2Proof.Machine

/-- The next state, where there is one, has its byte memories in canonical form. -/
def outOk (o : Host.Outcome State Fault Refusal) : Bool :=
  match o with
  | .next t => t.memOk
  | _ => true

@[simp] theorem outOk_next (t : State) : outOk (.next t) = t.memOk := rfl
@[simp] theorem outOk_fault (f : Fault) : outOk (.fault f) = true := rfl
@[simp] theorem outOk_ite (c : Prop) [Decidable c] (o p : Host.Outcome State Fault Refusal) :
    outOk (if c then o else p) = if c then outOk o else outOk p :=
  apply_ite outOk c o p

end Sys2Proof.Machine
end

section
/-! What each operation of the state leaves of the byte memories, in the order of the model: where it writes none of them they are as they
were, and every action and event keeps them canonical. -/

set_option Elab.async false

namespace Sys2Proof.Machine

/-! ### Of the model's file Ops -/

@[simp] theorem memOk_free (s : State) : s.free.2.memOk = s.memOk := by
  simp [State.free]

@[simp] theorem memOk_modFn (s : State) (f : Nat) (g : Fn → Fn) : (s.modFn f g).memOk = s.memOk := by
  simp [State.modFn]

@[simp] theorem memOk_modQueue (s : State) (q : Nat) (g : Queue → Queue) : (s.modQueue q g).memOk = s.memOk := by
  simp [State.modQueue]

@[simp] theorem memOk_modVec (s : State) (f v : Nat) (g : Vec → Vec) : (s.modVec f v g).memOk = s.memOk := by
  simp [State.modVec]

@[simp] theorem memOk_emit (s : State) (w : HostWrite) : (s.emit w).memOk = s.memOk := by
  simp [State.emit]

@[simp] theorem memOk_sendVia (s : State) (f : FrameOut) (g h : Nat) : (s.sendVia f g h).memOk = s.memOk := by
  simp [State.sendVia]

@[simp] theorem memOk_sendFrame (s : State) (f : FrameOut) : (s.sendFrame f).memOk = s.memOk := by
  unfold State.sendFrame
  dsimp only
  (repeat' split) <;> simp

@[simp] theorem memOk_sendBoth (s : State) (f : FrameOut) (dst : Nat) : (s.sendBoth f dst).memOk = s.memOk := by
  unfold State.sendBoth
  dsimp only
  (repeat' split) <;> simp

@[simp] theorem memOk_sendPort (s : State) (type : FrameType) (east : Bool) (body : Nat) (passing : Bool) :
    (s.sendPort type east body passing).memOk = s.memOk := by
  simp [State.sendPort]

@[simp] theorem memOk_noteCopy (s : State) (src cls fseq : Nat) : (s.noteCopy src cls fseq).memOk = s.memOk := by
  simp [State.noteCopy]

@[simp] theorem memOk_modPort (s : State) (east : Bool) (f : RingPort → RingPort) : (s.modPort east f).memOk = s.memOk := by
  simp [State.modPort]

@[simp] theorem memOk_modTile (s : State) (n : Nat) (g : Tile → Tile) : (s.modTile n g).memOk = s.memOk := by
  simp [State.modTile]

@[simp] theorem memOk_modGroup (s : State) (g : Nat) (f : Group → Group) : (s.modGroup g f).memOk = s.memOk := by
  simp [State.modGroup]

@[simp] theorem memOk_modPin (s : State) (p : Nat) (f : Pin → Pin) : (s.modPin p f).memOk = s.memOk := by
  simp [State.modPin]

@[simp] theorem memOk_modPair (s : State) (n : Nat) (f : Pair → Pair) : (s.modPair n f).memOk = s.memOk := by
  simp [State.modPair]

@[simp] theorem memOk_modStream (s : State) (k : Nat) (f : Stream → Stream) : (s.modStream k f).memOk = s.memOk := by
  simp [State.modStream]

@[simp] theorem memOk_cause (s : State) (f v : Nat) : (s.cause f v).memOk = s.memOk := by
  simp [State.cause]

@[simp] theorem memOk_queueLost (s : State) (q k : Nat) : (s.queueLost q k).memOk = s.memOk := by
  simp [State.queueLost]

/-! ### Of the model's file Events -/

@[simp] theorem memOk_logRec (s : State) (r : LogRec) : (s.logRec r).memOk = s.memOk := by
  simp [State.logRec]

@[simp] theorem memOk_logEv (s : State) (kind hearth : Nat) (subject detail : Nat) : (s.logEv kind hearth subject detail).memOk = s.memOk := by
  simp [State.logEv]

@[simp] theorem memOk_report (s : State) (det inst detail : Nat) : (s.report det inst detail).memOk = s.memOk := by
  simp [State.report]

@[simp] theorem memOk_sendAcked (s : State) (type : FrameType) (dst body : Nat) : (s.sendAcked type dst body).memOk = s.memOk := by
  simp [State.sendAcked]

@[simp] theorem memOk_replaceEvent (s : State) (f q : Nat) (e : EventRec) : (s.replaceEvent f q e).memOk = s.memOk := by
  unfold State.replaceEvent
  dsimp only
  split <;> simp

@[simp] theorem memOk_deliverEvent (s : State) (e : EventRec) : (s.deliverEvent e).memOk = s.memOk := by
  unfold State.deliverEvent
  dsimp only
  split <;> simp

@[simp] theorem memOk_raiseHeld (s : State) (held code : Nat) (hearth subject detail : Nat) :
    (s.raiseHeld held code hearth subject detail).memOk = s.memOk := by
  simp [State.raiseHeld]

@[simp] theorem memOk_raise (s : State) (code hearth : Nat) (subject detail : Nat) : (s.raise code hearth subject detail).memOk = s.memOk := by
  simp [State.raise]

@[simp] theorem memOk_raiseLim (s : State) (key code : Nat) (hearth subject detail : Nat) :
    (s.raiseLim key code hearth subject detail).memOk = s.memOk := by
  simp [State.raiseLim]

@[simp] theorem memOk_raiseFnReset (s : State) (f : Nat) : (s.raiseFnReset f).memOk = s.memOk := by
  simp [State.raiseFnReset]

@[simp] theorem memOk_raiseQueueLoss (s : State) (q : Nat) : (s.raiseQueueLoss q).memOk = s.memOk := by
  unfold State.raiseQueueLoss
  split <;> simp

@[simp] theorem memOk_stopQueue (s : State) (q err : Nat) : (s.stopQueue q err).memOk = s.memOk := by
  unfold State.stopQueue
  dsimp only
  split <;> simp

/-! ### Of the model's file Streams -/

@[simp] theorem memOk_modShare (s : State) (k : Nat) (cap : Bool) (f : Share → Share) : (s.modShare k cap f).memOk = s.memOk := by
  simp [State.modShare]

@[simp] theorem memOk_sendPacked (s : State) : s.sendPacked.memOk = s.memOk := by
  simp [State.sendPacked]

@[simp] theorem memOk_packSegment (s : State) (g : Segment) : (s.packSegment g).memOk = s.memOk := by
  simp [State.packSegment]

@[simp] theorem memOk_sendBlock (s : State) (k : Nat) (cap : Bool) (q : Nat) (b : Block) : (s.sendBlock k cap q b).memOk = s.memOk := by
  unfold State.sendBlock
  dsimp only
  split
  · exact memOk_sendFrame _ _
  · exact memOk_packSegment _ _

@[simp] theorem memOk_drainRings (s : State) : s.drainRings.memOk = s.memOk := by
  simp [State.drainRings]

@[simp] theorem memOk_dropOne (s : State) (q : Nat) : (s.dropOne q).memOk = s.memOk := by
  simp [State.dropOne]

@[simp] theorem memOk_postBlock (s : State) (k : Nat) (cap : Bool) : (s.postBlock k cap).memOk = s.memOk := by
  unfold State.postBlock
  dsimp only
  split <;> simp

@[simp] theorem memOk_endShare (s : State) (k : Nat) (cap : Bool) : (s.endShare k cap).memOk = s.memOk := by
  simp [State.endShare]

@[simp] theorem memOk_closeBlocks (s : State) (k : Nat) : (s.closeBlocks k).memOk = s.memOk := by
  unfold State.closeBlocks
  split <;> simp

@[simp] theorem memOk_toShare (s : State) (k : Nat) (cap : Bool) (w : Word) (seq time : Nat) : (s.toShare k cap w seq time).memOk = s.memOk := by
  unfold State.toShare
  dsimp only
  (repeat' split) <;> simp

@[simp] theorem memOk_toPorts (s : State) (k : Nat) (w : Word) (seq time : Nat) : (s.toPorts k w seq time).memOk = s.memOk := by
  simp [State.toPorts]

@[simp] theorem memOk_postRecord (s : State) (qid val hearth : Nat) : (s.postRecord qid val hearth).memOk = s.memOk := by
  simp [State.postRecord]

@[simp] theorem memOk_toPairs (s : State) (tile slot edge : Nat) (w : Word) (time : Nat) (bad : Bool) :
    (s.toPairs tile slot edge w time bad).memOk = s.memOk := by
  simp [State.toPairs]

@[simp] theorem memOk_epoch (s : State) (k time : Nat) : (s.epoch k time).memOk = s.memOk := by
  simp [State.epoch]

@[simp] theorem memOk_advanceSeq (s : State) (k : Nat) : (s.advanceSeq k).memOk = s.memOk := by
  simp [State.advanceSeq]

@[simp] theorem memOk_loseSample (s : State) (k time : Nat) : (s.loseSample k time).memOk = s.memOk := by
  simp [State.loseSample]

@[simp] theorem memOk_takeSample (s : State) (k time : Nat) : (s.takeSample k time).2.memOk = s.memOk := by
  simp [State.takeSample]

@[simp] theorem memOk_sendPrompt (s : State) (node : Nat) (g : Segment) : (s.sendPrompt node g).memOk = s.memOk := by
  unfold State.sendPrompt
  dsimp only
  split <;> simp

@[simp] theorem memOk_bringPorts (s : State) (k : Nat) (w : Word) (seq time : Nat) : (s.bringPorts k w seq time).memOk = s.memOk := by
  simp [State.bringPorts]

@[simp] theorem memOk_bringPonds (s : State) (k : Nat) (w : Word) (seq time : Nat) : (s.bringPonds k w seq time).memOk = s.memOk := by
  simp [State.bringPonds]

@[simp] theorem memOk_bring (s : State) (k : Nat) (w : Word) (seq time : Nat) (gap : Bool) : (s.bring k w seq time gap).memOk = s.memOk := by
  simp [State.bring]

@[simp] theorem memOk_deliver (s : State) (k : Nat) (w : Word) (time : Nat) : (s.deliver k w time).memOk = s.memOk := by
  simp [State.deliver]

/-! ### Of the model's file Admission -/

@[simp] theorem memOk_tellRates (s : State) (l : List (Nat × Nat)) : (s.tellRates l).memOk = s.memOk := by
  simp [State.tellRates]

@[simp] theorem memOk_modAge (s : State) (d : Nat) (f : DieAge → DieAge) : (s.modAge d f).memOk = s.memOk := by
  simp [State.modAge]

@[simp] theorem memOk_takePending (s : State) (d : Nat) : (s.takePending d).memOk = s.memOk := by
  simp [State.takePending]

/-! ### Of the model's file Lmap -/

@[simp] theorem memOk_tlbInsert (s : State) (t : TlbEntry) : (s.tlbInsert t).memOk = s.memOk := by
  simp [State.tlbInsert]

@[simp] theorem memOk_lmapFault (s : State) (fn q : Nat) (subject iova reason : Nat) :
    (s.lmapFault fn q subject iova reason).memOk = s.memOk := by
  simp [State.lmapFault]

@[simp] theorem memOk_stopAccess (s : State) (fn q : Nat) (iova reason : Nat) : (s.stopAccess fn q iova reason).memOk = s.memOk := by
  simp [State.stopAccess]

@[simp] theorem memOk_spend (s : State) (f bytes : Nat) : (s.spend f bytes).memOk = s.memOk := by
  simp [State.spend]

@[simp] theorem memOk_writeResult (s : State) (r : Req) (addr len val : Nat) : (s.writeResult r addr len val).memOk = s.memOk := by
  unfold State.writeResult
  split <;> simp

/-! ### Of the model's file Run -/

@[simp] theorem memOk_holdRights (s : State) (r : Req) : (s.holdRights r).memOk = s.memOk := by
  simp [State.holdRights]

@[simp] theorem memOk_touchSession (s : State) (r : Req) : (s.touchSession r).memOk = s.memOk := by
  simp [State.touchSession]

@[simp] theorem memOk_writeBack (s : State) (cells : List Host.Cell) (q : Nat) (live : Bool) : (s.writeBack cells q live).memOk = s.memOk := by
  unfold State.writeBack
  dsimp only
  split <;> simp

@[simp] theorem memOk_endQueue (s : State) (cells : List Host.Cell) (q : Nat) : (s.endQueue cells q).memOk = s.memOk := by
  simp [State.endQueue]

@[simp] theorem memOk_adminRest (s : State) (f : Nat) : (s.adminRest f).memOk = s.memOk := by
  simp [State.adminRest]

@[simp] theorem memOk_finishOne (s : State) (r : Req) (st : Status) (result : Nat) : (s.finishOne r st result).memOk = s.memOk := by
  unfold State.finishOne
  split <;> simp

@[simp] theorem memOk_finish (s : State) (r : Req) (st : Status) (result : Nat) : (s.finish r st result).memOk = s.memOk := by
  unfold State.finish
  dsimp only
  split <;> simp

@[simp] theorem memOk_startOp (s : State) (sp : CmdSpec) (key : Nat) (r : Req) (deadline note : Nat) :
    (s.startOp sp key r deadline note).memOk = s.memOk := by
  simp [State.startOp]

@[simp] theorem memOk_endOp (s : State) (opcode key : Nat) (st : Status) (result : Nat) : (s.endOp opcode key st result).memOk = s.memOk := by
  unfold State.endOp
  split <;> simp

@[simp] theorem memOk_stage (s : State) (e : ClogStaged) : (s.stage e).memOk = s.memOk := by
  simp [State.stage]

@[simp] theorem memOk_endLogged (s : State) (sp : CmdSpec) (r : Req) (w : Who) (st : Status) (result : Nat) :
    (s.endLogged sp r w st result).memOk = s.memOk := by
  simp [State.endLogged]

@[simp] theorem memOk_endOpLogged (s : State) (sp : CmdSpec) (key : Nat) (st : Status) (result : Nat) :
    (s.endOpLogged sp key st result).memOk = s.memOk := by
  unfold State.endOpLogged
  split <;> simp

/-! ### Of the model's file FrontEnd -/

@[simp] theorem memOk_modForce (s : State) (n : Nat) (f : Force → Force) : (s.modForce n f).memOk = s.memOk := by
  simp [State.modForce]

@[simp] theorem memOk_loopbackEnd (s : State) (n : Nat) (errs : List Int) (aborted : Bool) : (s.loopbackEnd n errs aborted).memOk = s.memOk := by
  unfold State.loopbackEnd
  dsimp only
  (repeat' split) <;> simp

@[simp] theorem memOk_loopbackAbort (s : State) (n : Nat) : (s.loopbackAbort n).memOk = s.memOk := by
  unfold State.loopbackAbort
  dsimp only
  (repeat' split) <;> simp

@[simp] theorem memOk_raisePin (s : State) (code p : Nat) (enabled : Bool) (detail : Nat) :
    (s.raisePin code p enabled detail).memOk = s.memOk := by
  unfold State.raisePin
  split <;> simp

@[simp] theorem memOk_execOvpOpen (m : PinMoment) (high : Bool) (s : State) (h : s.memOk = true) : outOk (execOvpOpen m high s) = true := by
  simp [execOvpOpen, h]

@[simp] theorem memOk_execOvpClose (m : PinMoment) (s : State) (h : s.memOk = true) : outOk (execOvpClose m s) = true := by
  simp [execOvpClose, h]

@[simp] theorem memOk_execCmxEntry (p : Nat) (above : Bool) (s : State) (h : s.memOk = true) : outOk (execCmxEntry p above s) = true := by
  unfold execCmxEntry
  dsimp only
  (repeat' split) <;> simp [h]

@[simp] theorem memOk_atNextEdge (s : State) (a : EdgeAct) : (s.atNextEdge a).memOk = s.memOk := by
  simp [State.atNextEdge]

@[simp] theorem memOk_reply (s : State) (r : Req) (off len val : Nat) (h : s.memOk = true) : (reply s r off len val).st.memOk = true := by
  simp [reply, h]

theorem keeps_feConfigSpec (r : Req) (s : State) (h : s.memOk = true) : (feConfigSpec.act r s).st.memOk = true := by
  simp [feConfigSpec, h]

theorem keeps_feGroupConfigSpec (r : Req) (s : State) (h : s.memOk = true) : (feGroupConfigSpec.act r s).st.memOk = true := by
  simp [feGroupConfigSpec, h]

theorem keeps_feStatusSpec (r : Req) (s : State) (h : s.memOk = true) : (feStatusSpec.act r s).st.memOk = true := by
  simp [feStatusSpec, h]

@[simp] theorem memOk_clearPin (s : State) (p : Nat) : (s.clearPin p).memOk = s.memOk := by
  simp [State.clearPin]

/-! ### Of the model's file Seq -/

@[simp] theorem memOk_modSeq (s : State) (n : Nat) (f : Seq → Seq) : (s.modSeq n f).memOk = s.memOk := by
  simp [State.modSeq]

@[simp] theorem memOk_closeTile (s : State) (n : Nat) (p : Nat → Bool) : (s.closeTile n p).memOk = s.memOk := by
  simp [State.closeTile]

@[simp] theorem memOk_reserveRecovers (s : State) (g : Nat) (slots : List Nat) : (s.reserveRecovers g slots).memOk = s.memOk := by
  simp [State.reserveRecovers]

@[simp] theorem memOk_recoverOne (s : State) (n slot : Nat) : (s.recoverOne n slot).memOk = s.memOk := by
  simp [State.recoverOne]

@[simp] theorem memOk_recoverTile (s : State) (n : Nat) : (s.recoverTile n).memOk = s.memOk := by
  simp [State.recoverTile]

@[simp] theorem memOk_seqAt (s : State) (n e : Nat) : (s.seqAt n e).memOk = s.memOk := by
  simp [State.seqAt]

@[simp] theorem memOk_seqEnter (s : State) (n at_ : Nat) : (s.seqEnter n at_).memOk = s.memOk := by
  unfold State.seqEnter
  split <;> simp

@[simp] theorem memOk_seqStop (s : State) (n : Nat) (keep : Bool) : (s.seqStop n keep).memOk = s.memOk := by
  simp [State.seqStop]

@[simp] theorem memOk_seqRespace (s : State) (n : Nat) (rest : Option Nat) : (s.seqRespace n rest).memOk = s.memOk := by
  simp [State.seqRespace]

@[simp] theorem memOk_seqAcross (s : State) (n at_ : Nat) (rest : Option Nat) : (s.seqAcross n at_ rest).memOk = s.memOk := by
  simp [State.seqAcross]

@[simp] theorem memOk_seqResume (s : State) (n at_ : Nat) : (s.seqResume n at_).memOk = s.memOk := by
  unfold State.seqResume
  dsimp only
  split <;> simp

@[simp] theorem memOk_arrive (s : State) (m : TrigMsg) : (s.arrive m).memOk = s.memOk := by
  simp [State.arrive]

@[simp] theorem memOk_sendTriggers (s : State) (src at64 : Nat) (p : Nat → Seq → Bool) : (s.sendTriggers src at64 p).memOk = s.memOk := by
  simp [State.sendTriggers]

@[simp] theorem memOk_execTriggerArrival (s : State) (h : s.memOk = true) : outOk (execTriggerArrival s) = true := by
  unfold execTriggerArrival
  split <;> simp [h]

@[simp] theorem memOk_execRunStart (n : Nat) (s : State) (h : s.memOk = true) : outOk (execRunStart n s) = true := by
  unfold execRunStart
  dsimp only
  (repeat' split) <;> simp [h]

@[simp] theorem memOk_execRunEnd (n : Nat) (s : State) (h : s.memOk = true) : outOk (execRunEnd n s) = true := by
  simp [execRunEnd, h]

@[simp] theorem memOk_seqAdvance (s : State) (n e : Nat) : (s.seqAdvance n e).memOk = s.memOk := by
  unfold State.seqAdvance
  dsimp only
  split <;> simp

@[simp] theorem memOk_commitSlot (s : State) (n : Nat) (old : List Nat) (new : List Nat) (i : Nat) :
    (s.commitSlot n old new i).memOk = s.memOk := by
  unfold State.commitSlot
  dsimp only
  split <;> simp

@[simp] theorem memOk_applyCommit (s : State) (n e : Nat) (c : SeqCommit) : (s.applyCommit n e c).memOk = s.memOk := by
  unfold State.applyCommit
  (repeat' split) <;> simp

@[simp] theorem memOk_execSeqCommitEffective (n : Nat) (s : State) (h : s.memOk = true) : outOk (execSeqCommitEffective n s) = true := by
  unfold execSeqCommitEffective
  (repeat' split) <;> simp [h]

theorem keeps_seqSlotsSpec (r : Req) (s : State) (h : s.memOk = true) : (seqSlotsSpec.act r s).st.memOk = true := by
  simp [seqSlotsSpec, h]

theorem keeps_seqCommitSpec (r : Req) (s : State) (h : s.memOk = true) : (seqCommitSpec.act r s).st.memOk = true := by
  unfold seqCommitSpec
  dsimp only
  split <;> simp [h]

theorem keeps_seqArmSpec (r : Req) (s : State) (h : s.memOk = true) : (seqArmSpec.act r s).st.memOk = true := by
  unfold seqArmSpec
  dsimp only
  split <;> simp [h]

theorem keeps_seqTriggerSpec (r : Req) (s : State) (h : s.memOk = true) : (seqTriggerSpec.act r s).st.memOk = true := by
  unfold seqTriggerSpec
  dsimp only
  split <;> simp [h]

theorem keeps_seqStatusSpec (r : Req) (s : State) (h : s.memOk = true) : (seqStatusSpec.act r s).st.memOk = true := by
  simp [seqStatusSpec, h]

/-! ### Of the model's file CalBase -/

@[simp] theorem memOk_modCal (s : State) (c : Nat) (f : CalCore → CalCore) : (s.modCal c f).memOk = s.memOk := by
  simp [State.modCal]

@[simp] theorem memOk_modSched (s : State) (g : Nat) (f : GroupCal → GroupCal) : (s.modSched g f).memOk = s.memOk := by
  simp [State.modSched]

@[simp] theorem memOk_modCore (s : State) (c : Nat) (f : Core → Core) : (s.modCore c f).memOk = s.memOk := by
  simp [State.modCore]

@[simp] theorem memOk_converted (s : State) (c k forced : Nat) : (s.converted c k forced).memOk = s.memOk := by
  simp [State.converted]

@[simp] theorem memOk_setUse (s : State) (g : Nat) (u : ReserveUse) : (s.setUse g u).memOk = s.memOk := by
  unfold State.setUse
  split <;> simp

@[simp] theorem memOk_passCut (s : State) (c : Nat) (x : CalRun) : (s.passCut c x).memOk = s.memOk := by
  simp [State.passCut]

@[simp] theorem memOk_calAbort (s : State) (c : Nat) : (s.calAbort c).memOk = s.memOk := by
  unfold State.calAbort
  split <;> simp

@[simp] theorem memOk_calLeave (s : State) (n : Nat) : (s.calLeave n).memOk = s.memOk := by
  unfold State.calLeave
  dsimp only
  split <;> simp

@[simp] theorem memOk_calYield (s : State) (n : Nat) : (s.calYield n).memOk = s.memOk := by
  simp [State.calYield]

@[simp] theorem memOk_checkReady (s : State) : s.checkReady.memOk = s.memOk := by
  simp [State.checkReady]

/-! ### Of the model's file AgeBase -/

@[simp] theorem memOk_sootEvent (s : State) (code d i : Nat) : (s.sootEvent code d i).memOk = s.memOk := by
  simp [State.sootEvent]

@[simp] theorem memOk_gaugeUpdate (s : State) (d i : Nat) (raw : Int) : (s.gaugeUpdate d i raw).memOk = s.memOk := by
  simp [State.gaugeUpdate]

@[simp] theorem memOk_triadCheck (s : State) (d div : Nat) (out : Option Nat) : (s.triadCheck d div out).memOk = s.memOk := by
  simp [State.triadCheck]

@[simp] theorem memOk_gaugesOfCal (s : State) (d worst : Nat) (anchor headroom : Nat) :
    (s.gaugesOfCal d worst anchor headroom).memOk = s.memOk := by
  simp [State.gaugesOfCal]

/-! ### Of the model's file ClogBase -/

@[simp] theorem memOk_copyEntry (s : State) (e : BitVec 512) : (s.copyEntry e).memOk = s.memOk := by
  unfold State.copyEntry
  extract_lets c put
  have hput : ∀ s c, (put s c).memOk = s.memOk := fun s c => by
    unfold put
    (repeat' split) <;> simp
  split
  · exact memOk_sendFrame _ _
  · rw [hput, hput]

@[simp] theorem memOk_clogAppend (s : State) (x : ClogStaged) : (s.clogAppend x).memOk = s.memOk := by
  simp [State.clogAppend]

@[simp] theorem memOk_stageDevice (s : State) (action detail : Nat) : (s.stageDevice action detail).memOk = s.memOk := by
  simp [State.stageDevice]

/-! ### Of the model's file Force -/

@[simp] theorem memOk_execForceUpdate (n : Nat) (s : State) (h : s.memOk = true) : outOk (execForceUpdate n s) = true := by
  simp [execForceUpdate, h]

@[simp] theorem memOk_rejectTarget (s : State) (n : Nat) : (s.rejectTarget n).memOk = s.memOk := by
  simp [State.rejectTarget]

@[simp] theorem memOk_takeTarget (s : State) (n : Nat) (w : Word) : (s.takeTarget n w).memOk = s.memOk := by
  simp [State.takeTarget]

@[simp] theorem memOk_stoveTarget (s : State) (sv n : Nat) (w : Word) : (s.stoveTarget sv n w).memOk = s.memOk := by
  simp [State.stoveTarget]

@[simp] theorem memOk_enterForce (s : State) (n : Nat) : (s.enterForce n).memOk = s.memOk := by
  simp [State.enterForce]

@[simp] theorem memOk_leaveForce (s : State) (n : Nat) : (s.leaveForce n).memOk = s.memOk := by
  simp [State.leaveForce]

@[simp] theorem memOk_setMode (s : State) (n : Nat) (m : TileMode) : (s.setMode n m).memOk = s.memOk := by
  simp [State.setMode]

@[simp] theorem memOk_beginConverting (s : State) (n at_ : Nat) : (s.beginConverting n at_).memOk = s.memOk := by
  simp [State.beginConverting]

@[simp] theorem memOk_forceOn (s : State) (n : Nat) (m : TileMode) : (s.forceOn n m).memOk = s.memOk := by
  simp [State.forceOn]

@[simp] theorem memOk_enterMode (s : State) (n : Nat) (m : TileMode) (at_ : Nat) : (s.enterMode n m at_).memOk = s.memOk := by
  unfold State.enterMode
  dsimp only
  split <;> simp

@[simp] theorem memOk_modeDone (s : State) (n : Nat) : (s.modeDone n).memOk = s.memOk := by
  simp [State.modeDone]

@[simp] theorem memOk_execRampDownDone (n : Nat) (s : State) (h : s.memOk = true) : outOk (execRampDownDone n s) = true := by
  simp [execRampDownDone, h]

@[simp] theorem memOk_rampCut (s : State) (n : Nat) : (s.rampCut n).memOk = s.memOk := by
  simp [State.rampCut]

@[simp] theorem memOk_forceLost (s : State) (n : Nat) : (s.forceLost n).memOk = s.memOk := by
  simp [State.forceLost]

@[simp] theorem memOk_safeAction (s : State) (n : Nat) : (s.safeAction n).memOk = s.memOk := by
  simp [State.safeAction]

@[simp] theorem memOk_safeActions (s : State) (l : List Nat) : (s.safeActions l).memOk = s.memOk := by
  simp [State.safeActions]

@[simp] theorem memOk_forceEvent (s : State) (n code detail : Nat) (on : Bool) : (s.forceEvent n code detail on).memOk = s.memOk := by
  simp [State.forceEvent]

@[simp] theorem memOk_foldBack (s : State) (n : Nat) (contention : Bool) : (s.foldBack n contention).memOk = s.memOk := by
  simp [State.foldBack]

@[simp] theorem memOk_modKindle (s : State) (d : Nat) (f : KindleDie → KindleDie) : (s.modKindle d f).memOk = s.memOk := by
  simp [State.modKindle]

@[simp] theorem memOk_kindleTile (s : State) (n : Nat) : (s.kindleTile n).memOk = s.memOk := by
  simp [State.kindleTile]

@[simp] theorem memOk_resumeForce (s : State) (n : Nat) : (s.resumeForce n).memOk = s.memOk := by
  simp [State.resumeForce]

@[simp] theorem memOk_resumeTile (s : State) (n : Nat) : (s.resumeTile n).memOk = s.memOk := by
  simp [State.resumeTile]

@[simp] theorem memOk_modeEdge (s : State) (n : Nat) (m : TileMode) (ramp : Bool) : (s.modeEdge n m ramp).memOk = s.memOk := by
  simp [State.modeEdge]

@[simp] theorem memOk_edgeAct (s : State) (y : EdgeAct) : (s.edgeAct y).memOk = s.memOk := by
  unfold State.edgeAct
  split <;> simp

@[simp] theorem memOk_edgeActs (s : State) : s.edgeActs.memOk = s.memOk := by
  simp [State.edgeActs]

@[simp] theorem memOk_execKindleQueueSlot (die : Nat) (s : State) (h : s.memOk = true) : outOk (execKindleQueueSlot die s) = true := by
  unfold execKindleQueueSlot
  dsimp only
  (repeat' split) <;> simp [h]

theorem keeps_tileModeSpec (r : Req) (s : State) (h : s.memOk = true) : (tileModeSpec.act r s).st.memOk = true := by
  simp [tileModeSpec, h]

theorem keeps_forceConfigSpec (r : Req) (s : State) (h : s.memOk = true) : (forceConfigSpec.act r s).st.memOk = true := by
  simp [forceConfigSpec, h]

theorem keeps_forceTargetSpec (r : Req) (s : State) (h : s.memOk = true) : (forceTargetSpec.act r s).st.memOk = true := by
  simp [forceTargetSpec, h]

theorem keeps_forceRestartSpec (r : Req) (s : State) (h : s.memOk = true) : (forceRestartSpec.act r s).st.memOk = true := by
  unfold forceRestartSpec
  dsimp only
  split <;> simp [h]

theorem keeps_forceStatusSpec (r : Req) (s : State) (h : s.memOk = true) : (forceStatusSpec.act r s).st.memOk = true := by
  simp [forceStatusSpec, h]

@[simp] theorem memOk_loopbackStep (s : State) (n i levels : Nat) : (s.loopbackStep n i levels).memOk = s.memOk := by
  simp [State.loopbackStep]

theorem keeps_forceLoopbackSpec (r : Req) (s : State) (h : s.memOk = true) : (forceLoopbackSpec.act r s).st.memOk = true := by
  simp [forceLoopbackSpec, h]

@[simp] theorem memOk_execLoopbackLevelDone (n : Nat) (l : LevelSum) (s : State) (h : s.memOk = true) :
    outOk (execLoopbackLevelDone n l s) = true := by
  unfold execLoopbackLevelDone
  split <;> simp [h]

/-! ### Of the model's file Chains -/

@[simp] theorem memOk_modChain (s : State) (n c : Nat) (f : Chain → Chain) : (s.modChain n c f).memOk = s.memOk := by
  simp [State.modChain]

@[simp] theorem memOk_chainEvent (s : State) (n c code : Nat) (on : Bool) (cnt : Nat) : (s.chainEvent n c code on cnt).memOk = s.memOk := by
  simp [State.chainEvent]

@[simp] theorem memOk_guardOverflow (s : State) (n c time : Nat) : (s.guardOverflow n c time).memOk = s.memOk := by
  simp [State.guardOverflow]

@[simp] theorem memOk_filterClamp (s : State) (n c : Nat) : (s.filterClamp n c).memOk = s.memOk := by
  simp [State.filterClamp]

@[simp] theorem memOk_chainOut (s : State) (n c slot : Nat) (y g : Int) (flags edge : Nat) (time seq : Nat) (gap bad : Bool) :
    (s.chainOut n c slot y g flags edge time seq gap bad).memOk = s.memOk := by
  simp [State.chainOut]

@[simp] theorem memOk_chainMiss (s : State) (n c : Nat) (slot e time : Nat) : (s.chainMiss n c slot e time).memOk = s.memOk := by
  simp [State.chainMiss]

@[simp] theorem memOk_chainFeed (s : State) (n c slot : Nat) (w : Word) (e time : Nat) (bad : Bool) :
    (s.chainFeed n c slot w e time bad).memOk = s.memOk := by
  simp [State.chainFeed]

@[simp] theorem memOk_dropJobs (s : State) (p : Job → Bool) : (s.dropJobs p).memOk = s.memOk := by
  simp [State.dropJobs]

@[simp] theorem memOk_execEngineJob (e : LaneEnd) (s : State) (h : s.memOk = true) : outOk (execEngineJob e s) = true := by
  unfold execEngineJob
  (repeat' split) <;> simp [h]

theorem keeps_filtSwapSpec (r : Req) (s : State) (h : s.memOk = true) : (filtSwapSpec.act r s).st.memOk = true := by
  simp [filtSwapSpec, h]

@[simp] theorem memOk_execSwapInstant (n c : Nat) (s : State) (h : s.memOk = true) : outOk (execSwapInstant n c s) = true := by
  unfold execSwapInstant
  dsimp only
  (repeat' split) <;> simp [h]

@[simp] theorem memOk_execSwapComplete (n c : Nat) (s : State) (h : s.memOk = true) : outOk (execSwapComplete n c s) = true := by
  unfold execSwapComplete
  dsimp only
  (repeat' split) <;> simp [h]

theorem keeps_filtConfigSpec (r : Req) (s : State) (h : s.memOk = true) : (filtConfigSpec.act r s).st.memOk = true := by
  simp [filtConfigSpec, h]

theorem keeps_filtPresetSpec (r : Req) (s : State) (h : s.memOk = true) : (filtPresetSpec.act r s).st.memOk = true := by
  simp [filtPresetSpec, h]

theorem keeps_filtCoefSpec (r : Req) (s : State) (h : s.memOk = true) : (filtCoefSpec.act r s).st.memOk = true := by
  simp [filtCoefSpec, h]

theorem keeps_filtAdmitSpec (r : Req) (s : State) (h : s.memOk = true) : (filtAdmitSpec.act r s).st.memOk = true := by
  simp [filtAdmitSpec, h]

theorem keeps_filtStatusSpec (r : Req) (s : State) (h : s.memOk = true) : (filtStatusSpec.act r s).st.memOk = true := by
  simp [filtStatusSpec, h]

theorem keeps_filtDcbSpec (r : Req) (s : State) (h : s.memOk = true) : (filtDcbSpec.act r s).st.memOk = true := by
  simp [filtDcbSpec, h]

theorem keeps_filtDcbReadSpec (r : Req) (s : State) (h : s.memOk = true) : (filtDcbReadSpec.act r s).st.memOk = true := by
  simp [filtDcbReadSpec, h]

/-! ### Of the model's file LoopBase -/

@[simp] theorem memOk_loopEvent (s : State) (sv k : Nat) (old new : Nat) (cfg cause : Nat) :
    (s.loopEvent sv k old new cfg cause).memOk = s.memOk := by
  simp [State.loopEvent]

@[simp] theorem Stove.memOk_modLaw (v : Stove) (i : Nat) (f : Law → Law) : (v.modLaw i f).memOk = v.memOk := by
  simp [Stove.modLaw]

/-! ### Of the model's file Protect -/

@[simp] theorem memOk_modProt (s : State) (f : Prot → Prot) : (s.modProt f).memOk = s.memOk := by
  simp [State.modProt]

@[simp] theorem memOk_modConn (s : State) (c : Nat) (f : Conn → Conn) : (s.modConn c f).memOk = s.memOk := by
  simp [State.modConn]

@[simp] theorem memOk_pduEvent (s : State) (node c : Nat) (qid part : Nat) (bytes : List Byte) :
    (s.pduEvent node c qid part bytes).memOk = s.memOk := by
  simp [State.pduEvent]

@[simp] theorem memOk_pduToHost (s : State) (node c qid : Nat) (pdu : List Byte) : (s.pduToHost node c qid pdu).memOk = s.memOk := by
  simp [State.pduToHost]

@[simp] theorem memOk_emitPdu (s : State) (c : Nat) (b : PduBody) : (s.emitPdu c b).memOk = s.memOk := by
  simp [State.emitPdu]

@[simp] theorem memOk_formPdu (s : State) (c : Nat) (b : PduBody) : (s.formPdu c b).memOk = s.memOk := by
  simp [State.formPdu]

@[simp] theorem memOk_safeState (s : State) : s.safeState.memOk = s.memOk := by
  simp [State.safeState]

@[simp] theorem memOk_execHeartbeatTimer (c : Nat) (s : State) (h : s.memOk = true) : outOk (execHeartbeatTimer c s) = true := by
  simp [execHeartbeatTimer, h]

@[simp] theorem memOk_execPduHoldRelease (c : Nat) (s : State) (h : s.memOk = true) : outOk (execPduHoldRelease c s) = true := by
  unfold execPduHoldRelease
  dsimp only
  split <;> simp [h]

@[simp] theorem memOk_rejectPdu (s : State) (c verdict : Nat) : (s.rejectPdu c verdict).memOk = s.memOk := by
  simp [State.rejectPdu]

@[simp] theorem memOk_execTripLoopChange (range : Nat) (s : State) (h : s.memOk = true) : outOk (execTripLoopChange range s) = true := by
  simp [execTripLoopChange, h]

@[simp] theorem memOk_execMinPulseEnd (s : State) (h : s.memOk = true) : outOk (execMinPulseEnd s) = true := by
  simp [execMinPulseEnd, h]

theorem keeps_safeStatusSpec (r : Req) (s : State) (h : s.memOk = true) : (safeStatusSpec.act r s).st.memOk = true := by
  unfold safeStatusSpec
  dsimp only
  (repeat' split) <;> simp [h]

/-! ### Of the model's file RawPath -/

@[simp] theorem memOk_modTc (s : State) (n c : Nat) (f : Tc → Tc) : (s.modTc n c f).memOk = s.memOk := by
  simp [State.modTc]

@[simp] theorem memOk_missConversion (s : State) (n slot : Nat) (d e time : Nat) : (s.missConversion n slot d e time).memOk = s.memOk := by
  simp [State.missConversion]

@[simp] theorem memOk_trackSlot (s : State) (n slot : Nat) (diff : Int) : (s.trackSlot n slot diff).memOk = s.memOk := by
  simp [State.trackSlot]

@[simp] theorem memOk_spanOut (s : State) (n slot time : Nat) (w : CoreWord) : (s.spanOut n slot time w).memOk = s.memOk := by
  simp [State.spanOut]

@[simp] theorem memOk_convertedFor (s : State) (n k : Nat) (f : Forced) : (s.convertedFor n k f).memOk = s.memOk := by
  simp [State.convertedFor]

@[simp] theorem memOk_measured (s : State) (n : Nat) (r : Int) (forced : Nat) : (s.measured n r forced).memOk = s.memOk := by
  simp [State.measured]

@[simp] theorem memOk_execFlushExpiry (q : Nat) (s : State) (h : s.memOk = true) : outOk (execFlushExpiry q s) = true := by
  simp [execFlushExpiry, h]

theorem keeps_coreStatusSpec (r : Req) (s : State) (h : s.memOk = true) : (coreStatusSpec.act r s).st.memOk = true := by
  simp [coreStatusSpec, h]

theorem keeps_coreClearCountsSpec (r : Req) (s : State) (h : s.memOk = true) : (coreClearCountsSpec.act r s).st.memOk = true := by
  simp [coreClearCountsSpec, h]

theorem keeps_tcResetSpec (r : Req) (s : State) (h : s.memOk = true) : (tcResetSpec.act r s).st.memOk = true := by
  simp [tcResetSpec, h]

theorem keeps_tcStatusSpec (r : Req) (s : State) (h : s.memOk = true) : (tcStatusSpec.act r s).st.memOk = true := by
  simp [tcStatusSpec, h]

/-! ### Of the model's file Calibration -/

@[simp] theorem memOk_modRows (s : State) (d : Nat) (f : Rows → Rows) : (s.modRows d f).memOk = s.memOk := by
  simp [State.modRows]

@[simp] theorem memOk_calEvent (s : State) (code c detail : Nat) (on : Bool) : (s.calEvent code c detail on).memOk = s.memOk := by
  simp [State.calEvent]

@[simp] theorem memOk_newSeed (s : State) (c : Nat) : (s.newSeed c).2.memOk = s.memOk := by
  simp [State.newSeed]

@[simp] theorem memOk_nextPass (s : State) (c : Nat) (x : CalRun) : (s.nextPass c x).memOk = s.memOk := by
  simp [State.nextPass]

@[simp] theorem memOk_loadRowTrims (s : State) (c : Nat) : (s.loadRowTrims c).memOk = s.memOk := by
  simp [State.loadRowTrims]

@[simp] theorem memOk_calStart (s : State) (c : Nat) (why : CalWhy) (inPlace : Bool) : (s.calStart c why inPlace).memOk = s.memOk := by
  simp [State.calStart]

@[simp] theorem memOk_powerUpCal (s : State) (l : List Nat) : (s.powerUpCal l).memOk = s.memOk := by
  simp [State.powerUpCal]

@[simp] theorem memOk_calOwed (s : State) (c : Nat) : (s.calOwed c).memOk = s.memOk := by
  simp [State.calOwed]

@[simp] theorem memOk_calFailed (s : State) (c cause : Nat) (kept : Bool) (set : CalSet) : (s.calFailed c cause kept set).memOk = s.memOk := by
  simp [State.calFailed]

@[simp] theorem memOk_calGauges (s : State) (c drift : Nat) : (s.calGauges c drift).memOk = s.memOk := by
  simp [State.calGauges]

@[simp] theorem memOk_calApply (s : State) (c : Nat) (x : CalRun) (a : PassResult) (t : Trims) : (s.calApply c x a t).memOk = s.memOk := by
  simp [State.calApply]

@[simp] theorem memOk_handBack (s : State) (n : Nat) : (s.handBack n).memOk = s.memOk := by
  simp [State.handBack]

@[simp] theorem memOk_calEnd (s : State) (c : Nat) (x : CalRun) (ok : Bool) : (s.calEnd c x ok).memOk = s.memOk := by
  unfold State.calEnd
  dsimp only
  split <;> simp

@[simp] theorem memOk_calFail (s : State) (c : Nat) (x : CalRun) (cause : Nat) : (s.calFail c x cause).memOk = s.memOk := by
  simp [State.calFail]

@[simp] theorem memOk_execCoarseSearchDone (c : Nat) (offset gain : Int) (weights : List Int) (pga : List Int) (done : CoarseEnd)
    (s : State) (h : s.memOk = true) : outOk (execCoarseSearchDone c offset gain weights pga done s) = true := by
  unfold execCoarseSearchDone
  split <;> simp [h]

@[simp] theorem memOk_execCalPassDone (c : Nat) (p : CalPass) (s : State) (h : s.memOk = true) : outOk (execCalPassDone c p s) = true := by
  unfold execCalPassDone
  dsimp only
  (repeat' split) <;> simp [h]

@[simp] theorem memOk_execTriadSettled (die : Nat) (s : State) (h : s.memOk = true) : outOk (execTriadSettled die s) = true := by
  simp [execTriadSettled, h]

@[simp] theorem memOk_execTempCompensation (die : Nat) (temp : Int) (s : State) (h : s.memOk = true) :
    outOk (execTempCompensation die temp s) = true := by
  simp [execTempCompensation, h]

@[simp] theorem memOk_track (s : State) (g n : Nat) (k : DemandKind) : (s.track g n k).memOk = s.memOk := by
  simp [State.track]

@[simp] theorem memOk_standIn (s : State) (g n : Nat) : (s.standIn g n).memOk = s.memOk := by
  simp [State.standIn]

@[simp] theorem memOk_substitute (s : State) (g n : Nat) : (s.substitute g n).memOk = s.memOk := by
  simp [State.substitute]

@[simp] theorem memOk_calAlone (s : State) (k : DemandKind) (c : Nat) : (s.calAlone k c).memOk = s.memOk := by
  unfold State.calAlone
  split <;> simp

@[simp] theorem memOk_serve (s : State) (g : Nat) (k : DemandKind) (c : Nat) : (s.serve g k c).memOk = s.memOk := by
  unfold State.serve
  split <;> simp

@[simp] theorem memOk_serveNext (s : State) (g : Nat) : (s.serveNext g).memOk = s.memOk := by
  unfold State.serveNext
  dsimp only
  (repeat' split) <;> simp

@[simp] theorem memOk_execFaultSubstitution (g : Nat) (s : State) (h : s.memOk = true) : outOk (execFaultSubstitution g s) = true := by
  simp [execFaultSubstitution, h]

@[simp] theorem memOk_gapNext (s : State) (n : Nat) : (s.gapNext n).memOk = s.memOk := by
  simp [State.gapNext]

@[simp] theorem memOk_coverCut (s : State) (m : Nat) : (s.coverCut m).memOk = s.memOk := by
  simp [State.coverCut]

@[simp] theorem memOk_trackCut (s : State) (g m : Nat) : (s.trackCut g m).memOk = s.memOk := by
  unfold State.trackCut
  dsimp only
  split <;> simp

@[simp] theorem memOk_faultDemand (s : State) (g n : Nat) : (s.faultDemand g n).memOk = s.memOk := by
  simp [State.faultDemand]

@[simp] theorem memOk_coreLost (s : State) (n : Nat) : (s.coreLost n).memOk = s.memOk := by
  unfold State.coreLost
  dsimp only
  (repeat' split) <;> simp

@[simp] theorem memOk_reserveLost (s : State) (g : Nat) : (s.reserveLost g).memOk = s.memOk := by
  unfold State.reserveLost
  dsimp only
  split <;> simp

@[simp] theorem memOk_coreBack (s : State) (c : Nat) : (s.coreBack c).memOk = s.memOk := by
  simp [State.coreBack]

@[simp] theorem memOk_execTrackingDone (g : Nat) (s : State) (h : s.memOk = true) : outOk (execTrackingDone g s) = true := by
  unfold execTrackingDone
  (repeat' split) <;> simp [h]

@[simp] theorem memOk_execHandBackDone (g : Nat) (s : State) (h : s.memOk = true) : outOk (execHandBackDone g s) = true := by
  unfold execHandBackDone
  (repeat' split) <;> simp [h]

@[simp] theorem memOk_execHandoverTimeout (g : Nat) (s : State) (h : s.memOk = true) : outOk (execHandoverTimeout g s) = true := by
  unfold execHandoverTimeout
  dsimp only
  (repeat' split) <;> simp [h]

@[simp] theorem memOk_execRollingStep (g : Nat) (s : State) (h : s.memOk = true) : outOk (execRollingStep g s) = true := by
  simp [execRollingStep, h]

theorem keeps_calRunSpec (r : Req) (s : State) (h : s.memOk = true) : (calRunSpec.act r s).st.memOk = true := by
  simp [calRunSpec, h]

theorem keeps_calStatusSpec (r : Req) (s : State) (h : s.memOk = true) : (calStatusSpec.act r s).st.memOk = true := by
  simp [calStatusSpec, h]

theorem keeps_calRowBurnSpec (r : Req) (s : State) (h : s.memOk = true) : (calRowBurnSpec.act r s).st.memOk = true := by
  simp [calRowBurnSpec, h]

@[simp] theorem memOk_burnRow (s : State) (d row : Nat) (img : List Byte) (complete : Bool) : (s.burnRow d row img complete).memOk = s.memOk := by
  simp [State.burnRow]

@[simp] theorem memOk_rowTaken (s : State) (d row : Nat) : (s.rowTaken d row).memOk = s.memOk := by
  simp [State.rowTaken]

@[simp] theorem memOk_execRowBurnDone (die : Nat) (ok : Bool) (s : State) (h : s.memOk = true) : outOk (execRowBurnDone die ok s) = true := by
  unfold execRowBurnDone
  (repeat' split) <;> simp [h]

theorem keeps_calRowReadSpec (r : Req) (s : State) (h : s.memOk = true) : (calRowReadSpec.act r s).st.memOk = true := by
  simp [calRowReadSpec, h]

theorem keeps_calSubstSpec (r : Req) (s : State) (h : s.memOk = true) : (calSubstSpec.act r s).st.memOk = true := by
  simp [calSubstSpec, h]

/-! ### Of the model's file Meter -/

@[simp] theorem memOk_closeWindow (s : State) (n : Nat) (short : Bool) : (s.closeWindow n short).memOk = s.memOk := by
  simp [State.closeWindow]

@[simp] theorem memOk_openWindow (s : State) (n e : Nat) (short : Bool) : (s.openWindow n e short).memOk = s.memOk := by
  simp [State.openWindow]

@[simp] theorem memOk_pairBegin (s : State) (n e : Nat) : (s.pairBegin n e).memOk = s.memOk := by
  simp [State.pairBegin]

@[simp] theorem memOk_execPairStart (n : Nat) (s : State) (h : s.memOk = true) : outOk (execPairStart n s) = true := by
  simp [execPairStart, h]

@[simp] theorem memOk_execPairInstant (n : Nat) (s : State) (h : s.memOk = true) : outOk (execPairInstant n s) = true := by
  simp [execPairInstant, h]

@[simp] theorem memOk_captureRecord (s : State) (k : RecordKind) : (s.captureRecord k).memOk = s.memOk := by
  simp [State.captureRecord]

@[simp] theorem memOk_execPeriodicRecord (s : State) (h : s.memOk = true) : outOk (execPeriodicRecord s) = true := by
  simp [execPeriodicRecord, h]

@[simp] theorem memOk_eraseUsed (s : State) : s.eraseUsed.memOk = s.memOk := by
  simp [State.eraseUsed]

@[simp] theorem memOk_execMeterRecordDone (ok : Bool) (s : State) (h : s.memOk = true) : outOk (execMeterRecordDone ok s) = true := by
  unfold execMeterRecordDone
  split <;> simp [h]

@[simp] theorem memOk_execPowerFailRegionErased (s : State) (h : s.memOk = true) : outOk (execPowerFailRegionErased s) = true := by
  simp [execPowerFailRegionErased, h]

theorem keeps_meterPairSpec (r : Req) (s : State) (h : s.memOk = true) : (meterPairSpec.act r s).st.memOk = true := by
  simp [meterPairSpec, h]

theorem keeps_meterCtrlSpec (r : Req) (s : State) (h : s.memOk = true) : (meterCtrlSpec.act r s).st.memOk = true := by
  unfold meterCtrlSpec
  dsimp only
  split <;> simp [h]

theorem keeps_meterReadSpec (r : Req) (s : State) (h : s.memOk = true) : (meterReadSpec.act r s).st.memOk = true := by
  simp [meterReadSpec, h]

/-! ### Of the model's file StoveIsa -/

@[simp] theorem Stove.memOk_setAcc (v : Stove) (i : Nat) (x : Int) : (v.setAcc i x).memOk = v.memOk := by
  simp [Stove.setAcc]

@[simp] theorem memOk_releaseRec (s : State) (sv law : Nat) (seq q a : Nat) : (s.releaseRec sv law seq q a).memOk = s.memOk := by
  simp [State.releaseRec]

/-! ### Of the model's file StoveCmd -/

@[simp] theorem memOk_subscribe (s : State) (k h : Nat) (on : Bool) : (s.subscribe k h on).memOk = s.memOk := by
  simp [State.subscribe]

theorem keeps_stoveStatusSpec (r : Req) (s : State) (h : s.memOk = true) : (stoveStatusSpec.act r s).st.memOk = true := by
  simp [stoveStatusSpec, h]

theorem keeps_psStatusSpec (r : Req) (s : State) (h : s.memOk = true) : (psStatusSpec.act r s).st.memOk = true := by
  simp [psStatusSpec, h]

@[simp] theorem PsBank.memOk_spoil (b : PsBank) (o : PsOp) (base : Nat) : (b.spoil o base).memOk = b.memOk := by
  simp [PsBank.spoil]

/-! ### Of the model's file Faults -/

@[simp] theorem memOk_modRec (s : State) (rid : Nat) (f : FaultRec → FaultRec) : (s.modRec rid f).memOk = s.memOk := by
  simp [State.modRec]

@[simp] theorem memOk_faultChange (s : State) : s.faultChange.memOk = s.memOk := by
  simp [State.faultChange]

@[simp] theorem memOk_loseTile (s : State) (n : Nat) : (s.loseTile n).memOk = s.memOk := by
  unfold State.loseTile
  dsimp only
  split <;> simp

@[simp] theorem memOk_losePair (s : State) (n : Nat) : (s.losePair n).memOk = s.memOk := by
  simp [State.losePair]

@[simp] theorem memOk_latchDie (s : State) (d : Nat) : (s.latchDie d).memOk = s.memOk := by
  simp [State.latchDie]

@[simp] theorem memOk_faultEvent (s : State) (code rid detail : Nat) : (s.faultEvent code rid detail).memOk = s.memOk := by
  simp [State.faultEvent]

@[simp] theorem memOk_mergeRec (s : State) (rid det inst : Nat) (level overflow : Bool) :
    (s.mergeRec rid det inst level overflow).memOk = s.memOk := by
  simp [State.mergeRec]

@[simp] theorem memOk_logDetection (s : State) (det inst detail : Nat) (h : Option Nat) (rid : Option Nat) (token : Bool) :
    (s.logDetection det inst detail h rid token).memOk = s.memOk := by
  simp [State.logDetection]

@[simp] theorem memOk_execInjectTimeout (s : State) (h : s.memOk = true) : outOk (execInjectTimeout s) = true := by
  unfold execInjectTimeout
  split <;> simp [h]

@[simp] theorem memOk_execTripLineSelfTest (die : Nat) (ok : Bool) (s : State) (h : s.memOk = true) :
    outOk (execTripLineSelfTest die ok s) = true := by
  simp [execTripLineSelfTest, h]

@[simp] theorem memOk_tileBack (s : State) (n : Nat) : (s.tileBack n).memOk = s.memOk := by
  simp [State.tileBack]

@[simp] theorem memOk_dieBack (s : State) (d : Nat) : (s.dieBack d).memOk = s.memOk := by
  simp [State.dieBack]

theorem keeps_faultConfigSpec (r : Req) (s : State) (h : s.memOk = true) : (faultConfigSpec.act r s).st.memOk = true := by
  unfold faultConfigSpec
  dsimp only
  split <;> simp [h]

theorem keeps_faultReadSpec (r : Req) (s : State) (h : s.memOk = true) : (faultReadSpec.act r s).st.memOk = true := by
  unfold faultReadSpec
  dsimp only
  split <;> simp [h]

theorem keeps_faultInjectSpec (r : Req) (s : State) (h : s.memOk = true) : (faultInjectSpec.act r s).st.memOk = true := by
  simp [faultInjectSpec, h]

/-! ### Of the model's file Logs -/

@[simp] theorem memOk_stageCopy (s : State) (f : Nat) (c : LogCopy) : (s.stageCopy f c).memOk = s.memOk := by
  unfold State.stageCopy
  split <;> simp

@[simp] theorem memOk_copyRec (s : State) (hearth : Nat) (c : LogCopy) : (s.copyRec hearth c).memOk = s.memOk := by
  simp [State.copyRec]

@[simp] theorem memOk_execRamLogWrite (s : State) (h : s.memOk = true) : outOk (execRamLogWrite s) = true := by
  unfold execRamLogWrite
  dsimp only
  (repeat' split) <;> simp [h]

@[simp] theorem memOk_execTokenRefill (s : State) (h : s.memOk = true) : outOk (execTokenRefill s) = true := by
  simp [execTokenRefill, h]

@[simp] theorem memOk_execFlashLogRecordDone (ok : Bool) (s : State) (h : s.memOk = true) : outOk (execFlashLogRecordDone ok s) = true := by
  unfold execFlashLogRecordDone
  split <;> simp [h]

@[simp] theorem memOk_execFaultManagerSelfTest (ok : Bool) (s : State) (h : s.memOk = true) : outOk (execFaultManagerSelfTest ok s) = true := by
  simp [execFaultManagerSelfTest, h]

theorem keeps_evlogReadSpec (r : Req) (s : State) (h : s.memOk = true) : (evlogReadSpec.act r s).st.memOk = true := by
  simp [evlogReadSpec, h]

/-! ### Of the model's file Power -/

@[simp] theorem memOk_freezePairs (s : State) : s.freezePairs.memOk = s.memOk := by
  simp [State.freezePairs]

@[simp] theorem memOk_capturePf (s : State) (lostDies : List Nat) : (s.capturePf lostDies).memOk = s.memOk := by
  simp [State.capturePf]

@[simp] theorem memOk_pfStart (s : State) : s.pfStart.memOk = s.memOk := by
  simp [State.pfStart]

@[simp] theorem memOk_execSupplyRange (die rail : Nat) (inRange : Bool) (s : State) (h : s.memOk = true) :
    outOk (execSupplyRange die rail inRange s) = true := by
  simp [execSupplyRange, h]

@[simp] theorem memOk_execVa5PowerFail (s : State) (h : s.memOk = true) : outOk (execVa5PowerFail s) = true := by
  simp [execVa5PowerFail, h]

@[simp] theorem memOk_execPowerFailProgramDone (s : State) (h : s.memOk = true) : outOk (execPowerFailProgramDone s) = true := by
  unfold execPowerFailProgramDone
  split <;> simp [h]

@[simp] theorem memOk_execResetRelease (role : Nat) (s : State) (h : s.memOk = true) : outOk (execResetRelease role s) = true := by
  simp [execResetRelease, h]

@[simp] theorem memOk_execKindleDie (die : Nat) (s : State) (h : s.memOk = true) : outOk (execKindleDie die s) = true := by
  simp [execKindleDie, h]

@[simp] theorem memOk_dieKindled (s : State) (die : Nat) : (s.dieKindled die).memOk = s.memOk := by
  simp [State.dieKindled]

@[simp] theorem memOk_trimIslands (s : State) (l : List Nat) : (s.trimIslands l).memOk = s.memOk := by
  simp [State.trimIslands]

@[simp] theorem memOk_execKindleLane (ring : Bool) (s : State) (h : s.memOk = true) : outOk (execKindleLane ring s) = true := by
  simp [execKindleLane, h]

@[simp] theorem memOk_execFlueBridgeTimeout (die : Nat) (s : State) (h : s.memOk = true) : outOk (execFlueBridgeTimeout die s) = true := by
  unfold execFlueBridgeTimeout
  dsimp only
  (repeat' split) <;> simp [h]

@[simp] theorem memOk_execFlueTransfer (die : Nat) (bad : Bool) (s : State) (h : s.memOk = true) : outOk (execFlueTransfer die bad s) = true := by
  simp [execFlueTransfer, h]

@[simp] theorem memOk_execDieKeepaliveTimeout (die : Nat) (s : State) (h : s.memOk = true) : outOk (execDieKeepaliveTimeout die s) = true := by
  simp [execDieKeepaliveTimeout, h]

@[simp] theorem memOk_holdOver (s : State) : s.holdOver.memOk = s.memOk := by
  simp [State.holdOver]

@[simp] theorem memOk_execDclkLoss (s : State) (h : s.memOk = true) : outOk (execDclkLoss s) = true := by
  simp [execDclkLoss, h]

@[simp] theorem memOk_execDclkAbsentTimeout (s : State) (h : s.memOk = true) : outOk (execDclkAbsentTimeout s) = true := by
  simp [execDclkAbsentTimeout, h]

@[simp] theorem memOk_execDraughtSourceReturn (east : Bool) (s : State) (h : s.memOk = true) : outOk (execDraughtSourceReturn east s) = true := by
  simp [execDraughtSourceReturn, h]

@[simp] theorem memOk_execRecoveredClockLoss (east : Bool) (s : State) (h : s.memOk = true) : outOk (execRecoveredClockLoss east s) = true := by
  simp [execRecoveredClockLoss, h]

@[simp] theorem memOk_execOscillatorTrim (s : State) (h : s.memOk = true) : outOk (execOscillatorTrim s) = true := by
  simp [execOscillatorTrim, h]

/-! ### Of the model's file Host -/

@[simp] theorem memOk_dropQueue (s : State) (q : Nat) : (s.dropQueue q).memOk = s.memOk := by
  simp [State.dropQueue]

@[simp] theorem memOk_closeSessionsOf (s : State) (f : Nat) : (s.closeSessionsOf f).memOk = s.memOk := by
  simp [State.closeSessionsOf]

@[simp] theorem memOk_execFlrDone (fn : Nat) (s : State) (h : s.memOk = true) : outOk (execFlrDone fn s) = true := by
  simp [execFlrDone, h]

@[simp] theorem memOk_execPciePerstNRelease (s : State) (h : s.memOk = true) : outOk (execPciePerstNRelease s) = true := by
  simp [execPciePerstNRelease, h]

@[simp] theorem memOk_execPcieLinkUp (width rate : Nat) (s : State) (h : s.memOk = true) : outOk (execPcieLinkUp width rate s) = true := by
  simp [execPcieLinkUp, h]

@[simp] theorem memOk_execLinkRetrainStart (s : State) (h : s.memOk = true) : outOk (execLinkRetrainStart s) = true := by
  simp [execLinkRetrainStart, h]

@[simp] theorem memOk_execLinkRetrainDone (width rate : Nat) (s : State) (h : s.memOk = true) :
    outOk (execLinkRetrainDone width rate s) = true := by
  simp [execLinkRetrainDone, h]

@[simp] theorem memOk_execFnCtrlEn (fn : Nat) (en : Bool) (s : State) (h : s.memOk = true) : outOk (execFnCtrlEn fn en s) = true := by
  simp [execFnCtrlEn, h]

@[simp] theorem memOk_startInval (s : State) (x : Inval) : (s.startInval x).memOk = s.memOk := by
  simp [State.startInval]

@[simp] theorem memOk_execTlbInv (fn : Nat) (s : State) (h : s.memOk = true) : outOk (execTlbInv fn s) = true := by
  simp [execTlbInv, h]

@[simp] theorem memOk_flushContexts (s : State) (f : Nat) : (s.flushContexts f).memOk = s.memOk := by
  simp [State.flushContexts]

@[simp] theorem memOk_execInvalidationEnd (s : State) (h : s.memOk = true) : outOk (execInvalidationEnd s) = true := by
  unfold execInvalidationEnd
  split <;> simp [h]

@[simp] theorem memOk_execAdmqEnSet (fn v : Nat) (s : State) (h : s.memOk = true) : outOk (execAdmqEnSet fn v s) = true := by
  simp [execAdmqEnSet, h]

@[simp] theorem memOk_stopAdmin (s : State) (fn err : Nat) : (s.stopAdmin fn err).memOk = s.memOk := by
  simp [State.stopAdmin]

@[simp] theorem memOk_execAdmqEnClear (fn : Nat) (s : State) (h : s.memOk = true) : outOk (execAdmqEnClear fn s) = true := by
  simp [execAdmqEnClear, h]

@[simp] theorem memOk_sendVec (s : State) (fn v : Nat) : (s.sendVec fn v).memOk = s.memOk := by
  simp [State.sendVec]

@[simp] theorem memOk_execMsixModTimer (fn v : Nat) (s : State) (h : s.memOk = true) : outOk (execMsixModTimer fn v s) = true := by
  simp [execMsixModTimer, h]

@[simp] theorem memOk_unmask (s : State) (fn v : Nat) : (s.unmask fn v).memOk = s.memOk := by
  simp [State.unmask]

@[simp] theorem memOk_execMsixUnmask (fn v : Nat) (s : State) (h : s.memOk = true) : outOk (execMsixUnmask fn v s) = true := by
  simp [execMsixUnmask, h]

@[simp] theorem memOk_sendPending (s : State) (fn : Nat) : (s.sendPending fn).memOk = s.memOk := by
  simp [State.sendPending]

@[simp] theorem memOk_aerLog (s : State) (fn bit : Nat) : (s.aerLog fn bit).memOk = s.memOk := by
  simp [State.aerLog]

@[simp] theorem memOk_execDevTimeLoRead (fn : Nat) (s : State) (h : s.memOk = true) : outOk (execDevTimeLoRead fn s) = true := by
  simp [execDevTimeLoRead, h]

@[simp] theorem memOk_execFaultTimeLoRead (s : State) (h : s.memOk = true) : outOk (execFaultTimeLoRead s) = true := by
  simp [execFaultTimeLoRead, h]

@[simp] theorem memOk_barError (s : State) (fn : Nat) : (s.barError fn).memOk = s.memOk := by
  simp [State.barError]

@[simp] theorem memOk_execMalformedBarRead (fn : Nat) (s : State) (h : s.memOk = true) : outOk (execMalformedBarRead fn s) = true := by
  simp [execMalformedBarRead, h]

@[simp] theorem memOk_rwlDenied (s : State) (off : Nat) : (s.rwlDenied off).memOk = s.memOk := by
  simp [State.rwlDenied]

@[simp] theorem memOk_clearCounts (s : State) (v : Nat) : (s.clearCounts v).memOk = s.memOk := by
  simp [State.clearCounts]

@[simp] theorem memOk_writeArm (s : State) (v : Nat) : (s.writeArm v).memOk = s.memOk := by
  simp [State.writeArm]

@[simp] theorem memOk_execResetArm (value : Nat) (s : State) (h : s.memOk = true) : outOk (execResetArm value s) = true := by
  simp [execResetArm, h]

@[simp] theorem memOk_execResetArmExpiry (s : State) (h : s.memOk = true) : outOk (execResetArmExpiry s) = true := by
  unfold execResetArmExpiry
  split <;> simp [h]

@[simp] theorem memOk_writeGo (s : State) (v : Nat) : (s.writeGo v).memOk = s.memOk := by
  simp [State.writeGo]

@[simp] theorem memOk_execResetGo (s : State) (h : s.memOk = true) : outOk (execResetGo s) = true := by
  simp [execResetGo, h]

@[simp] theorem memOk_writeBar4 (s : State) (fn off v : Nat) : (s.writeBar4 fn off v).memOk = s.memOk := by
  unfold State.writeBar4
  (repeat' split) <;> simp

theorem keeps_devIdentifySpec (r : Req) (s : State) (h : s.memOk = true) : (devIdentifySpec.act r s).st.memOk = true := by
  simp [devIdentifySpec, h]

/-! ### Of the model's file Queues -/

@[simp] theorem memOk_stopPair (s : State) (f q : Nat) : (s.stopPair f q).memOk = s.memOk := by
  simp [State.stopPair]

@[simp] theorem memOk_stopFor (s : State) (q iova reason : Nat) : (s.stopFor q iova reason).memOk = s.memOk := by
  unfold State.stopFor
  split <;> simp

@[simp] theorem memOk_touchCtx (s : State) (q : Nat) : (s.touchCtx q).memOk = s.memOk := by
  simp [State.touchCtx]

@[simp] theorem memOk_evictCtx (s : State) (cells : List Host.Cell) : (s.evictCtx cells).memOk = s.memOk := by
  unfold State.evictCtx
  (repeat' split) <;> simp

@[simp] theorem memOk_loadCtx (s : State) (cells : List Host.Cell) (q : Nat) : (s.loadCtx cells q).1.memOk = s.memOk := by
  unfold State.loadCtx
  dsimp only
  (repeat' split) <;> simp

@[simp] theorem memOk_execDoorbell (fn qid index : Nat) (phase full : Bool) (host : List Host.Cell) (s : State) (h : s.memOk = true) :
    outOk (execDoorbell fn qid index phase full host s) = true := by
  simp [execDoorbell, h]

@[simp] theorem memOk_execHostReadCompletion (qid : Nat) (entry : BitVec 512) (s : State) (h : s.memOk = true) :
    outOk (execHostReadCompletion qid entry s) = true := by
  unfold execHostReadCompletion
  split <;> simp [h]

@[simp] theorem memOk_execCompletionTimeout (qid : Nat) (s : State) (h : s.memOk = true) : outOk (execCompletionTimeout qid s) = true := by
  unfold execCompletionTimeout
  split <;> simp [h]

@[simp] theorem memOk_execCommandFetch (qid : Nat) (host : List Host.Cell) (s : State) (h : s.memOk = true) :
    outOk (execCommandFetch qid host s) = true := by
  unfold execCommandFetch
  dsimp only
  (repeat' split) <;> simp [h]

@[simp] theorem memOk_damp (s : State) (p : Nat) (x : Nat × Nat) (step : Nat) : (s.damp p x step).memOk = s.memOk := by
  unfold State.damp
  dsimp only
  split <;> simp

@[simp] theorem memOk_dampPath (s : State) (p : Nat) : (s.dampPath p).memOk = s.memOk := by
  unfold State.dampPath
  dsimp only
  (repeat' split) <;> simp

@[simp] theorem memOk_execDamperTick (s : State) (h : s.memOk = true) : outOk (execDamperTick s) = true := by
  simp [execDamperTick, h]

@[simp] theorem memOk_shipQueue (s : State) (q : Nat) : (s.shipQueue q).memOk = s.memOk := by
  simp [State.shipQueue]

theorem keeps_queueCreateSpec (r : Req) (s : State) (h : s.memOk = true) : (queueCreateSpec.act r s).st.memOk = true := by
  unfold queueCreateSpec
  dsimp only
  split <;> simp [h]

@[simp] theorem memOk_discardWaiting (s : State) (f q : Nat) : (s.discardWaiting f q).memOk = s.memOk := by
  simp [State.discardWaiting]

theorem keeps_queueDestroySpec (r : Req) (s : State) (h : s.memOk = true) : (queueDestroySpec.act r s).st.memOk = true := by
  unfold queueDestroySpec
  dsimp only
  (repeat' split) <;> simp [h]

@[simp] theorem memOk_bindStream (s : State) (k q : Nat) (cap valid : Bool) : (s.bindStream k q cap valid).memOk = s.memOk := by
  simp [State.bindStream]

theorem keeps_queueBindSpec (r : Req) (s : State) (h : s.memOk = true) : (queueBindSpec.act r s).st.memOk = true := by
  unfold queueBindSpec
  dsimp only
  split <;> simp [h]

theorem keeps_queueStatusSpec (r : Req) (s : State) (h : s.memOk = true) : (queueStatusSpec.act r s).st.memOk = true := by
  simp [queueStatusSpec, h]

theorem keeps_lmapInvalSpec (r : Req) (s : State) (h : s.memOk = true) : (lmapInvalSpec.act r s).st.memOk = true := by
  simp [lmapInvalSpec, h]

/-! ### Of the model's file Sync -/

@[simp] theorem memOk_syncContext (s : State) (x : Nat × Nat × Nat) : (s.syncContext x).memOk = s.memOk := by
  simp [State.syncContext]

@[simp] theorem memOk_syncAct (s : State) (p : PendingSync) : (s.syncAct p).memOk = s.memOk := by
  simp [State.syncAct]

@[simp] theorem memOk_execSyncAct (s : State) (h : s.memOk = true) : outOk (execSyncAct s) = true := by
  unfold execSyncAct
  split <;> simp [h]

@[simp] theorem memOk_execSyncDone (mask : Nat) (s : State) (h : s.memOk = true) : outOk (execSyncDone mask s) = true := by
  unfold execSyncDone
  split <;> simp [h]

@[simp] theorem memOk_syncMissed (s : State) : s.syncMissed.memOk = s.memOk := by
  simp [State.syncMissed]

@[simp] theorem memOk_schedule (s : State) (ref act actTime : Nat) (ring : Bool) (fn : Option Nat) :
    (s.schedule ref act actTime ring fn).memOk = s.memOk := by
  simp [State.schedule]

@[simp] theorem memOk_execSyncPinEdge (sub : Nat) (s : State) (h : s.memOk = true) : outOk (execSyncPinEdge sub s) = true := by
  unfold execSyncPinEdge
  dsimp only
  (repeat' split) <;> simp [h]

@[simp] theorem memOk_execRxSync (fseq ref act : Nat) (s : State) (h : s.memOk = true) : outOk (execRxSync fseq ref act s) = true := by
  simp [execRxSync, h]

theorem keeps_filtSyncSpec (r : Req) (s : State) (h : s.memOk = true) : ((filtSyncSpec r).act r s).st.memOk = true := by
  unfold filtSyncSpec
  dsimp only
  split <;> simp [h]

/-! ### Of the model's file Oblyn -/

@[simp] theorem memOk_modRing (s : State) (f : Ring → Ring) : (s.modRing f).memOk = s.memOk := by
  simp [State.modRing]

@[simp] theorem memOk_sendPlan (s : State) (p : RingPlan) : (s.sendPlan p).memOk = s.memOk := by
  simp [State.sendPlan]

@[simp] theorem memOk_startMove (s : State) (link : Nat × Nat) (why : PlanWhy) : (s.startMove link why).memOk = s.memOk := by
  simp [State.startMove]

@[simp] theorem memOk_packedBlock (s : State) (g : Segment) (cap gap : Bool) (step : Nat) : (s.packedBlock g cap gap step).memOk = s.memOk := by
  simp [State.packedBlock]

@[simp] theorem memOk_execPackedSendTimeout (s : State) (h : s.memOk = true) : outOk (execPackedSendTimeout s) = true := by
  unfold execPackedSendTimeout
  split <;> simp [h]

@[simp] theorem memOk_setRate (s : State) (east : Bool) (x : Option Bool) : (s.setRate east x).memOk = s.memOk := by
  unfold State.setRate
  split <;> simp

@[simp] theorem memOk_noteRate (s : State) (n : Nat) (e : Option Bool) (w : Option Bool) : (s.noteRate n e w).memOk = s.memOk := by
  simp [State.noteRate]

@[simp] theorem memOk_putRate (s : State) (n : Nat) (east v : Bool) : (s.putRate n east v).memOk = s.memOk := by
  simp [State.putRate]

@[simp] theorem memOk_endRingOps (s : State) (st : Status) : (s.endRingOps st).memOk = s.memOk := by
  unfold State.endRingOps
  dsimp only
  (repeat' split) <;> simp

@[simp] theorem memOk_dropFallback (s : State) : s.dropFallback.memOk = s.memOk := by
  simp [State.dropFallback]

@[simp] theorem memOk_linkBack (s : State) (a b : Nat) : (s.linkBack a b).memOk = s.memOk := by
  simp [State.linkBack]

@[simp] theorem memOk_execLinkUp (port a b : Nat) (d : List Int) (s : State) (h : s.memOk = true) : outOk (execLinkUp port a b d s) = true := by
  simp [execLinkUp, h]

@[simp] theorem memOk_execPlanSwitch (s : State) (h : s.memOk = true) : outOk (execPlanSwitch s) = true := by
  unfold execPlanSwitch
  split <;> simp [h]

@[simp] theorem memOk_setRing (s : State) (r : Req) : (s.setRing r).memOk = s.memOk := by
  simp [State.setRing]

@[simp] theorem memOk_sendRing (s : State) (r : Req) (note : Nat) : (s.sendRing r note).memOk = s.memOk := by
  simp [State.sendRing]

@[simp] theorem memOk_endConfig (s : State) (o : LongOp) : (s.endConfig o).memOk = s.memOk := by
  simp [State.endConfig]

@[simp] theorem memOk_undoRates (s : State) (f : Forwarded) : (s.undoRates f).memOk = s.memOk := by
  simp [State.undoRates]

@[simp] theorem memOk_nextRate (s : State) : s.nextRate.memOk = s.memOk := by
  unfold State.nextRate
  split <;> simp

@[simp] theorem memOk_afterMove (s : State) (p : RingPlan) : (s.afterMove p).memOk = s.memOk := by
  unfold State.afterMove
  dsimp only
  (repeat' split) <;> simp

@[simp] theorem memOk_execDelayReqSend (east : Bool) (s : State) (h : s.memOk = true) : outOk (execDelayReqSend east s) = true := by
  simp [execDelayReqSend, h]

@[simp] theorem memOk_execRxDelayReq (east : Bool) (sub res : Nat) (s : State) (h : s.memOk = true) :
    outOk (execRxDelayReq east sub res s) = true := by
  simp [execRxDelayReq, h]

@[simp] theorem memOk_execRxDelayResp (east : Bool) (t2 t3 sub : Nat) (s : State) (h : s.memOk = true) :
    outOk (execRxDelayResp east t2 t3 sub s) = true := by
  unfold execRxDelayResp
  dsimp only
  split <;> simp [h]

@[simp] theorem memOk_execTimeSend (s : State) (h : s.memOk = true) : outOk (execTimeSend s) = true := by
  simp [execTimeSend, h]

@[simp] theorem memOk_closeAll (s : State) : s.closeAll.memOk = s.memOk := by
  simp [State.closeAll]

@[simp] theorem memOk_unlockTime (s : State) (cause : Nat) : (s.unlockTime cause).memOk = s.memOk := by
  simp [State.unlockTime]

@[simp] theorem memOk_openBypass (s : State) : s.openBypass.memOk = s.memOk := by
  simp [State.openBypass]

@[simp] theorem memOk_leaveRing (s : State) : s.leaveRing.memOk = s.memOk := by
  simp [State.leaveRing]

@[simp] theorem memOk_execTimeLossTimeout (s : State) (h : s.memOk = true) : outOk (execTimeLossTimeout s) = true := by
  simp [execTimeLossTimeout, h]

@[simp] theorem memOk_takeTag (s : State) (src tag : Nat) : (s.takeTag src tag).1.memOk = s.memOk := by
  unfold State.takeTag
  dsimp only
  split <;> simp

@[simp] theorem memOk_execResendTimeout (s : State) (h : s.memOk = true) : outOk (execResendTimeout s) = true := by
  unfold execResendTimeout
  split <;> simp [h]

@[simp] theorem memOk_forwardLost (s : State) (f : Forwarded) : (s.forwardLost f).memOk = s.memOk := by
  simp [State.forwardLost]

@[simp] theorem memOk_execCommandWaitTimeout (s : State) (h : s.memOk = true) : outOk (execCommandWaitTimeout s) = true := by
  unfold execCommandWaitTimeout
  split <;> simp [h]

@[simp] theorem memOk_execInsertionTimeout (s : State) (h : s.memOk = true) : outOk (execInsertionTimeout s) = true := by
  unfold execInsertionTimeout
  split <;> simp [h]

@[simp] theorem memOk_offerJoin (s : State) (link : Nat × Nat) : (s.offerJoin link).memOk = s.memOk := by
  simp [State.offerJoin]

@[simp] theorem memOk_execJoinOffer (s : State) (h : s.memOk = true) : outOk (execJoinOffer s) = true := by
  unfold execJoinOffer
  dsimp only
  (repeat' split) <;> simp [h]

@[simp] theorem memOk_execJoinTime (s : State) (h : s.memOk = true) : outOk (execJoinTime s) = true := by
  unfold execJoinTime
  split <;> simp [h]

@[simp] theorem memOk_execJoinTimeout (s : State) (h : s.memOk = true) : outOk (execJoinTimeout s) = true := by
  unfold execJoinTimeout
  split <;> simp [h]

@[simp] theorem memOk_execRxTrigger (src fseq : Nat) (channel time : Nat) (s : State) (h : s.memOk = true) :
    outOk (execRxTrigger src fseq channel time s) = true := by
  simp [execRxTrigger, h]

@[simp] theorem memOk_execRxMessage (src fseq : Nat) (n n' : Nat) (s : State) (h : s.memOk = true) :
    outOk (execRxMessage src fseq n n' s) = true := by
  simp [execRxMessage, h]

@[simp] theorem memOk_logCopiesLost (s : State) (src : Nat) (change : Bool) (lseq : Nat) : (s.logCopiesLost src change lseq).memOk = s.memOk := by
  unfold State.logCopiesLost
  dsimp only
  split <;> simp

@[simp] theorem memOk_execRxLog (src : Nat) (change : Bool) (body : Nat) (s : State) (h : s.memOk = true) :
    outOk (execRxLog src change body s) = true := by
  simp [execRxLog, h]

@[simp] theorem memOk_passDamaged (s : State) (east : Bool) (x : FailedFrame) : (s.passDamaged east x).memOk = s.memOk := by
  simp [State.passDamaged]

theorem keeps_ringConfigSpec (r : Req) (s : State) (h : s.memOk = true) : (ringConfigSpec.act r s).st.memOk = true := by
  unfold ringConfigSpec
  dsimp only
  (repeat' split) <;> simp [h]

theorem keeps_ringStatusSpec (r : Req) (s : State) (h : s.memOk = true) : (ringStatusSpec.act r s).st.memOk = true := by
  unfold ringStatusSpec
  dsimp only
  (repeat' split) <;> simp [h]

theorem keeps_ringBypassSpec (r : Req) (s : State) (h : s.memOk = true) : (ringBypassSpec.act r s).st.memOk = true := by
  unfold ringBypassSpec
  dsimp only
  (repeat' split) <;> simp [h]

theorem keeps_ringTriggerSpec (r : Req) (s : State) (h : s.memOk = true) : (ringTriggerSpec.act r s).st.memOk = true := by
  simp [ringTriggerSpec, h]

/-! ### Of the model's file Ageing -/

@[simp] theorem memOk_execGaugeRead (d i : Nat) (value : Int) (s : State) (h : s.memOk = true) : outOk (execGaugeRead d i value s) = true := by
  unfold execGaugeRead
  (repeat' split) <;> simp [h]

@[simp] theorem memOk_execHourlyMean (s : State) (h : s.memOk = true) : outOk (execHourlyMean s) = true := by
  simp [execHourlyMean, h]

@[simp] theorem memOk_startReplan (s : State) (trigger : Nat) (req : Option Req) : (s.startReplan trigger req).memOk = s.memOk := by
  simp [State.startReplan]

@[simp] theorem memOk_execScheduledReplan (s : State) (h : s.memOk = true) : outOk (execScheduledReplan s) = true := by
  simp [execScheduledReplan, h]

@[simp] theorem memOk_setGaugeStep (s : State) (d i step : Nat) : (s.setGaugeStep d i step).memOk = s.memOk := by
  simp [State.setGaugeStep]

@[simp] theorem memOk_setGaugePend (s : State) (d i : Nat) (v : Bool) : (s.setGaugePend d i v).memOk = s.memOk := by
  simp [State.setGaugePend]

@[simp] theorem memOk_planStep (s : State) (d i : Nat) (g : Gauge) : (s.planStep d i g).memOk = s.memOk := by
  simp [State.planStep]

@[simp] theorem memOk_planBt (s : State) (d : Nat) (g : Gauge) : (s.planBt d g).memOk = s.memOk := by
  simp [State.planBt]

@[simp] theorem memOk_planRoll (s : State) (d : Nat) (a : DieAge) : (s.planRoll d a).memOk = s.memOk := by
  simp [State.planRoll]

@[simp] theorem memOk_planLane (s : State) (east : Bool) (a : DieAge) : (s.planLane east a).1.memOk = s.memOk := by
  unfold State.planLane
  dsimp only
  (repeat' split) <;> simp

@[simp] theorem memOk_replanGauge (s : State) (d i : Nat) : (s.replanGauge d i).memOk = s.memOk := by
  simp [State.replanGauge]

@[simp] theorem memOk_planActions (s : State) (snap : Tab DieAge) : (s.planActions snap).1.memOk = s.memOk := by
  unfold State.planActions
  split <;> simp

@[simp] theorem memOk_execFallbackMoveTimeout (s : State) (h : s.memOk = true) : outOk (execFallbackMoveTimeout s) = true := by
  simp [execFallbackMoveTimeout, h]

@[simp] theorem memOk_workerFallback (s : State) (src port : Nat) : (s.workerFallback src port).memOk = s.memOk := by
  simp [State.workerFallback]

theorem keeps_ageReplanSpec (r : Req) (s : State) (h : s.memOk = true) : (ageReplanSpec.act r s).st.memOk = true := by
  simp [ageReplanSpec, h]

theorem keeps_ageStatusSpec (r : Req) (s : State) (h : s.memOk = true) : (ageStatusSpec.act r s).st.memOk = true := by
  simp [ageStatusSpec, h]

theorem keeps_agePlanReadSpec (r : Req) (s : State) (h : s.memOk = true) : (agePlanReadSpec.act r s).st.memOk = true := by
  simp [agePlanReadSpec, h]

/-! ### Of the model's file Hearths -/

@[simp] theorem memOk_modRoles (s : State) (f : Roles → Roles) : (s.modRoles f).memOk = s.memOk := by
  simp [State.modRoles]

@[simp] theorem memOk_modTrust (s : State) (f : Trust → Trust) : (s.modTrust f).memOk = s.memOk := by
  simp [State.modTrust]

@[simp] theorem memOk_sessionFail (s : State) (role : Nat) (l : Lockout) : (s.sessionFail role l).memOk = s.memOk := by
  simp [State.sessionFail]

@[simp] theorem memOk_execLockoutEnd (s : State) (h : s.memOk = true) : outOk (execLockoutEnd s) = true := by
  simp [execLockoutEnd, h]

@[simp] theorem memOk_execLockoutRecordWrite (s : State) (h : s.memOk = true) : outOk (execLockoutRecordWrite s) = true := by
  simp [execLockoutRecordWrite, h]

@[simp] theorem memOk_execSessionTimeout (s : State) (h : s.memOk = true) : outOk (execSessionTimeout s) = true := by
  simp [execSessionTimeout, h]

theorem keeps_sessionOpenSpec (r : Req) (s : State) (h : s.memOk = true) : (sessionOpenSpec.act r s).st.memOk = true := by
  simp [sessionOpenSpec, h]

theorem keeps_sessionCloseSpec (r : Req) (s : State) (h : s.memOk = true) : (sessionCloseSpec.act r s).st.memOk = true := by
  simp [sessionCloseSpec, h]

theorem keeps_rolePasswordSpec (r : Req) (s : State) (h : s.memOk = true) : (rolePasswordSpec.act r s).st.memOk = true := by
  unfold rolePasswordSpec
  dsimp only
  split <;> simp [h]

theorem keeps_makerChallengeSpec (r : Req) (s : State) (h : s.memOk = true) : (makerChallengeSpec.act r s).st.memOk = true := by
  simp [makerChallengeSpec, h]

@[simp] theorem memOk_endTile (s : State) (n : Nat) : (s.endTile n).memOk = s.memOk := by
  simp [State.endTile]

theorem keeps_hearthAssignSpec (r : Req) (s : State) (h : s.memOk = true) : (hearthAssignSpec.act r s).st.memOk = true := by
  simp [hearthAssignSpec, h]

theorem keeps_hearthSharesSpec (r : Req) (s : State) (h : s.memOk = true) : (hearthSharesSpec.act r s).st.memOk = true := by
  simp [hearthSharesSpec, h]

theorem keeps_hearthStatusSpec (r : Req) (s : State) (h : s.memOk = true) : (hearthStatusSpec.act r s).st.memOk = true := by
  simp [hearthStatusSpec, h]

theorem keeps_clogReadSpec (r : Req) (s : State) (h : s.memOk = true) : (clogReadSpec.act r s).st.memOk = true := by
  simp [clogReadSpec, h]

theorem keeps_clogArchiveSpec (r : Req) (s : State) (h : s.memOk = true) : (clogArchiveSpec.act r s).st.memOk = true := by
  unfold clogArchiveSpec
  dsimp only
  split <;> simp [h]

@[simp] theorem memOk_archived (s : State) (x : ClogStaged) : (s.archived x).memOk = s.memOk := by
  simp [State.archived]

/-! ### Of the model's file Commands -/

@[simp] theorem memOk_setPrompt (s : State) (key node : Nat) (on : Bool) : (s.setPrompt key node on).memOk = s.memOk := by
  simp [State.setPrompt]

@[simp] theorem memOk_noteFrame (s : State) (c : CmdFrame) (r : Req) : (s.noteFrame c r).memOk = s.memOk := by
  simp [State.noteFrame]

@[simp] theorem memOk_bindHere (s : State) (r : Req) : (s.bindHere r).memOk = s.memOk := by
  simp [State.bindHere]

@[simp] theorem memOk_heedEvent (s : State) (src code : Nat) (subject detail : Nat) : (s.heedEvent src code subject detail).memOk = s.memOk := by
  simp [State.heedEvent]

@[simp] theorem memOk_tick (s : State) : s.tick.memOk = s.memOk := by
  simp [State.tick]

end Sys2Proof.Machine
end

section
/-! What writes the data SRAM of a stove keeps it canonical. -/

set_option Elab.async false

namespace Sys2Proof.Machine

theorem Stove.memOk_iff {v : Stove} : v.memOk = true ↔ memWf 0 v.isram = true ∧ memWf 0 v.dsram = true := Bool.and_eq_true_iff

theorem Stove.memOk_dSet {v : Stove} (a w : Nat) (h : v.memOk = true) : (v.dSet a w).memOk = true := by
  rw [Stove.memOk_iff] at h ⊢
  exact ⟨h.1, memWf_memSetLE _ _ _ _ _ h.2⟩

theorem Stove.memOk_foldl {α : Type} {f : Stove → α → Stove} (hf : ∀ v x, v.memOk = true → (f v x).memOk = true) (l : List α) {v : Stove}
    (h : v.memOk = true) : (l.foldl f v).memOk = true := by
  induction l generalizing v with
  | nil => exact h
  | cons x l ih => exact ih (hf v x h)

@[simp] theorem Stove.memOk_putLoop {v : Stove} (k : Nat) (r : LoopRec) (h : v.memOk = true) : (v.putLoop k r).memOk = true :=
  Stove.memOk_foldl (fun _ _ h => Stove.memOk_dSet _ _ h) _ h

/-- Bytes written one range after the other into a canonical memory leave it canonical. -/
theorem memWf_foldl_memSetBytes (u : Byte) (l : List (Nat × List Byte)) {m : List Host.Cell} (h : memWf u m = true) :
    memWf u (l.foldl (fun m e => memSetBytes u m e.1 e.2) m) = true := by
  induction l generalizing m with
  | nil => exact h
  | cons x l ih => exact ih (memWf_memSetBytes u m x.1 x.2 h)

@[simp] theorem memOk_modLoop {s : State} (sv k : Nat) (f : LoopRec → LoopRec) (h : s.memOk = true) : (s.modLoop sv k f).memOk = true := by
  rw [State.modLoop, memOk_loopEvent]
  refine memOk_modStove_of (fun v hv => ?_) sv h
  simp [hv]

@[simp] theorem memOk_modLoops {s : State} (sv mask : Nat) (f : LoopRec → LoopRec) (h : s.memOk = true) : (s.modLoops sv mask f).memOk = true := by
  rw [State.modLoops]
  refine memOk_foldl_of (fun s k h => ?_) _ h
  split <;> simp [h]

@[simp] theorem memOk_stopStove (s : State) (sv : Nat) : (s.stopStove sv).memOk = s.memOk := by
  simp [State.stopStove]

@[simp] theorem memOk_loopAct {s : State} (r : Req) (h : s.memOk = true) : (s.loopAct r).memOk = true := by
  rw [State.loopAct]
  split <;> simp [h]

@[simp] theorem memOk_loopDone {s : State} (r : Req) (h : s.memOk = true) : (s.loopDone r).memOk = true := by
  rw [State.loopDone]
  split <;> simp [h]

@[simp] theorem memOk_settleFree {s : State} (sv : Nat) (h : s.memOk = true) : (s.settleFree sv).memOk = true := by
  rw [State.settleFree]
  split <;> simp [h]

@[simp] theorem memOk_settle {s : State} (sv : Nat) (h : s.memOk = true) : (s.settle sv).memOk = true := by
  unfold State.settle
  exact memOk_settleFree _ (memOk_foldl_of (fun _ r h => memOk_loopDone r h) _ (by simp [h]))

@[simp] theorem memOk_endGap (s : State) (sv : Nat) : (s.endGap sv).memOk = s.memOk := by
  simp [State.endGap]

@[simp] theorem memOk_stoveWrite {s : State} (sv addr : Nat) (l : List Byte) (h : s.memOk = true) : (s.stoveWrite sv addr l).memOk = true := by
  refine memOk_modStove_of (fun v hv => ?_) sv h
  split
  · rw [Stove.memOk_iff] at hv ⊢
    exact ⟨hv.1, memWf_memSetBytes _ _ _ _ hv.2⟩
  · exact hv

@[simp] theorem memOk_runEnded {s : State} (sv law : Nat) (h : s.memOk = true) : (s.runEnded sv law).memOk = true := by
  have hend : (s.modStove sv (fun v =>
    let w := v.dueWrites.foldl (fun m e => memSetBytes 0 m e.1 e.2) v.dsram
    let v : Stove := { v with run := none, dueWrites := [], dsram := w, state := if v.state = .running then .idle else v.state }
    let v := v.modLaw law (fun l =>
      if l.skipped then { l with cleanRuns := 0, skipped := false }
      else if 255 ≤ l.cleanRuns then { l with cleanRuns := 0, ovrRun := 0 } else { l with cleanRuns := l.cleanRuns + 1 })
    { v with laws := v.laws.map (fun e =>
        (e.1, if e.2.disabling then { e.2.unpend with enable := false, disabling := false } else e.2)) })).memOk = true := by
    refine memOk_modStove_of (fun v hv => ?_) sv h
    rw [Stove.memOk_iff] at hv
    simp only [Stove.memOk_mk, Bool.and_eq_true]
    exact ⟨hv.1, memWf_foldl_memSetBytes 0#8 v.dueWrites hv.2⟩
  unfold State.runEnded
  dsimp only
  split
  · exact memOk_settle _ hend
  · exact memOk_settleFree _ hend

@[simp] theorem memOk_trapRun {s : State} (sv cause : Nat) (h : s.memOk = true) : (s.trapRun sv cause).memOk = true := by
  rw [State.trapRun]
  split
  · exact h
  · simp [h]

@[simp] theorem memOk_beginFetch {s : State} (sv : Nat) (h : s.memOk = true) : (s.beginFetch sv).memOk = true := by
  unfold State.beginFetch
  dsimp only
  (repeat' split) <;> simp [h]

@[simp] theorem memOk_lawTrigger {s : State} (sv i time seq : Nat) (mark : Law → Law) (h : s.memOk = true) :
    (s.lawTrigger sv i time seq mark).memOk = true := by
  unfold State.lawTrigger
  dsimp only
  (repeat' split) <;> simp [h]

@[simp] theorem memOk_comparatorTrigger {s : State} (sv tile tc time : Nat) (h : s.memOk = true) :
    (s.comparatorTrigger sv tile tc time).memOk = true := by
  refine memOk_foldl_of (fun s i h => ?_) _ h
  dsimp only
  split <;> simp [h]

@[simp] theorem memOk_portLaw {s : State} (sv p i time seq : Nat) (h : s.memOk = true) : (s.portLaw sv p i time seq).memOk = true := by
  have harrived : (s.modStove sv (fun v => v.modLaw i (fun l => { l with arrived := l.arrived ||| 2 ^ p }))).memOk = true := by simp [h]
  unfold State.portLaw
  dsimp only
  (repeat' split) <;> simp [harrived]

@[simp] theorem memOk_portMiss (s : State) (w : FabricWord) : (s.portMiss w).memOk = s.memOk := by
  refine memOk_modStove (fun v => ?_) s w.stove
  dsimp only
  split <;> rfl

@[simp] theorem memOk_flushFabric (s : State) (p : FabricWord → Bool) : (s.flushFabric p).memOk = s.memOk := by
  simp [State.flushFabric]

end Sys2Proof.Machine
end

section
/-! The trip logic: a trip edge reaches the loops of the stoves. -/

set_option Elab.async false

namespace Sys2Proof.Machine

@[simp] theorem memOk_tripEdge {s : State} (before : Bool) (h : s.memOk = true) : (s.tripEdge before).memOk = true := by
  rw [State.tripEdge]
  split
  · exact h
  · exact memOk_foldl_of (fun s e h => memOk_settleFree _ (by simp [h])) _ h

@[simp] theorem memOk_latchTrip {s : State} (mask : Nat) (h : s.memOk = true) : (s.latchTrip mask).memOk = true := by
  refine memOk_tripEdge _ ?_
  simpa using h

@[simp] theorem memOk_tripCheck {s : State} (h : s.memOk = true) : s.tripCheck.memOk = true := by
  unfold State.tripCheck
  dsimp only
  split <;> simp [h]

@[simp] theorem memOk_connRecord {s : State} (c : Nat) (h : s.memOk = true) : (s.connRecord c).memOk = true := by
  unfold State.connRecord
  dsimp only
  split <;> simp [h]

@[simp] theorem memOk_receivePdu {s : State} (c : Nat) (pdu : List Byte) (h : s.memOk = true) : (s.receivePdu c pdu).1.memOk = true := by
  unfold State.receivePdu
  dsimp only
  split
  · exact h
  split
  · simp [h]
  split
  · simp [h]
  split
  · simp [h]
  split
  · split <;> simp [h]
  · exact memOk_tripCheck (memOk_connRecord _ (by simp [h]))

@[simp] theorem memOk_loopJudged {s : State} (closed : Bool) (h : s.memOk = true) : (s.loopJudged closed).memOk = true := by
  unfold State.loopJudged
  dsimp only
  split
  · exact memOk_tripCheck (by simp [h])
  · (repeat' split) <;> exact memOk_tripCheck (by simp [h])

end Sys2Proof.Machine
end

section
/-! The comparators and the raw streams. -/

set_option Elab.async false

namespace Sys2Proof.Machine

@[simp] theorem memOk_tcAsserted {s : State} (n c : Nat) (w : Word) (e time : Nat) (h : s.memOk = true) :
    (s.tcAsserted n c w e time).memOk = true := by
  unfold State.tcAsserted
  dsimp only
  refine memOk_tripCheck ?_
  rw [memOk_sendTriggers, memOk_ite]
  simp [h]

@[simp] theorem memOk_tcReleased {s : State} (n c : Nat) (h : s.memOk = true) : (s.tcReleased n c).memOk = true := by
  unfold State.tcReleased
  exact memOk_tripCheck (by simp [h])

@[simp] theorem memOk_tcWord {s : State} (n c : Nat) (w : Word) (e time : Nat) (h : s.memOk = true) : (s.tcWord n c w e time).memOk = true := by
  have hs : (if ((s.tile n).tc c).resetPending && ((s.tile n).tc c).state = .asserted then s.tcReleased n c else s).memOk = true := by
    split <;> simp [h]
  unfold State.tcWord
  dsimp only
  revert hs
  generalize (if ((s.tile n).tc c).resetPending && ((s.tile n).tc c).state = .asserted then s.tcReleased n c else s) = u
  intro hs
  (repeat' split) <;> simp [h, hs]

@[simp] theorem memOk_tcFeed {s : State} (n c slot : Nat) (w : Word) (e time : Nat) (bad : Bool) (h : s.memOk = true) :
    (s.tcFeed n c slot w e time bad).memOk = true := by
  unfold State.tcFeed
  dsimp only
  (repeat' split) <;> simp [h]

end Sys2Proof.Machine
end

section
/-! What runs a command keeps the byte memories canonical where the command's own action and refusal do. -/

set_option Elab.async false

namespace Sys2Proof.Machine

@[simp] theorem memOk_translateAll (s : State) (cells : List Host.Cell) (fn : Nat) (wr : Bool) (l : List Nat) :
    (s.translateAll cells fn wr l).1.memOk = s.memOk := by
  induction l generalizing s with
  | nil => rfl
  | cons a l ih =>
    rw [State.translateAll]
    split
    · rfl
    · rw [ih, memOk_tlbInsert]

@[simp] theorem memOk_mapData (s : State) (r : Req) (l : List DataRange) : (s.mapData r l).1.memOk = s.memOk := by
  induction l generalizing s with
  | nil => rfl
  | cons d l ih =>
    rw [State.mapData]
    have htr := memOk_translateAll s r.host r.fn d.wr d.pages
    split
    · rfl
    · split
      · exact ih s
      · generalize s.translateAll r.host r.fn d.wr d.pages = x at htr
        obtain ⟨t, _ | ⟨a, e⟩⟩ := x
        · dsimp only at htr ⊢
          split
          · simpa using htr
          · rw [ih]
            split <;> simpa using htr
        · simpa using htr

/-- A command whose action keeps the byte memories canonical. -/
def CmdSpec.KeepsMem (p : CmdSpec) : Prop := ∀ r s, s.memOk = true → (p.act r s).st.memOk = true

theorem memOk_perform {p : CmdSpec} (hp : p.KeepsMem) {r : Req} {s : State} (h : s.memOk = true) : (p.perform r s).memOk = true := by
  unfold CmdSpec.perform
  dsimp only
  split
  · exact hp r s h
  · rw [memOk_finish]
    exact hp r s h

theorem memOk_accept {p : CmdSpec} (hp : p.KeepsMem) {r : Req} {w : Who} {s : State} (h : s.memOk = true) : (p.accept r w s).memOk = true := by
  have hperform {s : State} (h : s.memOk = true) : (p.perform r s).memOk = true := memOk_perform hp h
  unfold CmdSpec.accept
  (repeat' split) <;> simp [h, hperform]

@[simp] theorem memOk_forward (s : State) (p : CmdSpec) (r : Req) (w : Who) : (s.forward p r w).memOk = s.memOk := by
  unfold State.forward
  dsimp only
  split
  · simp
  · have hmap := memOk_mapData s r (p.data r s)
    generalize s.mapData r (p.data r s) = x at hmap
    obtain ⟨t, _ | _⟩ := x
    · simpa using hmap
    · simpa using hmap

theorem memOk_runNow {p : CmdSpec} (hp : p.KeepsMem) (href : ∀ r x s, s.memOk = true → (p.refused r x s).memOk = true) {r : Req} {s : State}
    (h : s.memOk = true) : (p.runNow r s).memOk = true := by
  have htouch : (s.touchSession r).memOk = true := by simp [h]
  unfold CmdSpec.runNow
  dsimp only
  generalize s.touchSession r = s at htouch
  split
  · simp [htouch]
  · split
    · simp [htouch]
    · have hmap := memOk_mapData s r (p.data r s)
      generalize s.mapData r (p.data r s) = x at hmap
      rw [htouch] at hmap
      obtain ⟨t, _ | _⟩ := x
      · simpa using hmap
      · dsimp only
        split
        · rw [memOk_finish]
          exact href _ _ _ hmap
        · exact memOk_accept hp hmap

/-- A command is run, waits, or is passed over: its byte memories stay canonical where its action and its refusal keep them so. -/
theorem memOk_run {p : CmdSpec} (hp : p.KeepsMem) (href : ∀ r x s, s.memOk = true → (p.refused r x s).memOk = true) {r : Req} {s : State}
    (h : s.memOk = true) : (p.run r s).memOk = true := by
  unfold CmdSpec.run
  refine memOk_ite_of h (memOk_ite_of ?_ (memOk_runNow hp href (by simp [h])))
  simp [h]

theorem outOk_forceRow {n : Nat} {s : State} {ok : Force → Bool} {f : State → State} (hf : (f s).memOk = true) (h : s.memOk = true) :
    outOk (forceRow n s ok f) = true := by
  unfold forceRow
  (repeat' split) <;> simp [h, hf]

end Sys2Proof.Machine
end

section
/-! What the stoves, the program store and the force paths do. -/

set_option Elab.async false

namespace Sys2Proof.Machine

/-! ### Of the model's file FrontEnd -/

theorem keeps_feClearCountsSpec (r : Req) (s : State) (h : s.memOk = true) : (feClearCountsSpec.act r s).st.memOk = true := by
  simp [feClearCountsSpec, h]

/-! ### Of the model's file Protect -/

@[simp] theorem memOk_execRxTirwin (src : Nat) (pdu : List Byte) (carry : Option (Nat × Nat)) (s : State) (h : s.memOk = true) :
    outOk (execRxTirwin src pdu carry s) = true := by
  unfold execRxTirwin
  (repeat' split) <;> simp [h]

@[simp] theorem memOk_execTirwinExpiry (c : Nat) (s : State) (h : s.memOk = true) : outOk (execTirwinExpiry c s) = true := by
  simp [execTirwinExpiry, h]

@[simp] theorem memOk_execTripLoopDebounce (s : State) (h : s.memOk = true) : outOk (execTripLoopDebounce s) = true := by
  unfold execTripLoopDebounce
  split <;> simp [h]

theorem keeps_safeConfigSpec (r : Req) (s : State) (h : s.memOk = true) : (safeConfigSpec.act r s).st.memOk = true := by
  simp [safeConfigSpec, h]

theorem keeps_safeConnSpec (r : Req) (s : State) (h : s.memOk = true) : (safeConnSpec.act r s).st.memOk = true := by
  simp [safeConnSpec, h]

theorem keeps_safeArmSpec (r : Req) (s : State) (h : s.memOk = true) : (safeArmSpec.act r s).st.memOk = true := by
  unfold safeArmSpec
  dsimp only
  split <;> simp [h]

theorem keeps_tirwinPutSpec (r : Req) (s : State) (h : s.memOk = true) : (tirwinPutSpec.act r s).st.memOk = true := by
  simp [tirwinPutSpec, h]

/-! ### Of the model's file StoveBase -/

@[simp] theorem memOk_execCacheFillDone (sv cycles : Nat) (s : State) (h : s.memOk = true) :
    outOk (execCacheFillDone sv cycles s) = true := by
  unfold execCacheFillDone
  dsimp only
  (repeat' split) <;> simp [h]

@[simp] theorem memOk_execTrapCycles (sv stall : Nat) (s : State) (h : s.memOk = true) :
    outOk (execTrapCycles sv stall s) = true := by
  unfold execTrapCycles
  dsimp only
  (repeat' split) <;> simp [h]

@[simp] theorem memOk_execAlignWaitTimeout (sv i : Nat) (s : State) (h : s.memOk = true) :
    outOk (execAlignWaitTimeout sv i s) = true := by
  unfold execAlignWaitTimeout
  dsimp only
  (repeat' split) <;> simp [h]

@[simp] theorem memOk_execLawRunStart (sv : Nat) (s : State) (h : s.memOk = true) : outOk (execLawRunStart sv s) = true := by
  unfold execLawRunStart
  dsimp only
  (repeat' split) <;> simp [h]

/-! ### Of the model's file RawPath -/

@[simp] theorem memOk_rawOut (s : State) (n slot d : Nat) (w : Word) (e time bad : Nat) (h : s.memOk = true) :
    (s.rawOut n slot d w e time bad).memOk = true := by
  unfold State.rawOut
  dsimp only
  split <;> simp [h]

theorem keeps_tcConfigSpec (r : Req) (s : State) (h : s.memOk = true) : (tcConfigSpec.act r s).st.memOk = true := by
  unfold tcConfigSpec
  dsimp only
  split <;> simp [h]

/-! ### Of the model's file Calibration -/

theorem keeps_calConfigSpec (r : Req) (s : State) (h : s.memOk = true) : (calConfigSpec.act r s).st.memOk = true := by
  simp [calConfigSpec, h]

/-! ### Of the model's file Meter -/

@[simp] theorem memOk_execMeterRestoreDone (s : State) (h : s.memOk = true) : outOk (execMeterRestoreDone s) = true := by
  unfold execMeterRestoreDone
  dsimp only
  (repeat' split) <;> simp [h]

/-! ### Of the model's file StoveIsa -/

@[simp] theorem Stove.memOk_setReg (v : Stove) (i x : Nat) : (v.setReg i x).memOk = v.memOk := by
  simp [Stove.setReg]

@[simp] theorem memOk_stageLoop (s : State) (sv k : Nat) (r : LoopRec) : (s.stageLoop sv k r).memOk = s.memOk := by
  simp [State.stageLoop]

@[simp] theorem memOk_stageOut (s : State) (sv : Nat) (f : Staged → Staged) : (s.stageOut sv f).memOk = s.memOk := by
  simp [State.stageOut]

@[simp] theorem memOk_bankHead (s : State) (k : Nat) : (s.bankHead k).memOk = s.memOk := by
  unfold State.bankHead
  dsimp only
  split <;> simp

@[simp] theorem memOk_enqueuePs (s : State) (k : Nat) (o : PsOp) : (s.enqueuePs k o).memOk = s.memOk := by
  simp [State.enqueuePs]

@[simp] theorem memOk_releasePsreq (s : State) (sv a : Nat) : (s.releasePsreq sv a).memOk = s.memOk := by
  unfold State.releasePsreq
  dsimp only
  split <;> simp

@[simp] theorem memOk_releaseMsg (s : State) (sv c a : Nat) : (s.releaseMsg sv c a).memOk = s.memOk := by
  simp [State.releaseMsg]

@[simp] theorem memOk_releaseEvt (s : State) (sv law code : Nat) : (s.releaseEvt sv law code).memOk = s.memOk := by
  simp [State.releaseEvt]

/-! ### Of the model's file StoveCmd -/

theorem keeps_lawConfigSpec (r : Req) (s : State) (h : s.memOk = true) : (lawConfigSpec.act r s).st.memOk = true := by
  simp [lawConfigSpec, h]

@[simp] theorem Stove.memOk_bind (v : Stove) (r : Req) : (v.bind r).memOk = v.memOk := by
  unfold Stove.bind
  split <;> simp

theorem keeps_stoveBindSpec (r : Req) (s : State) (h : s.memOk = true) : (stoveBindSpec.act r s).st.memOk = true := by
  unfold stoveBindSpec
  dsimp only
  (repeat' split) <;> simp [h]

theorem keeps_stoveConfigSpec (r : Req) (s : State) (h : s.memOk = true) : (stoveConfigSpec.act r s).st.memOk = true := by
  simp [stoveConfigSpec, h]

theorem keeps_stoveCtrlSpec (r : Req) (s : State) (h : s.memOk = true) : (stoveCtrlSpec.act r s).st.memOk = true := by
  unfold stoveCtrlSpec
  dsimp only
  (repeat' split) <;> simp [h]

@[simp] theorem memOk_loopCommand (r : Req) (s : State) (h : s.memOk = true) : (loopCommand r s).st.memOk = true := by
  unfold loopCommand
  dsimp only
  (repeat' split) <;> simp [h]

theorem keeps_loopConfigSpec (r : Req) (s : State) (h : s.memOk = true) : (loopConfigSpec.act r s).st.memOk = true := by
  simp [loopConfigSpec, h]

theorem keeps_loopModeSpec (r : Req) (s : State) (h : s.memOk = true) : (loopModeSpec.act r s).st.memOk = true := by
  simp [loopModeSpec, h]

theorem keeps_loopSetSpec (r : Req) (s : State) (h : s.memOk = true) : (loopSetSpec.act r s).st.memOk = true := by
  simp [loopSetSpec, h]

theorem keeps_loopStatusSpec (r : Req) (s : State) (h : s.memOk = true) : (loopStatusSpec.act r s).st.memOk = true := by
  simp [loopStatusSpec, h]

@[simp] theorem memOk_execLoopCommandAct (sv : Nat) (s : State) (h : s.memOk = true) : outOk (execLoopCommandAct sv s) = true := by
  simp [execLoopCommandAct, h]

theorem keeps_psReadSpec (r : Req) (s : State) (h : s.memOk = true) : (psReadSpec.act r s).st.memOk = true := by
  simp [psReadSpec, h]

theorem keeps_psProgramSpec (r : Req) (s : State) (h : s.memOk = true) : (psProgramSpec.act r s).st.memOk = true := by
  simp [psProgramSpec, h]

theorem keeps_psEraseSpec (r : Req) (s : State) (h : s.memOk = true) : (psEraseSpec.act r s).st.memOk = true := by
  simp [psEraseSpec, h]

@[simp] theorem memOk_psDone (s : State) (k : Nat) (o : PsOp) (st : Status) : (s.psDone k o st).memOk = s.memOk := by
  unfold State.psDone
  (repeat' split) <;> simp

@[simp] theorem memOk_execPsOpStart (k : Nat) (s : State) (h : s.memOk = true) : outOk (execPsOpStart k s) = true := by
  unfold execPsOpStart
  dsimp only
  (repeat' split) <;> simp [h]

@[simp] theorem memOk_execXipHoldTimeout (k : Nat) (s : State) (h : s.memOk = true) : outOk (execXipHoldTimeout k s) = true := by
  unfold execXipHoldTimeout
  dsimp only
  (repeat' split) <;> simp [h]

/-! ### Of the model's file Faults -/

@[simp] theorem memOk_badFetch (s : State) (sv b : Nat) (h : s.memOk = true) : (s.badFetch sv b).memOk = true := by
  unfold State.badFetch
  (repeat' split) <;> simp [h]

@[simp] theorem memOk_stoveBack (s : State) (sv : Nat) : (s.stoveBack sv).memOk = s.memOk := by
  simp [State.stoveBack]

@[simp] theorem memOk_release (s : State) (rid : Nat) (r : FaultRec) : (s.release rid r).memOk = s.memOk := by
  unfold State.release
  (repeat' split) <;> simp

theorem keeps_faultClearSpec (r : Req) (s : State) (h : s.memOk = true) : (faultClearSpec.act r s).st.memOk = true := by
  simp [faultClearSpec, h]

/-! ### Of the model's file Power -/

@[simp] theorem PsBank.memOk_afterReset (b : PsBank) (seed : Nat) : (b.afterReset seed).memOk = b.memOk := by
  unfold PsBank.afterReset
  split <;> simp

@[simp] theorem memOk_va5Back (s : State) : s.va5Back.memOk = s.memOk := by
  simp [State.va5Back]

end Sys2Proof.Machine
end

section
/-! The instructions of a stove: one rule for the instruction cycle, one for each kind of effect. -/

set_option Elab.async false

namespace Sys2Proof.Machine

/-- What an instruction leaves, where it does not trap, has its byte memories in canonical form. -/
def resOk (r : Except Nat IRes) : Bool :=
  match r with
  | .ok r => r.st.memOk
  | .error _ => true

@[simp] theorem resOk_ok (r : IRes) : resOk (.ok r) = r.st.memOk := rfl
@[simp] theorem resOk_error (c : Nat) : resOk (.error c) = true := rfl
@[simp] theorem resOk_ite (c : Prop) [Decidable c] (o p : Except Nat IRes) : resOk (if c then o else p) = if c then resOk o else resOk p :=
  apply_ite resOk c o p

theorem outOk_svStep {sv cyc : Nat} {ok : Nat → Bool} {eff : Effect} {s : State} (heff : ∀ s x, s.memOk = true → resOk (eff s x) = true)
    (h : s.memOk = true) : outOk (svStep sv cyc ok eff s) = true := by
  unfold svStep
  split
  · rfl
  dsimp only
  split
  · exact h
  next x _ =>
    split
    · exact h
    split
    · exact memOk_trapRun sv 4 h
    have hx := heff s x h
    split
    · exact memOk_trapRun sv _ h
    next r hr =>
      rw [hr, resOk_ok] at hx
      split <;> simp [hx]

@[simp] theorem resOk_setA {s : State} (sv a : Nat) (f : Stove → Nat × Nat) (x : Run) (h : s.memOk = true) : resOk (setA sv a f s x) = true := by
  simp [setA, h]

@[simp] theorem resOk_fromPort {s : State} (sv a imm : Nat) (f : InPort → Nat) (x : Run) (h : s.memOk = true) :
    resOk (fromPort sv a imm f s x) = true := by
  simp [fromPort, h]

@[simp] theorem resOk_loopStep {s : State} (sv pv : Nat) (x : Run) (h : s.memOk = true) : resOk (loopStep sv pv s x) = true := by
  unfold loopStep
  dsimp only
  (repeat' split) <;> simp [h]

@[simp] theorem resOk_loopCtl {s : State} (sv val : Nat) (x : Run) (h : s.memOk = true) : resOk (loopCtl sv val s x) = true := by
  unfold loopCtl
  dsimp only
  (repeat' split) <;> simp [h]

@[simp] theorem resOk_sysWrite {s : State} (sv reg val : Nat) (x : Run) (h : s.memOk = true) : resOk (sysWrite sv reg val s x) = true := by
  unfold sysWrite
  dsimp only
  split <;> simp [h]

theorem outOk_setA {sv cyc a : Nat} {ok : Nat → Bool} {f : Stove → Nat × Nat} {s : State} (h : s.memOk = true) :
    outOk (svStep sv cyc ok (setA sv a f) s) = true :=
  outOk_svStep (fun _ x h => resOk_setA sv a f x h) h

theorem outOk_svR3 {op cyc sv a b c : Nat} {f : Nat → Nat → Nat × Nat} {s : State} (h : s.memOk = true) :
    outOk (svR3 op cyc sv a b c f s) = true :=
  outOk_setA h

theorem outOk_svI {op sv a b imm : Nat} {f : Nat → Nat → Nat × Nat} {s : State} (h : s.memOk = true) :
    outOk (svI op sv a b imm f s) = true :=
  outOk_setA h

theorem outOk_fromPort {sv cyc a imm : Nat} {ok : Nat → Bool} {f : InPort → Nat} {s : State} (h : s.memOk = true) :
    outOk (svStep sv cyc ok (fromPort sv a imm f) s) = true :=
  outOk_svStep (fun _ x h => resOk_fromPort sv a imm f x h) h

theorem outOk_svBranch {op sv a b imm : Nat} {p : Nat → Nat → Bool} {s : State} (h : s.memOk = true) :
    outOk (svBranch op sv a b imm p s) = true :=
  outOk_svStep (fun _ _ h => h) h

theorem outOk_svMacc {op sv a b c : Nat} {k : Int} {s : State} (h : s.memOk = true) : outOk (svMacc op k sv a b c s) = true :=
  outOk_svStep (fun _ _ h => by simp [h]) h

theorem outOk_svPick {op sv a b c : Nat} {mx : Bool} {s : State} (h : s.memOk = true) : outOk (svPick op mx sv a b c s) = true :=
  outOk_svStep (fun _ _ h => by simp [h]) h

theorem outOk_svScale {op sv a b imm : Nat} {f : Nat → Nat × Nat} {s : State} (h : s.memOk = true) :
    outOk (svScale op sv a b imm f s) = true :=
  outOk_svStep (fun _ _ h => by simp [h]) h

theorem memOk_execSvLw {s : State} (sv a b imm : Nat) (h : s.memOk = true) : outOk (execSvLw sv a b imm s) = true :=
  outOk_svStep (fun _ _ h => by simp [h]) h

theorem memOk_execSvSw {s : State} (sv a b imm : Nat) (h : s.memOk = true) : outOk (execSvSw sv a b imm s) = true := by
  refine outOk_svStep (fun s _ h => ?_) h
  dsimp only
  split
  · rfl
  · exact memOk_modStove_of (fun _ hv => Stove.memOk_dSet _ _ hv) sv h

theorem memOk_execSvJal {s : State} (sv a imm : Nat) (h : s.memOk = true) : outOk (execSvJal sv a imm s) = true :=
  outOk_svStep (fun _ _ h => by simp [h]) h

theorem memOk_execSvClamp {s : State} (sv a b c : Nat) (h : s.memOk = true) : outOk (execSvClamp sv a b c s) = true :=
  outOk_svStep (fun _ _ h => by simp [h]) h

theorem memOk_execSvTint {s : State} (sv a b c : Nat) (h : s.memOk = true) : outOk (execSvTint sv a b c s) = true := by
  refine outOk_svStep (fun s _ h => ?_) h
  dsimp only
  rw [resOk_ite, resOk_ite]
  simp [h]

theorem memOk_execSvCrc {s : State} (sv a b imm : Nat) (h : s.memOk = true) : outOk (execSvCrc sv a b imm s) = true :=
  outOk_svStep (fun _ _ h => by simp [h]) h

theorem memOk_execSvAclr {s : State} (sv a : Nat) (h : s.memOk = true) : outOk (execSvAclr sv a s) = true :=
  outOk_svStep (fun _ _ h => by simp [h]) h

theorem memOk_execSvAld {s : State} (sv a b c : Nat) (h : s.memOk = true) : outOk (execSvAld sv a b c s) = true :=
  outOk_svStep (fun _ _ h => by simp [h]) h

theorem memOk_execSvArd {s : State} (sv a b imm : Nat) (h : s.memOk = true) : outOk (execSvArd sv a b imm s) = true :=
  outOk_svStep (fun _ _ h => by simp [h]) h

theorem memOk_execSvSrr {s : State} (sv a imm : Nat) (h : s.memOk = true) : outOk (execSvSrr sv a imm s) = true := by
  refine outOk_svStep (fun s x h => ?_) h
  split <;> simp [h]

theorem memOk_execSvFout {s : State} (sv a imm : Nat) (h : s.memOk = true) : outOk (execSvFout sv a imm s) = true :=
  outOk_svStep (fun _ _ h => by simp [h]) h

theorem memOk_execSvMsg {s : State} (sv a imm : Nat) (h : s.memOk = true) : outOk (execSvMsg sv a imm s) = true := by
  refine outOk_svStep (fun s x h => ?_) h
  dsimp only
  split <;> simp [h]

theorem memOk_execSvQrec {s : State} (sv a imm : Nat) (h : s.memOk = true) : outOk (execSvQrec sv a imm s) = true :=
  outOk_svStep (fun _ _ h => by simp [h]) h

theorem memOk_execSvTripr {s : State} (sv a : Nat) (h : s.memOk = true) : outOk (execSvTripr sv a s) = true :=
  outOk_svStep (fun _ _ h => by simp [h]) h

theorem memOk_execSvTrg {s : State} (sv : Nat) (h : s.memOk = true) : outOk (execSvTrg sv s) = true :=
  outOk_svStep (fun _ _ h => by simp [h]) h

theorem memOk_execSvEvt {s : State} (sv a : Nat) (h : s.memOk = true) : outOk (execSvEvt sv a s) = true :=
  outOk_svStep (fun _ _ h => by simp [h]) h

theorem memOk_execSvPsreq {s : State} (sv a : Nat) (h : s.memOk = true) : outOk (execSvPsreq sv a s) = true :=
  outOk_svStep (fun _ _ h => by simp [h]) h

theorem memOk_execSvFcmp {s : State} (sv a b c x : Nat) (h : s.memOk = true) : outOk (execSvFcmp sv a b c x s) = true :=
  outOk_svStep (fun _ _ h => by simp [h]) h

end Sys2Proof.Machine
end

section
/-! Conversions. -/

set_option Elab.async false

namespace Sys2Proof.Machine

theorem memOk_execPortWordArrival {s : State} (sv p : Nat) (bad : Bool) (h : s.memOk = true) : outOk (execPortWordArrival sv p bad s) = true := by
  unfold execPortWordArrival
  split
  · rfl
  split
  · exact h
  next w _ =>
    extract_lets t x u word v
    have ht : t.memOk = true := by simp [t, h]
    split
    · simp [ht]
    split
    · simp [u, ht]
    · exact memOk_foldl_of (fun s i h => memOk_portLaw sv p i _ _ h) _ (by simp [v, ht])

@[simp] theorem memOk_convert {s : State} (n slot d e time t64 : Nat) (r q : Int) (forced : Forced) (bad : Nat) (h : s.memOk = true) :
    (s.convert n slot d e time t64 r q forced bad).memOk = true := by
  unfold State.convert
  extract_lets g x chop own res spr byTile out w entry src y s₁ s₂ s₃ s₄
  have h₂ : s₂.memOk = true := by simp [s₂, s₁, h]
  have h₃ : s₃.memOk = true := by simp [s₃, h₂]
  have h₄ : s₄.memOk = true := by simp [s₄, h₃]
  exact memOk_rawOut _ _ _ _ _ _ _ _ h₄

theorem memOk_execConversion {s : State} (n : Nat) (r q : Int) (forced : Forced) (bad : Nat) (h : s.memOk = true) :
    outOk (execConversion n r q forced bad s) = true := by
  unfold execConversion
  split
  · rfl
  extract_lets t slot d w l s₁ s₂
  have h₂ : s₂.memOk = true := by simp [s₂, s₁, h]
  split
  · exact h
  split
  · simp [h]
  split
  · exact h
  extract_lets early beforeSync time
  split
  · exact h
  split
  · simp [h]
  split
  · simp [h₂]
  · simp [memOk_convert, h]

end Sys2Proof.Machine
end

section
/-! The steps of the short sequence of a force output. -/

set_option Elab.async false

namespace Sys2Proof.Machine

theorem memOk_execLimitEpisodeStart {s : State} (n : Nat) (h : s.memOk = true) : outOk (execLimitEpisodeStart n s) = true :=
  outOk_forceRow (by simp [h]) h

theorem memOk_execLimitEpisodeEnd {s : State} (n : Nat) (h : s.memOk = true) : outOk (execLimitEpisodeEnd n s) = true :=
  outOk_forceRow (by simp [h]) h

theorem memOk_execFoldBack {s : State} (n : Nat) (h : s.memOk = true) : outOk (execFoldBack n s) = true :=
  outOk_forceRow (by simp [h]) h

theorem memOk_execContention {s : State} (n : Nat) (i : Int) (h : s.memOk = true) : outOk (execContention n i s) = true :=
  outOk_forceRow (by simp [h]) h

theorem memOk_execHizStep {s : State} (n : Nat) (h : s.memOk = true) : outOk (execHizStep n s) = true :=
  outOk_forceRow (by simp [h]) h

theorem memOk_execForceRetry {s : State} (n : Nat) (h : s.memOk = true) : outOk (execForceRetry n s) = true :=
  outOk_forceRow (by simp [h]) h

theorem memOk_execRetryOk {s : State} (n : Nat) (h : s.memOk = true) : outOk (execRetryOk n s) = true :=
  outOk_forceRow (by simp [h]) h

theorem memOk_execRetryCountReset {s : State} (n : Nat) (h : s.memOk = true) : outOk (execRetryCountReset n s) = true :=
  outOk_forceRow (by simp [h]) h

end Sys2Proof.Machine
end

section
/-! The end of a run and the program store. -/

set_option Elab.async false

namespace Sys2Proof.Machine

@[simp] theorem memOk_endRun {s : State} (sv : Nat) (x : Run) (h : s.memOk = true) : (s.endRun sv x).memOk = true := by
  unfold State.endRun
  extract_lets g s₁ s₂ s₃ s₄ s₅ s₆ s₇ s₈ s₉
  have h₁ : s₁.memOk = true := memOk_modStove_of (fun v hv => by
    have := Stove.memOk_foldl (f := fun v (e : Nat × LoopRec) => v.putLoop e.1 e.2) (fun _ _ h => Stove.memOk_putLoop _ _ h) x.loops hv
    simpa using this) sv h
  have h₃ : s₃.memOk = true := by simp [s₃, s₂, h₁]
  have h₄ : s₄.memOk = true := by
    unfold s₄
    split <;> simp [h₃]
  have h₇ : s₇.memOk = true := by simp [s₇, s₆, s₅, h₄]
  have h₈ : s₈.memOk = true := by
    unfold s₈
    split <;> simp [h₇]
  have h₉ : s₉.memOk = true := by
    unfold s₉
    split <;> simp [h₈]
  exact memOk_runEnded sv _ h₉

theorem memOk_execSvEnd {s : State} (sv : Nat) (h : s.memOk = true) : outOk (execSvEnd sv s) = true :=
  outOk_svStep (fun _ x h => memOk_endRun sv x h) h

theorem keeps_stoveLoadSpec : stoveLoadSpec.KeepsMem := fun r s h =>
  memOk_modStove_of (fun v hv => by
    rw [Stove.memOk_iff] at hv
    split
    · exact Stove.memOk_iff.2 ⟨hv.1, memWf_memSetBytes _ _ _ _ hv.2⟩
    · exact Stove.memOk_iff.2 ⟨memWf_memSetBytes _ _ _ _ hv.1, hv.2⟩) _ h

@[simp] theorem PsBank.memOk_apply {b : PsBank} (o : PsOp) (h : b.memOk = true) : (b.apply o).memOk = true := by
  unfold PsBank.apply
  split
  · exact memWf_memSetBytes _ _ _ _ h
  · exact memWf_filter _ _ _ h

theorem memOk_execPsOpDone {s : State} (k : Nat) (ok : Bool) (h : s.memOk = true) : outOk (execPsOpDone k ok s) = true := by
  unfold execPsOpDone
  split
  · rfl
  extract_lets b clear
  have hclear : ∀ s j, s.memOk = true → (clear s j).memOk = true := fun s j h => by
    unfold clear
    dsimp only
    split <;> simp [h]
  split
  · exact h
  next o _ _ =>
    split
    · exact h
    extract_lets s₁ s₂ s₃
    have h₁ : s₁.memOk = true := memOk_modBank_of (fun b hb => by
      cases ok
      · simp [hb]
      · simpa using PsBank.memOk_apply o hb) k h
    have h₂ : s₂.memOk = true := by simp [s₂, h₁]
    have h₃ : s₃.memOk = true := memOk_foldl_of hclear _ h₂
    simp [h₃]

end Sys2Proof.Machine
end

section
/-! Fences, reactions and detections. -/

set_option Elab.async false

namespace Sys2Proof.Machine

@[simp] theorem memOk_loseStove {s : State} (sv : Nat) (h : s.memOk = true) : (s.loseStove sv).memOk = true := by
  unfold State.loseStove
  extract_lets k mine drop s₁ s₂ s₃
  have hdrop : ∀ (s : State) k, (drop s k).memOk = s.memOk := fun s k => by
    unfold drop
    extract_lets b keep rest gone t
    have ht : t.memOk = s.memOk := by simp [t]
    split <;> simp [ht]
  have h₃ : s₃.memOk = true := by simp [s₃, s₂, s₁, hdrop, h]
  simp [h₃]

@[simp] theorem memOk_loseDie {s : State} (d : Nat) (h : s.memOk = true) : (s.loseDie d).memOk = true := by
  unfold State.loseDie
  extract_lets s₁ s₂ s₃ s₄ s₅ s₆
  have h₃ : s₃.memOk = true := memOk_foldl_of (fun _ _ h => memOk_loseStove _ h) _ (by simp [s₂, s₁, h])
  simp [s₆, s₅, s₄, h₃]

@[simp] theorem memOk_loseHearth {s : State} (f : Nat) (h : s.memOk = true) : (s.loseHearth f).memOk = true := by
  unfold State.loseHearth
  extract_lets s₁ s₂
  have h₁ : s₁.memOk = true := memOk_foldl_of (fun _ _ h => memOk_loseStove _ h) _ h
  simp [s₂, h₁]

@[simp] theorem memOk_latchFatal {s : State} (r : FaultRec) (rid die : Nat) (h : s.memOk = true) : (s.latchFatal r rid die).memOk = true := by
  unfold State.latchFatal
  split
  · exact h
  extract_lets before s₁ s₂ s₃ s₄ ring faults s₅ s₆
  have h₂ : s₂.memOk = true := memOk_foldl_of (fun _ _ h => memOk_loseStove _ h) _ (by simp [s₁, h])
  refine memOk_tripEdge _ ?_
  simp [s₆, s₅, s₄, s₃, h₂]

@[simp] theorem memOk_react {s : State} (r : FaultRec) (rid : Nat) (h : s.memOk = true) : (s.react r rid).memOk = true := by
  unfold State.react
  extract_lets f before c s₁ n g s₂ d s₃ faults s₄
  have h₃ : s₃.memOk = true := by simp [s₃, h]
  have h₄ : s₄.memOk = true := by
    unfold s₄
    split
    · split <;> simp [s₁, h]
    · simp [h]
    · simp [s₂, h]
    · simp [memOk_loseStove, h]
    · simp [memOk_loseDie, h₃]
    · split <;> simp [memOk_loseHearth, h]
    · exact memOk_latchFatal _ _ _ h
    · exact h
  exact memOk_tripEdge _ (memOk_tripCheck h₄)

@[simp] theorem memOk_openRec {s : State} (d : Detector) (det inst detail react : Nat) (escalated injected : Bool) (h : s.memOk = true) :
    (s.openRec d det inst detail react escalated injected).memOk = true := by
  unfold State.openRec
  extract_lets f taken cls now r s₁ s₂ faults
  split
  · exact memOk_react _ _ (by simp [s₂, s₁, h])
  · next rid _ =>
    extract_lets s₃ s₄ s₅ s₆
    have h₆ : s₆.memOk = true := by simp [s₆, s₅, s₄, s₃, h]
    split
    · exact memOk_react _ _ h₆
    · exact h₆

@[simp] theorem memOk_countSource {s : State} (d : Detector) (det inst detail react : Nat) (injected : Bool) (h : s.memOk = true) :
    (s.countSource d det inst detail react injected).memOk = true := by
  unfold State.countSource
  extract_lets f old times severe quiet entered s₁ s₂
  split
  · exact memOk_openRec _ _ _ _ _ _ _ (by simp [s₁, h])
  · simp [s₂, h]

@[simp] theorem memOk_refetch (s : State) (sv : Nat) : (s.refetch sv).memOk = s.memOk := by
  refine memOk_modStove (fun v => ?_) s sv
  split
  · rfl
  · dsimp only
    split <;> rfl

@[simp] theorem memOk_dataLoss {s : State} (det inst detail : Nat) (h : s.memOk = true) : (s.dataLoss det inst detail).memOk = true := by
  unfold State.dataLoss
  split <;> simp [h]

@[simp] theorem memOk_detect {s : State} (det inst detail : Nat) (h : s.memOk = true) : (s.detect det inst detail).memOk = true := by
  unfold State.detect
  split
  · exact h
  next d _ =>
    extract_lets inj faults s₁ faults' s₂ react injected faults'' s₃ s₄ merge
    have h₂ : s₂.memOk = true := by
      unfold s₂
      generalize inj = i
      cases i <;> simp [s₁, h]
    have h₄ : s₄.memOk = true := memOk_dataLoss _ _ _ (by simp [s₃, h₂])
    generalize merge = m
    cases m <;> simp [memOk_openRec, memOk_countSource, h₄]

theorem memOk_execFaultDetection {s : State} (d : Option Detection) (h : s.memOk = true) : outOk (execFaultDetection d s) = true := by
  unfold execFaultDetection
  (repeat' split) <;> simp [memOk_detect, h]

theorem memOk_execReactionDone {s : State} (rid : Nat) (h : s.memOk = true) : outOk (execReactionDone rid s) = true := by
  unfold execReactionDone
  extract_lets first faults s₁ r fence s₂ s₃
  have h₂ : s₂.memOk = true := memOk_react _ _ (by simp [s₁, h])
  simp [s₃, h₂, h]

theorem memOk_execShadowEnd {s : State} (rid : Nat) (h : s.memOk = true) : outOk (execShadowEnd rid s) = true := by
  unfold execShadowEnd
  extract_lets r again s₁
  split
  · exact h
  split
  · exact h
  refine memOk_foldl_of (fun s x h => ?_) _ (by simp [s₁, h])
  split
  · simp [memOk_openRec, h]
  · exact h

end Sys2Proof.Machine
end

section
/-! The host interface, the ring and the ageing plan. -/

set_option Elab.async false

namespace Sys2Proof.Machine

/-! ### Of the model's file Host -/

@[simp] theorem memOk_partCommands (s : State) (f : Nat) : (s.partCommands f).memOk = s.memOk := by
  simp [State.partCommands]

@[simp] theorem memOk_resetFn (s : State) (f : Nat) : (s.resetFn f).memOk = s.memOk := by
  simp [State.resetFn]

@[simp] theorem memOk_resetAllFns (s : State) : s.resetAllFns.memOk = s.memOk := by
  simp [State.resetAllFns]

@[simp] theorem memOk_execFlr (fn : Nat) (s : State) (h : s.memOk = true) : outOk (execFlr fn s) = true := by
  simp [execFlr, h]

@[simp] theorem memOk_linkLost (s : State) : s.linkLost.memOk = s.memOk := by
  simp [State.linkLost]

@[simp] theorem memOk_execDlDown (s : State) (h : s.memOk = true) : outOk (execDlDown s) = true := by
  simp [execDlDown, h]

@[simp] theorem memOk_execHotReset (s : State) (h : s.memOk = true) : outOk (execHotReset s) = true := by
  simp [execHotReset, h]

@[simp] theorem memOk_execPciePerstNAssert (s : State) (h : s.memOk = true) : outOk (execPciePerstNAssert s) = true := by
  simp [execPciePerstNAssert, h]

/-! ### Of the model's file Timers -/

@[simp] theorem memOk_stepTime (s : State) (d : Int) : (s.stepTime d).memOk = s.memOk := by
  simp [State.stepTime]

/-! ### Of the model's file Oblyn -/

@[simp] theorem memOk_promptWord (s : State) (g : Segment) (gap : Bool) : (s.promptWord g gap).memOk = s.memOk := by
  simp [State.promptWord]

@[simp] theorem memOk_takeSegment (s : State) (g : Segment) (u : SegUse) : (s.takeSegment g u).memOk = s.memOk := by
  unfold State.takeSegment
  (repeat' split) <;> simp

@[simp] theorem memOk_releaseAll (s : State) : s.releaseAll.memOk = s.memOk := by
  simp [State.releaseAll]

@[simp] theorem memOk_execRxCapture (src qid : Nat) (c : CaptureBody) (s : State) (h : s.memOk = true) :
    outOk (execRxCapture src qid c s) = true := by
  unfold execRxCapture
  (repeat' split) <;> simp [h]

@[simp] theorem memOk_linkFault (s : State) (a b : Nat) : (s.linkFault a b).memOk = s.memOk := by
  simp [State.linkFault]

@[simp] theorem memOk_dropLink (s : State) (east : Bool) (a b cause : Nat) :
    (s.dropLink east a b cause).memOk = s.memOk := by
  simp [State.dropLink]

@[simp] theorem memOk_execLinkDown (east : Bool) (a b cause : Nat) (s : State) (h : s.memOk = true) :
    outOk (execLinkDown east a b cause s) = true := by
  simp [execLinkDown, h]

@[simp] theorem memOk_execRxLinkFault (src fseq : Nat) (a b : Nat) (s : State) (h : s.memOk = true) :
    outOk (execRxLinkFault src fseq a b s) = true := by
  simp [execRxLinkFault, h]

@[simp] theorem memOk_execRxPlan (fseq seq switchAt : Nat) (order : List Nat) (avoid : List (Nat × Nat)) (s : State) (h : s.memOk = true) :
    outOk (execRxPlan fseq seq switchAt order avoid s) = true := by
  simp [execRxPlan, h]

@[simp] theorem memOk_execRouteHoldEnd (s : State) (h : s.memOk = true) : outOk (execRouteHoldEnd s) = true := by
  unfold execRouteHoldEnd
  dsimp only
  (repeat' split) <;> simp [h]

@[simp] theorem memOk_execFormationEnd (closed : Bool) (s : State) (h : s.memOk = true) : outOk (execFormationEnd closed s) = true := by
  simp [execFormationEnd, h]

@[simp] theorem memOk_crcFailed (s : State) (east : Bool) : (s.crcFailed east).memOk = s.memOk := by
  simp [State.crcFailed]

@[simp] theorem memOk_execUnknownFrameType (f : StrangeFrame) (s : State) (h : s.memOk = true) :
    outOk (execUnknownFrameType f s) = true := by
  unfold execUnknownFrameType
  (repeat' split) <;> simp [h]

/-! ### Of the model's file Ageing -/

@[simp] theorem memOk_replanned (s : State) (p : Replan) : (s.replanned p).memOk = s.memOk := by
  unfold State.replanned
  split <;> simp

@[simp] theorem memOk_execReplanDone (s : State) (h : s.memOk = true) : outOk (execReplanDone s) = true := by
  unfold execReplanDone
  (repeat' split) <;> simp [h]

@[simp] theorem memOk_changeRate (s : State) (d : Nat) (on : Bool) : (s.changeRate d on).memOk = s.memOk := by
  simp [State.changeRate]

theorem keeps_ageApplySpec (r : Req) (s : State) (h : s.memOk = true) : (ageApplySpec.act r s).st.memOk = true := by
  simp [ageApplySpec, h]

/-! ### Of the model's file Hearths -/

@[simp] theorem memOk_endChain1 (s : State) (n : Nat) : (s.endChain1 n).memOk = s.memOk := by
  simp [State.endChain1]

theorem keeps_chainGrantSpec (r : Req) (s : State) (h : s.memOk = true) : (chainGrantSpec.act r s).st.memOk = true := by
  unfold chainGrantSpec
  dsimp only
  split <;> simp [h]

end Sys2Proof.Machine
end

section
/-! Resets, kindling and the seal images. -/

set_option Elab.async false

namespace Sys2Proof.Machine

theorem memOk_iff {s : State} : s.memOk = true ↔
    s.stoveTab.all (fun e => e.2.memOk) = true ∧ s.sealImages.all (fun e => e.2.memOk) = true ∧ s.ps.all (fun e => e.2.memOk) = true := by
  rw [← memsOk_eta, memsOk, Bool.and_eq_true, Bool.and_eq_true, and_assoc]

@[simp] theorem memsOk_nil_stoves {s : State} (h : s.memOk = true) : memsOk [] s.ps s.sealImages = true := by
  obtain ⟨-, himages, hps⟩ := memOk_iff.1 h
  simp [memsOk, himages, hps]

@[simp] theorem memsOk_nil_images {s : State} (h : s.memOk = true) : memsOk s.stoveTab s.ps [] = true := by
  obtain ⟨hstoves, -, hps⟩ := memOk_iff.1 h
  simp [memsOk, hstoves, hps]

@[simp] theorem memOk_afterReset {s : State} (cause rail : Nat) (power : Bool) (h : s.memOk = true) :
    (s.afterReset cause rail power).memOk = true := by
  rw [State.afterReset, memOk_mk, memsOk_map_bank]
  · exact memsOk_nil_stoves h
  · simp

@[simp] theorem memOk_resetNode {s : State} (cause : Nat) (h : s.memOk = true) : (s.resetNode cause).memOk = true := by
  unfold State.resetNode
  exact memOk_afterReset _ _ _ (by simp [h])

theorem memOk_execPowerOn {s : State} (h : s.memOk = true) : outOk (execPowerOn s) = true :=
  memOk_afterReset 1 0 true h

theorem memOk_execSupplyBrownOut {s : State} (rail : Nat) (sent : List Nat) (h : s.memOk = true) :
    outOk (execSupplyBrownOut rail sent s) = true := by
  unfold execSupplyBrownOut
  extract_lets node s₁ lost s₂
  have h₁ : s₁.memOk = true := by simp [s₁, h]
  have h₂ : s₂.memOk = true := by simp [s₂, h₁]
  simp [h, h₁, h₂]

theorem memOk_execPowerFailReadbackDone {s : State} (h : s.memOk = true) : outOk (execPowerFailReadbackDone s) = true := by
  unfold execPowerFailReadbackDone
  extract_lets node l clog s₁ node' s₂
  have h₂ : s₂.memOk = true := by simp [s₂, s₁, h]
  split
  · simp [h]
  · simp [h, h₂]
  · exact h

theorem memOk_execRstNAssert {s : State} (h : s.memOk = true) : outOk (execRstNAssert s) = true := by
  unfold execRstNAssert
  extract_lets node s₁
  have h₁ : s₁.memOk = true := by simp [s₁, h]
  simp [h₁]

@[simp] theorem memOk_readRecords {s : State} (chk : KindleChecks) (h : s.memOk = true) : (s.readRecords chk).memOk = true := by
  unfold State.readRecords
  extract_lets s₁ trust roles s₂ node s₃ node'
  have h₁ : s₁.memOk = true := by simp [s₁, h]
  have h₂ : s₂.memOk = true := by simp [s₂, h₁]
  have h₃ : s₃.memOk = true := by simp [s₃, h₂]
  simp [h₃]

@[simp] theorem memOk_kindleEffect {s : State} (die u : Nat) (chk : KindleChecks) (h : s.memOk = true) : (s.kindleEffect die u chk).memOk = true := by
  unfold State.kindleEffect
  extract_lets ok s₁ s₂ s₃ n
  have h₃ : s₃.memOk = true := by simp [s₃, s₂, s₁, h]
  simp [h, h₃]

theorem memOk_execKindleUnit {s : State} (die : Nat) (chk : KindleChecks) (h : s.memOk = true) : outOk (execKindleUnit die chk s) = true := by
  unfold execKindleUnit
  extract_lets k u s₁
  have h₁ : s₁.memOk = true := by simp [s₁, h]
  split
  · rfl
  · split <;> simp [h, h₁]

@[simp] theorem memOk_devResetDone {s : State} (r : Req) (h : s.memOk = true) : (s.devResetDone r).memOk = true := by
  simp [State.devResetDone, h]

theorem keeps_devResetSpec : devResetSpec.KeepsMem := fun r s h => by
  unfold devResetSpec
  dsimp only
  split
  · simp [h]
  · split <;> simp [h]

theorem memOk_image {s : State} (n : Nat) (h : s.memOk = true) : (tget {} s.sealImages n).memOk = true :=
  of_tget SealImage.memOk {} s.sealImages n (memOk_iff.1 h).2.1 rfl

@[simp] theorem memOk_restoreImage {s : State} (n : Nat) (h : s.memOk = true) : (s.restoreImage n).memOk = true := by
  unfold State.restoreImage
  extract_lets x s₁ s₂
  have h₂ : s₂.memOk = true := by simp [s₂, s₁, h]
  have hx : x.stoves.all (fun e => e.2.memOk) = true := memOk_image n h
  clear_value s₂
  generalize x.stoves = l at hx ⊢
  rw [List.all_eq_true] at hx
  induction l generalizing s₂ with
  | nil => exact h₂
  | cons e l ih =>
    rw [List.forall_mem_cons] at hx
    refine ih _ (memOk_modStove_of (fun v _ => ?_) e.1 h₂) hx.2
    exact hx.1

@[simp] theorem memOk_makeLive {s : State} (badImages : List Nat) (n : Nat) (h : s.memOk = true) : (s.makeLive badImages n).memOk = true := by
  simp [State.makeLive, h]

theorem memOk_execVfEnable {s : State} (num : Nat) (enable : Bool) (badImages : List Nat) (h : s.memOk = true) :
    outOk (execVfEnable num enable badImages s) = true := by
  unfold execVfEnable
  extract_lets host s₁ before s₂ mask
  have h₁ : s₁.memOk = true := by simp [s₁, h]
  have h₂ : s₂.memOk = true := memOk_foldl_of (fun _ _ h => memOk_makeLive _ _ h) _ h₁
  simp [h, h₂]

theorem memOk_stove {s : State} (sv : Nat) (h : s.memOk = true) : (s.stove sv).memOk = true :=
  of_tget Stove.memOk {} s.stoveTab sv (memOk_iff.1 h).1 rfl

theorem memOk_sealImage {s : State} (n : Nat) (h : s.memOk = true) : (s.sealImage n).memOk = true := by
  simp [State.sealImage, SealImage.memOk, List.all_map, memOk_stove, h]

theorem keeps_hearthSealSpec : hearthSealSpec.KeepsMem := fun r s h => by
  unfold hearthSealSpec
  dsimp only
  split
  · have himage : (s.free.2.sealImage (r.u 16 0 3)).memOk = true := memOk_sealImage _ (by simp [h])
    obtain ⟨hstoves, himages, hps⟩ := memOk_iff.1 h
    exact memOk_iff.2 ⟨hstoves, all_tset (fun (e : Nat × SealImage) => e.2.memOk) _ _ _ himages himage, hps⟩
  · simp [h]

end Sys2Proof.Machine
end

section
/-! The host registers and the queues. -/

set_option Elab.async false

namespace Sys2Proof.Machine

theorem memOk_of_next {o : Host.Outcome State Fault Refusal} {t : State} (ho : outOk o = true) (ht : o = .next t) : t.memOk = true := by
  rwa [ht] at ho

@[simp] theorem memOk_rwlWrite {s : State} (off value : Nat) {f : State → State} (hf : (f s).memOk = true) (h : s.memOk = true) :
    (s.rwlWrite off value f).memOk = true := by
  simp [State.rwlWrite, hf, h]

@[simp] theorem memOk_writeClear {s : State} (v : Nat) (h : s.memOk = true) : (s.writeClear v).memOk = true := by
  simp [State.writeClear, h]

@[simp] theorem memOk_writeLink {s : State} (v : Nat) (h : s.memOk = true) : (s.writeLink v).memOk = true := by
  simp [State.writeLink, h]

theorem memOk_execClrDbVf {s : State} (k : Nat) (h : s.memOk = true) : outOk (execClrDbVf k s) = true := by
  simp [execClrDbVf, h]

@[simp] theorem memOk_writeAdmin {s : State} (fn off v : Nat) (h : s.memOk = true) : (s.writeAdmin fn off v).memOk = true := by
  unfold State.writeAdmin
  extract_lets a put vec put' s₁
  have hput : ∀ a, (put a).memOk = true := fun a => by simp [put, h]
  have hput' : ∀ a, (put' a).memOk = true := fun a => by simp [put', hput]
  have h₁ : s₁.memOk = true := hput' _
  split
  · split
    · split
      · exact hput' _
      · split
        next ht => exact memOk_of_next (memOk_execAdmqEnSet _ _ _ h) ht
        · exact h
    · split
      next ht => exact memOk_of_next (memOk_execAdmqEnClear _ _ h₁) ht
      · exact h₁
  · split
    · exact h
    · split <;> first | exact hput _ | exact h

@[simp] theorem memOk_writeRoot {s : State} (fn off v : Nat) (h : s.memOk = true) : (s.writeRoot fn off v).memOk = true := by
  unfold State.writeRoot
  extract_lets x put s₁
  have hput : ∀ y, (put y).memOk = true := fun y => by simp [put, h]
  have h₁ : s₁.memOk = true := by
    unfold s₁
    split
    next ht => exact memOk_of_next (memOk_execFnCtrlEn _ _ _ h) ht
    · exact h
  split
  · simp [h₁]
  · split
    · exact h
    · split <;> simp [hput, h]

@[simp] theorem memOk_writeBar0 {s : State} (fn off v : Nat) (h : s.memOk = true) : (s.writeBar0 fn off v).memOk = true := by
  simp [State.writeBar0, h]

theorem memOk_execRegisterWrite {s : State} (fn bar off : Nat) (len : WriteLen) (value : Nat) (h : s.memOk = true) :
    outOk (execRegisterWrite fn bar off len value s) = true := by
  unfold execRegisterWrite
  extract_lets put s₁
  have hput : ∀ (s : State) off v, s.memOk = true → (put s off v).memOk = true := fun s off v h => by
    simp [put, h]
  have h₁ : s₁.memOk = true := hput _ _ _ h
  simp [h, h₁, hput]

theorem memOk_takeEntry {s t : State} {qid v : Nat} (h : s.takeEntry qid = some (v, t)) : t.memOk = s.memOk := by
  unfold State.takeEntry at h
  extract_lets hst f at h
  split at h
  · obtain ⟨c, -, hc⟩ := Option.map_eq_some_iff.1 h
    cases hc
    simp [hst]
  · split at h
    · cases h
      simp
    · cases h
      simp [hst]
    · cases h
  · split at h
    · split at h
      · cases h
        simp
      · cases h
    · cases h
  · cases h
  · split at h
    · cases h
      simp [hst]
    · obtain ⟨x, -, hx⟩ := Option.map_eq_some_iff.1 h
      cases hx
      simp [hst]

theorem memOk_execEntryWrite {s : State} (qid : Nat) (host : List Host.Cell) (h : s.memOk = true) : outOk (execEntryWrite qid host s) = true := by
  unfold execEntryWrite
  extract_lets x f l s₁ size
  have h₁ : s₁.memOk = true := by simp [s₁, l, h]
  split
  · exact h
  split
  · exact h₁
  split
  · simp [h₁]
  next t _ _ =>
    extract_lets s₂ by_
    have h₂ : s₂.memOk = true := by
      unfold s₂
      split <;> simp [h₁]
    split
    · exact h₂
    next ht =>
      have h₃ := (memOk_takeEntry ht).trans h₂
      simp [h₃]

end Sys2Proof.Machine
end

section
/-! The commands of the table keep the byte memories canonical, done and refused. -/

set_option Elab.async false

namespace Sys2Proof.Machine

theorem keepsMem_of_mem_commandTable {r : Req} : ∀ p ∈ commandTable r, p.KeepsMem := by
  rw [commandTable_flat]
  simp only [List.forall_mem_cons]
  exact ⟨keeps_devIdentifySpec, keeps_feConfigSpec, keeps_feGroupConfigSpec, keeps_feStatusSpec, keeps_feClearCountsSpec, keeps_coreStatusSpec,
    keeps_coreClearCountsSpec, keeps_tileModeSpec, keeps_seqSlotsSpec, keeps_seqCommitSpec, keeps_seqArmSpec, keeps_seqTriggerSpec,
    keeps_seqStatusSpec, keeps_tcConfigSpec, keeps_tcResetSpec, keeps_tcStatusSpec, keeps_filtConfigSpec, keeps_filtCoefSpec,
    keeps_filtAdmitSpec, keeps_filtStatusSpec, keeps_filtSwapSpec, keeps_filtPresetSpec, keeps_filtDcbSpec, keeps_filtDcbReadSpec,
    keeps_filtSyncSpec, keeps_calConfigSpec, keeps_calRunSpec, keeps_calStatusSpec, keeps_calRowBurnSpec, keeps_calRowReadSpec,
    keeps_calSubstSpec, keeps_forceConfigSpec, keeps_forceTargetSpec, keeps_forceRestartSpec, keeps_forceStatusSpec, keeps_forceLoopbackSpec,
    keeps_stoveLoadSpec, keeps_lawConfigSpec, keeps_stoveBindSpec, keeps_stoveConfigSpec, keeps_stoveCtrlSpec, keeps_stoveStatusSpec,
    keeps_loopConfigSpec, keeps_loopModeSpec, keeps_loopSetSpec, keeps_loopStatusSpec, keeps_meterPairSpec, keeps_meterCtrlSpec,
    keeps_meterReadSpec, keeps_queueCreateSpec, keeps_queueDestroySpec, keeps_queueBindSpec, keeps_queueStatusSpec, keeps_lmapInvalSpec,
    keeps_ringConfigSpec, keeps_ringStatusSpec, keeps_ringBypassSpec, keeps_ringTriggerSpec, keeps_sessionOpenSpec, keeps_sessionCloseSpec,
    keeps_rolePasswordSpec, keeps_makerChallengeSpec, keeps_hearthAssignSpec, keeps_hearthSharesSpec, keeps_chainGrantSpec,
    keeps_hearthSealSpec, keeps_hearthStatusSpec, keeps_clogReadSpec, keeps_clogArchiveSpec, keeps_safeConfigSpec, keeps_safeConnSpec,
    keeps_safeArmSpec, keeps_safeStatusSpec, keeps_tirwinPutSpec, keeps_faultConfigSpec, keeps_faultReadSpec, keeps_faultClearSpec,
    keeps_faultInjectSpec, keeps_evlogReadSpec, keeps_devResetSpec, keeps_ageReplanSpec, keeps_ageStatusSpec, keeps_agePlanReadSpec,
    keeps_ageApplySpec, keeps_psReadSpec, keeps_psProgramSpec, keeps_psEraseSpec, keeps_psStatusSpec,
    List.forall_mem_nil _⟩

theorem memOk_refused_sessionOpenSpec {r : Req} {x : Status} {s : State} (h : s.memOk = true) : (sessionOpenSpec.refused r x s).memOk = true := by
  unfold sessionOpenSpec
  dsimp only
  (repeat' split) <;> simp [h]

/-- What a refusal leaves: SESSION_OPEN counts its failure, every other command changes nothing (R15, R471). -/
theorem memOk_refused_of_mem_commandTable {q : Req} :
    ∀ p ∈ commandTable q, ∀ (r : Req) (x : Status) (s : State), s.memOk = true → (p.refused r x s).memOk = true := by
  rw [commandTable_flat]
  simp only [List.forall_mem_cons]
  and_intros <;> first
    | exact fun _ _ _ h => h
    | exact fun _ _ _ h => memOk_refused_sessionOpenSpec h
    | exact List.forall_mem_nil _

theorem mem_commandTable_of_specOf {r : Req} {p : CmdSpec} (h : specOf r = some p) : p ∈ commandTable r := List.mem_of_find?_eq_some h

theorem memOk_run_of_mem {p : CmdSpec} {q r : Req} {s : State} (hp : p ∈ commandTable q) (h : s.memOk = true) : (p.run r s).memOk = true :=
  memOk_run (keepsMem_of_mem_commandTable p hp) (memOk_refused_of_mem_commandTable p hp) h

theorem mem_commandTable_of_commandOf {i : Instr} {r : Req} {p : CmdSpec} (h : commandOf i = some (r, p)) : p ∈ commandTable r := by
  rw [commandTable_flat]
  unfold commandOf at h
  split at h
  case h_89 => cases h
  all_goals
    cases h
    simp

/-- A command of the table, met as a command of the model. -/
theorem memOk_exec_of_commandOf {i : Instr} {r : Req} {p : CmdSpec} {s : State} (hi : commandOf i = some (r, p)) (h : s.memOk = true) :
    outOk (exec i s) = true := by
  rw [exec_of_commandOf hi]
  exact memOk_run_of_mem (mem_commandTable_of_commandOf hi) h

end Sys2Proof.Machine
end

section
/-! What a command leaves behind it: the change log, the waiting commands, the manager's views of its workers. -/

set_option Elab.async false

namespace Sys2Proof.Machine

@[simp] theorem memOk_afterEntry {s : State} (w : ClogFor) (h : s.memOk = true) : (s.afterEntry w).memOk = true := by
  unfold State.afterEntry
  split
  · split
    next hp => exact memOk_perform (keepsMem_of_mem_commandTable _ (mem_commandTable_of_specOf hp)) h
    · exact h
  all_goals simp [h]

theorem memOk_execChangeLogEntryDone {s : State} (ok : Bool) (h : s.memOk = true) : outOk (execChangeLogEntryDone ok s) = true := by
  unfold execChangeLogEntryDone
  split
  · exact h
  split
  · exact h
  extract_lets clog s₁ s₂ s₃
  have h₁ : s₁.memOk = true := by simp [s₁, h]
  have h₂ : s₂.memOk = true := by
    unfold s₂
    split <;> simp [h₁]
  have h₃ : s₃.memOk = true := by simp [s₃, h₁]
  split
  · exact memOk_afterEntry _ h₂
  · split <;> simp [h₃]

@[simp] theorem memOk_learn (s : State) (n : Nat) (r : Req) : (s.learn n r).memOk = s.memOk := by
  unfold State.learn
  split
  · simp [State.putView]
  · rfl

@[simp] theorem memOk_endForeign (s : State) : s.endForeign.memOk = s.memOk := by
  unfold State.endForeign
  extract_lets s₁ stays
  have h₁ : s₁.memOk = s.memOk := memOk_foldl (fun s e => memOk_foldl (fun s cap => by split <;> [split; skip] <;> simp) _ s) _ s
  rw [memOk_mk, memsOk_map_stove]
  · simpa using h₁
  · simp

@[simp] theorem memOk_forwardDone (s : State) (f : Forwarded) (st : Status) (result : Nat) : (s.forwardDone f st result).memOk = s.memOk := by
  unfold State.forwardDone
  extract_lets ring s₁ o s₂ s₃
  have h₁ : s₁.memOk = s.memOk := by simp [s₁]
  have h₂ : s₂.memOk = s.memOk := by simp [s₂, h₁]
  have h₃ : s₃.memOk = s.memOk := by simp [s₃, h₁, h₂]
  simp [h₃]

theorem memOk_startWaiting {s : State} (e : Req × List (Nat × Nat)) (h : s.memOk = true) : (s.startWaiting e).memOk = true := by
  unfold State.startWaiting
  extract_lets host s₁
  have h₁ : s₁.memOk = true := by simp [s₁, h]
  split
  next p hp =>
    have hmem := mem_commandTable_of_specOf hp
    exact memOk_runNow (keepsMem_of_mem_commandTable p hmem) (memOk_refused_of_mem_commandTable p hmem) h₁
  · exact h₁

theorem memOk_idle {s : State} (h : s.memOk = true) : s.idle.memOk = true := by
  unfold State.idle
  split
  · exact h
  split
  · exact memOk_startWaiting _ h
  · simp [h]

end Sys2Proof.Machine
end

section
/-! The ring. -/

set_option Elab.async false

namespace Sys2Proof.Machine

@[simp] theorem memOk_releaseHeld (s : State) (n : Nat) : (s.releaseHeld n).memOk = s.memOk := by
  induction n generalizing s with
  | zero => rfl
  | succ n ih =>
    rw [State.releaseHeld]
    split
    · rfl
    · simp [ih]

@[simp] theorem memOk_segmentsIn (s : State) (prompt newRoute : Bool) (l : List Segment) : (s.segmentsIn prompt newRoute l).memOk = s.memOk := by
  unfold State.segmentsIn
  extract_lets holding u
  exact memOk_foldl (fun s g => by simp) l s

theorem memOk_execRxPrompt {s : State} (newRoute : Bool) (segs : List Segment) (h : s.memOk = true) :
    outOk (execRxPrompt newRoute segs s) = true := by
  simp [execRxPrompt, h]

theorem memOk_execRxPacked {s : State} (newRoute : Bool) (segs : List Segment) (h : s.memOk = true) :
    outOk (execRxPacked newRoute segs s) = true := by
  simp [execRxPacked, h]

@[simp] theorem memOk_timeError (s : State) (e : Int) : (s.timeError e).memOk = s.memOk := by
  unfold State.timeError
  extract_lets r err s₁ before s₂ s₃ back prot s₄ s₅
  have h₁ : s₁.memOk = s.memOk := by simp [s₁]
  have h₂ : s₂.memOk = s.memOk := by simp [s₂, h₁]
  have h₃ : s₃.memOk = s.memOk := by simp [s₃, h₂]
  have h₄ : s₄.memOk = s.memOk := by simp [s₄, h₁]
  have h₅ : s₅.memOk = s.memOk := by simp [s₅, h₄]
  simp [h₁, h₃, h₅]

theorem memOk_execRxTime {s : State} (east : Bool) (sub res : Nat) (f : TimeFrame) (h : s.memOk = true) :
    outOk (execRxTime east sub res f s) = true := by
  unfold execRxTime
  extract_lets p tRx tM e s₁ s₂ at_ s₃ ring g s₄ fresh r active s₅
  have h₃ : s₃.memOk = true := by simp [s₃, s₂, s₁, h]
  have h₅ : s₅.memOk = true := by simp [s₅, s₄, h₃]
  simp [h, h₃, h₅]

theorem memOk_execRxAck {s : State} (src tag : Nat) (h : s.memOk = true) : outOk (execRxAck src tag s) = true := by
  unfold execRxAck
  extract_lets s₁
  have h₁ : s₁.memOk = true := by simp [s₁, h]
  split
  · exact h
  split
  · exact h₁
  · simp [h₁]

theorem memOk_execRxNumber {s : State} (tag num : Nat) (w : RingWorker) (h : s.memOk = true) : outOk (execRxNumber tag num w s) = true := by
  unfold execRxNumber
  extract_lets r kept known full body n old rejoined s₁ s₂ s₃ s₄ s₅ s₆ s₇
  have h₁ : s₁.memOk = true := by simp [s₁, h]
  have h₂ : s₂.memOk = true := by simp [s₂, h₁]
  have h₃ : s₃.memOk = true := by simp [s₃, h₂]
  have h₄ : s₄.memOk = true := by simp [s₄, h₃]
  have h₇ : s₇.memOk = true := by simp [s₇, s₆, s₅, h₄]
  split
  · exact h
  split
  · split
    · exact h
    · have htag := memOk_takeTag s 0 tag
      split <;> simp_all
  · split
    · simp [h]
    · split <;> simp [h₇]

theorem memOk_execRxCpl {s : State} (src tag cmd status result addr len val : Nat) (h : s.memOk = true) :
    outOk (execRxCpl src tag cmd status result addr len val s) = true := by
  unfold execRxCpl
  split
  · exact h
  have htag := memOk_takeTag s src tag
  generalize s.takeTag src tag = x at htag
  obtain ⟨t, _ | _⟩ := x
  · exact htag.trans h
  replace htag : t.memOk = true := htag.trans h
  dsimp only
  split
  · simp [htag]
  · simp [htag]
  · split <;> simp [htag]
  · exact htag

theorem memOk_execRxEvent {s : State} (src tag time code hearth subject held detail : Nat) (h : s.memOk = true) :
    outOk (execRxEvent src tag time code hearth subject held detail s) = true := by
  unfold execRxEvent
  split
  · exact h
  have htag := memOk_takeTag s src tag
  generalize s.takeTag src tag = x at htag
  obtain ⟨t, _ | _⟩ := x
  · exact htag.trans h
  replace htag : t.memOk = true := htag.trans h
  simp [htag]

theorem memOk_execRxCmd {s : State} (src tag : Nat) (c : CmdFrame) (h : s.memOk = true) : outOk (execRxCmd src tag c s) = true := by
  unfold execRxCmd
  extract_lets from_ k q r
  split
  · exact h
  have htag := memOk_takeTag s src tag
  generalize s.takeTag src tag = x at htag
  obtain ⟨t, _ | _⟩ := x
  · replace htag : t.memOk = true := htag.trans h
    dsimp only
    split <;> simp [htag]
  replace htag : t.memOk = true := htag.trans h
  dsimp only
  split
  · exact memOk_foldl_of (fun _ _ h => memOk_makeLive _ _ h) _ htag
  iterate 6
    split
    · simp [htag]
  split
  next hp => exact memOk_run_of_mem (mem_commandTable_of_specOf hp) (by simp [htag])
  · simp [htag]

end Sys2Proof.Machine
end

section
/-! Every command, and the step. -/

set_option Elab.async false

namespace Sys2Proof.Machine

theorem memOk_exec {i : Instr} {s : State} (h : s.memOk = true) : outOk (exec i s) = true := by
  cases i with
  | devIdentify | feConfig | feGroupConfig | feStatus | feClearCounts | coreStatus | coreClearCounts | tileMode | seqSlots | seqCommit |
      seqArm | seqTrigger | seqStatus | tcConfig | tcReset | tcStatus | filtConfig | filtCoef | filtAdmit | filtStatus | filtSwap |
      filtPreset | filtDcb | filtDcbRead | filtSync | calConfig | calRun | calStatus | calRowBurn | calRowRead | calSubst | forceConfig |
      forceTarget | forceRestart | forceStatus | forceLoopback | stoveLoad | lawConfig | stoveBind | stoveConfig | stoveCtrl | stoveStatus |
      loopConfig | loopMode | loopSet | loopStatus | meterPair | meterCtrl | meterRead | queueCreate | queueDestroy | queueBind |
      queueStatus | lmapInval | ringConfig | ringStatus | ringBypass | ringTrigger | sessionOpen | sessionClose | rolePassword |
      makerChallenge | hearthAssign | hearthShares | chainGrant | hearthSeal | hearthStatus | clogRead | clogArchive | safeConfig | safeConn
      | safeArm | safeStatus | tirwinPut | faultConfig | faultRead | faultClear | faultInject | evlogRead | devReset | ageReplan | ageStatus
      | agePlanRead | ageApply | psRead | psProgram | psErase | psStatus => exact memOk_exec_of_commandOf rfl h
  | powerOn => exact memOk_execPowerOn h
  | supplyBrownOut => exact memOk_execSupplyBrownOut _ _ h
  | supplyRange => exact memOk_execSupplyRange _ _ _ _ h
  | va5PowerFail => exact memOk_execVa5PowerFail _ h
  | powerFailProgramDone => exact memOk_execPowerFailProgramDone _ h
  | powerFailReadbackDone => exact memOk_execPowerFailReadbackDone h
  | rstNAssert => exact memOk_execRstNAssert h
  | resetRelease => exact memOk_execResetRelease _ _ h
  | kindleDie => exact memOk_execKindleDie _ _ h
  | kindleUnit => exact memOk_execKindleUnit _ _ h
  | kindleLane => exact memOk_execKindleLane _ _ h
  | flueBridgeTimeout => exact memOk_execFlueBridgeTimeout _ _ h
  | kindleQueueSlot => exact memOk_execKindleQueueSlot _ _ h
  | triadSettled => exact memOk_execTriadSettled _ _ h
  | coarseSearchDone => exact memOk_execCoarseSearchDone _ _ _ _ _ _ _ h
  | calPassDone => exact memOk_execCalPassDone _ _ _ h
  | dclkLoss => exact memOk_execDclkLoss _ h
  | dclkAbsentTimeout => exact memOk_execDclkAbsentTimeout _ h
  | draughtSourceReturn => exact memOk_execDraughtSourceReturn _ _ h
  | recoveredClockLoss => exact memOk_execRecoveredClockLoss _ _ h
  | oscillatorTrim => exact memOk_execOscillatorTrim _ h
  | tempCompensation => exact memOk_execTempCompensation _ _ _ h
  | ovpOpen => exact memOk_execOvpOpen _ _ _ h
  | ovpClose => exact memOk_execOvpClose _ _ h
  | cmxEntry => exact memOk_execCmxEntry _ _ _ h
  | conversion => exact memOk_execConversion _ _ _ _ _ h
  | flushExpiry => exact memOk_execFlushExpiry _ _ h
  | engineJob => exact memOk_execEngineJob _ _ h
  | flueTransfer => exact memOk_execFlueTransfer _ _ _ h
  | dieKeepaliveTimeout => exact memOk_execDieKeepaliveTimeout _ _ h
  | seqCommitEffective => exact memOk_execSeqCommitEffective _ _ h
  | triggerArrival => exact memOk_execTriggerArrival _ h
  | runStart => exact memOk_execRunStart _ _ h
  | runEnd => exact memOk_execRunEnd _ _ h
  | limitEpisodeStart => exact memOk_execLimitEpisodeStart _ h
  | limitEpisodeEnd => exact memOk_execLimitEpisodeEnd _ h
  | foldBack => exact memOk_execFoldBack _ h
  | hizStep => exact memOk_execHizStep _ h
  | forceRetry => exact memOk_execForceRetry _ h
  | retryOk => exact memOk_execRetryOk _ h
  | retryCountReset => exact memOk_execRetryCountReset _ h
  | contention => exact memOk_execContention _ _ h
  | rampDownDone => exact memOk_execRampDownDone _ _ h
  | loopbackLevelDone => exact memOk_execLoopbackLevelDone _ _ _ h
  | swapInstant => exact memOk_execSwapInstant _ _ _ h
  | swapComplete => exact memOk_execSwapComplete _ _ _ h
  | syncPinEdge => exact memOk_execSyncPinEdge _ _ h
  | syncAct => exact memOk_execSyncAct _ h
  | syncDone => exact memOk_execSyncDone _ _ h
  | trackingDone => exact memOk_execTrackingDone _ _ h
  | handBackDone => exact memOk_execHandBackDone _ _ h
  | handoverTimeout => exact memOk_execHandoverTimeout _ _ h
  | rollingStep => exact memOk_execRollingStep _ _ h
  | faultSubstitution => exact memOk_execFaultSubstitution _ _ h
  | rowBurnDone => exact memOk_execRowBurnDone _ _ _ h
  | portWordArrival => exact memOk_execPortWordArrival _ _ _ h
  | alignWaitTimeout => exact memOk_execAlignWaitTimeout _ _ _ h
  | lawRunStart => exact memOk_execLawRunStart _ _ h
  | trapCycles => exact memOk_execTrapCycles _ _ _ h
  | cacheFillDone => exact memOk_execCacheFillDone _ _ _ h
  | svSrr => exact memOk_execSvSrr _ _ _ h
  | svLw => exact memOk_execSvLw _ _ _ _ h
  | svSw => exact memOk_execSvSw _ _ _ _ h
  | svJal => exact memOk_execSvJal _ _ _ h
  | svClamp => exact memOk_execSvClamp _ _ _ _ h
  | svTint => exact memOk_execSvTint _ _ _ _ h
  | svCrc => exact memOk_execSvCrc _ _ _ _ h
  | svAclr => exact memOk_execSvAclr _ _ h
  | svAld => exact memOk_execSvAld _ _ _ _ h
  | svArd => exact memOk_execSvArd _ _ _ _ h
  | svFout => exact memOk_execSvFout _ _ _ h
  | svMsg => exact memOk_execSvMsg _ _ _ h
  | svQrec => exact memOk_execSvQrec _ _ _ h
  | svTripr => exact memOk_execSvTripr _ _ h
  | svTrg => exact memOk_execSvTrg _ h
  | svEvt => exact memOk_execSvEvt _ _ h
  | svFcmp => exact memOk_execSvFcmp _ _ _ _ _ h
  | svPsreq => exact memOk_execSvPsreq _ _ h
  | svEnd => exact memOk_execSvEnd _ h
  | loopCommandAct => exact memOk_execLoopCommandAct _ _ h
  | psOpStart => exact memOk_execPsOpStart _ _ h
  | xipHoldTimeout => exact memOk_execXipHoldTimeout _ _ h
  | psOpDone => exact memOk_execPsOpDone _ _ h
  | pairInstant => exact memOk_execPairInstant _ _ h
  | pairStart => exact memOk_execPairStart _ _ h
  | periodicRecord => exact memOk_execPeriodicRecord _ h
  | meterRecordDone => exact memOk_execMeterRecordDone _ _ h
  | meterRestoreDone => exact memOk_execMeterRestoreDone _ h
  | pcieLinkUp => exact memOk_execPcieLinkUp _ _ _ h
  | dlDown => exact memOk_execDlDown _ h
  | hotReset => exact memOk_execHotReset _ h
  | pciePerstNAssert => exact memOk_execPciePerstNAssert _ h
  | pciePerstNRelease => exact memOk_execPciePerstNRelease _ h
  | flr => exact memOk_execFlr _ _ h
  | flrDone => exact memOk_execFlrDone _ _ h
  | vfEnable => exact memOk_execVfEnable _ _ _ h
  | linkRetrainDone => exact memOk_execLinkRetrainDone _ _ _ h
  | hostReadCompletion => exact memOk_execHostReadCompletion _ _ _ h
  | completionTimeout => exact memOk_execCompletionTimeout _ _ h
  | doorbell => exact memOk_execDoorbell _ _ _ _ _ _ _ h
  | commandFetch => exact memOk_execCommandFetch _ _ _ h
  | entryWrite => exact memOk_execEntryWrite _ _ h
  | damperTick => exact memOk_execDamperTick _ h
  | invalidationEnd => exact memOk_execInvalidationEnd _ h
  | msixModTimer => exact memOk_execMsixModTimer _ _ _ h
  | msixUnmask => exact memOk_execMsixUnmask _ _ _ h
  | admqEnSet => exact memOk_execAdmqEnSet _ _ _ h
  | admqEnClear => exact memOk_execAdmqEnClear _ _ h
  | fnCtrlEn => exact memOk_execFnCtrlEn _ _ _ h
  | tlbInv => exact memOk_execTlbInv _ _ h
  | devTimeLoRead => exact memOk_execDevTimeLoRead _ _ h
  | faultTimeLoRead => exact memOk_execFaultTimeLoRead _ h
  | clrDbVf => exact memOk_execClrDbVf _ h
  | resetArm => exact memOk_execResetArm _ _ h
  | resetArmExpiry => exact memOk_execResetArmExpiry _ h
  | resetGo => exact memOk_execResetGo _ h
  | registerWrite => exact memOk_execRegisterWrite _ _ _ _ _ h
  | linkUp => exact memOk_execLinkUp _ _ _ _ _ h
  | linkDown => exact memOk_execLinkDown _ _ _ _ _ h
  | rxTirwin => exact memOk_execRxTirwin _ _ _ _ h
  | rxLinkFault => exact memOk_execRxLinkFault _ _ _ _ _ h
  | rxTime => exact memOk_execRxTime _ _ _ _ h
  | rxDelayReq => exact memOk_execRxDelayReq _ _ _ _ h
  | rxDelayResp => exact memOk_execRxDelayResp _ _ _ _ _ h
  | rxSync => exact memOk_execRxSync _ _ _ _ h
  | rxTrigger => exact memOk_execRxTrigger _ _ _ _ _ h
  | rxPlan => exact memOk_execRxPlan _ _ _ _ _ _ h
  | rxPrompt => exact memOk_execRxPrompt _ _ h
  | rxMessage src fseq a b => exact memOk_execRxMessage src fseq a b s h
  | rxPacked => exact memOk_execRxPacked _ _ h
  | rxCmd => exact memOk_execRxCmd _ _ _ h
  | rxCpl => exact memOk_execRxCpl _ _ _ _ _ _ _ _ h
  | rxEvent => exact memOk_execRxEvent _ _ _ _ _ _ _ _ h
  | rxAck => exact memOk_execRxAck _ _ h
  | rxNumber => exact memOk_execRxNumber _ _ _ h
  | rxCapture => exact memOk_execRxCapture _ _ _ _ h
  | rxLog => exact memOk_execRxLog _ _ _ _ h
  | timeSend => exact memOk_execTimeSend _ h
  | delayReqSend => exact memOk_execDelayReqSend _ _ h
  | packedSendTimeout => exact memOk_execPackedSendTimeout _ h
  | timeLossTimeout => exact memOk_execTimeLossTimeout _ h
  | resendTimeout => exact memOk_execResendTimeout _ h
  | commandWaitTimeout => exact memOk_execCommandWaitTimeout _ h
  | formationEnd => exact memOk_execFormationEnd _ _ h
  | insertionTimeout => exact memOk_execInsertionTimeout _ h
  | joinOffer => exact memOk_execJoinOffer _ h
  | joinTime => exact memOk_execJoinTime _ h
  | joinTimeout => exact memOk_execJoinTimeout _ h
  | planSwitch => exact memOk_execPlanSwitch _ h
  | routeHoldEnd => exact memOk_execRouteHoldEnd _ h
  | sessionTimeout => exact memOk_execSessionTimeout _ h
  | lockoutEnd => exact memOk_execLockoutEnd _ h
  | lockoutRecordWrite => exact memOk_execLockoutRecordWrite _ h
  | changeLogEntryDone => exact memOk_execChangeLogEntryDone _ h
  | heartbeatTimer => exact memOk_execHeartbeatTimer _ _ h
  | pduHoldRelease => exact memOk_execPduHoldRelease _ _ h
  | tirwinExpiry => exact memOk_execTirwinExpiry _ _ h
  | tripLoopChange => exact memOk_execTripLoopChange _ _ h
  | tripLoopDebounce => exact memOk_execTripLoopDebounce _ h
  | minPulseEnd => exact memOk_execMinPulseEnd _ h
  | faultDetection => exact memOk_execFaultDetection _ h
  | reactionDone => exact memOk_execReactionDone _ h
  | shadowEnd => exact memOk_execShadowEnd _ h
  | tripLineSelfTest => exact memOk_execTripLineSelfTest _ _ _ h
  | injectTimeout => exact memOk_execInjectTimeout _ h
  | ramLogWrite => exact memOk_execRamLogWrite _ h
  | tokenRefill => exact memOk_execTokenRefill _ h
  | gaugeRead => exact memOk_execGaugeRead _ _ _ _ h
  | hourlyMean => exact memOk_execHourlyMean _ h
  | scheduledReplan => exact memOk_execScheduledReplan _ h
  | replanDone => exact memOk_execReplanDone _ h
  | forceUpdate => exact memOk_execForceUpdate _ _ h
  | linkRetrainStart => exact memOk_execLinkRetrainStart _ h
  | unknownFrameType => exact memOk_execUnknownFrameType _ _ h
  | malformedBarRead => exact memOk_execMalformedBarRead _ _ h
  | faultManagerSelfTest => exact memOk_execFaultManagerSelfTest _ _ h
  | flashLogRecordDone => exact memOk_execFlashLogRecordDone _ _ h
  | powerFailRegionErased => exact memOk_execPowerFailRegionErased _ h
  | fallbackMoveTimeout => exact memOk_execFallbackMoveTimeout _ h
  | svNop | svJr =>
    simp only [exec, execSvNop, execSvJr]
    exact outOk_svStep (fun _ _ h => h) h
  | svAdd | svSub | svAdds | svSubs | svAnd | svOr | svXor | svShl | svShr | svSra | svMul | svMulh | svFadd | svFsub | svFmul | svFdiv =>
    simp only [exec, execSvAdd, execSvSub, execSvAdds, execSvSubs, execSvAnd, execSvOr, execSvXor, execSvShl, execSvShr, execSvSra,
      execSvMul, execSvMulh, execSvFadd, execSvFsub, execSvFmul, execSvFdiv]
    exact outOk_svR3 h
  | svSin | svSseq | svStim =>
    simp only [exec, execSvSin, execSvSseq, execSvStim]
    exact outOk_fromPort h
  | svAddi | svAndi | svOri | svShli | svShri | svSrai =>
    simp only [exec, execSvAddi, execSvAndi, execSvOri, execSvShli, execSvShri, execSvSrai]
    exact outOk_svI h
  | svLui | svRlim | svFma | svFabs | svFneg | svFsqrt =>
    simp only [exec, execSvLui, execSvRlim, execSvFma, execSvFabs, execSvFneg, execSvFsqrt]
    exact outOk_setA h
  | svSrw =>
    simp only [exec, execSvSrw]
    exact outOk_svStep (fun _ _ h => resOk_sysWrite _ _ _ _ h) h
  | svLoopStep =>
    simp only [exec, execSvLoopStep]
    exact outOk_svStep (fun _ _ h => resOk_loopStep _ _ _ h) h
  | svLctlHold | svLctlResume =>
    simp only [exec, execSvLctlHold, execSvLctlResume]
    exact outOk_svStep (fun _ _ h => resOk_loopCtl _ _ _ h) h
  | svBeq | svBne | svBlt | svBge =>
    simp only [exec, execSvBeq, execSvBne, execSvBlt, execSvBge]
    exact outOk_svBranch h
  | svMacc | svMsub =>
    simp only [exec, execSvMacc, execSvMsub]
    exact outOk_svMacc h
  | svFmin | svFmax =>
    simp only [exec, execSvFmin, execSvFmax]
    exact outOk_svPick h
  | svFcvtsw | svFcvtws =>
    simp only [exec, execSvFcvtsw, execSvFcvtws]
    exact outOk_svScale h
  | svIllegal =>
    simp only [exec, execSvIllegal]
    exact outOk_svStep (fun _ _ _ => rfl) h
  | clrBarErr | clrRetrain | clrDbPf => exact memOk_writeClear _ h
  | retrain => exact memOk_writeLink _ h

theorem outOk_step {s : State} (h : s.memOk = true) : outOk (step s) = true := by
  unfold step
  split
  · exact memOk_idle h
  · exact memOk_exec (by simp [h])

end Sys2Proof.Machine
end

section

set_option Elab.async false

open Sys2Proof.Machine

/-- Settles O54: an empty queue is `memOk_idle`, a command `memOk_exec`, by the rule of its own operation. -/
theorem stepKeepsMemories : Obligations.StepKeepsMemories := fun _ _ h ht => memOk_of_next (outOk_step h) ht

end
